-- ==== Sys2Proof/Word.lean ====
section
/-! DEFINITION. The words of the KD-620: bytes and texts (00_scope.md, Conventions). -/

namespace Sys2Proof

/-- One byte of a frame, of a settings row or of a text. -/
abbrev Byte := BitVec 8

/-- A text is a list of one-byte characters (00_scope, "Text"). -/
abbrev Text := List Byte

end Sys2Proof
end

