-- ==== Sys2Proof/Syntax.lean ====
section
/-! DEFINITION. The commands of the part: one constructor for each row of spec/opcode_table.json, with its operands. -/

namespace Sys2Proof

/-- The two links (00_scope, "Links"). As an owner the Information link is coded 0 and the Control link 1 (R59). -/
inductive Link where
  | information
  | control
deriving DecidableEq, Repr

/-- A request at its execution: the link it came on, its TAG and its BODY (R184, R187). -/
structure Req where
  link : Link
  tag : Byte
  body : List Byte
deriving DecidableEq, Repr

/-- A request frame without its SYNC, LEN and CHECK (R184). -/
structure RequestFrame where
  kind : Byte
  tag : Byte
  body : List Byte
deriving DecidableEq, Repr

/-- Why a frame being gathered is discarded (R185). A gap names the byte that ended it. -/
inductive FrameErrorCause where
  | badLength (len : Nat)
  | gap (next : Byte)
  | missingStop
  | badCheck
deriving DecidableEq, Repr

/-- A panel's reply as the chain receiver gathered it; `checkOk` says whether LEN and CHECK are right (R126, section 11.6). -/
structure PanelReplyFrame where
  checkOk : Bool
  address : Byte
  generation : BitVec 32
  temperature : BitVec 8
  flags : Byte
  lineCheck : BitVec 16
deriving DecidableEq, Repr

/-- The outcome an ENDED carries (section 9.7). -/
inductive EndOutcome where
  | complete
  | stopped
deriving DecidableEq, Repr

/-- What a ZONE_STATE reports (R162). -/
inductive ZoneReport where
  | ok
  | fault
deriving DecidableEq, Repr

/-- Why an announcer frame is discarded (R159): it is broken, or it is well-formed and of a kind the announcer is not to send. -/
inductive CueDiscard where
  | broken
  | unexpectedKind
deriving DecidableEq, Repr

/-- The commands. A clock line or wall input is named by its number less one. -/
inductive Instr where
  -- resets and power
  | powerOnReset
  | softReset
  | chainResetComplete
  | powerLoss
  -- link ports
  | requestFrameReceived (link : Link) (frame : RequestFrame)
  | frameError (link : Link) (cause : FrameErrorCause)
  | unknownKindRequest (link : Link) (frame : RequestFrame)
  | noticeFrameSend (link : Link)
  | identify (rq : Req)
  | eventsReadClear (rq : Req)
  | eventsMaskSet (rq : Req)
  | resetPart (rq : Req)
  -- heartbeat and feed
  | heartbeat (rq : Req)
  | heartbeatTimerExpiry
  | staleTimerExpiry
  -- ownership
  | assign (rq : Req)
  | ownershipRead (rq : Req)
  -- timebase
  | timeRead (rq : Req)
  | timeSet (rq : Req)
  | timebaseSelect (rq : Req)
  | timebaseSelectEdge
  | oscillatorGap
  | referenceTelegram (bytes : List Byte)
  | referenceTimeout
  | holdoverExpiry
  | stationSecond
  -- departure table
  | servicePut (rq : Req)
  | serviceUpdate (rq : Req)
  | serviceRemove (rq : Req)
  | serviceRead (rq : Req)
  | tableRead (rq : Req)
  | nameLoad (rq : Req)
  | changeMarkExpiry (service : Nat)
  -- notices and banner
  | noticePost (rq : Req)
  | noticeWithdraw (rq : Req)
  | noticeList (rq : Req)
  | noticeExpiry (notice : Nat)
  | rotationDwellEnd
  | bannerSet (rq : Req)
  | bannerShadowExpiry (link : Link)
  -- wall
  | wallRead (rq : Req)
  | brightnessSet (rq : Req)
  | wallStatus (rq : Req)
  -- panel chain
  | panelSparePin (rq : Req)
  | panelSpareRelease (rq : Req)
  | panelSpareAutomatic (rq : Req)
  | pollCycleStart
  | panelReply (reply : PanelReplyFrame)
  | panelReplyMiss
  -- link test
  | wallTestStart (rq : Req)
  | linkTestBegin
  | wallTestStop (rq : Req)
  | wallTestInsertError (rq : Req)
  | testPatternBitTransmitted
  | detectorSeeded (bits : BitVec 11)
  | detectorWindow (bits : List Bool)
  | linkTestDurationEnd
  -- announcement cues
  | cuePost (rq : Req)
  | cueCancel (rq : Req)
  | cueStatus (rq : Req)
  | cueAgeOut (cue : Nat)
  | cuePortAccept (cue : Nat)
  | cuePortReject (cue : Nat) (reason : Byte)
  | cuePortEnded (cue : Nat) (outcome : EndOutcome)
  | cuePortProbeReply
  | cuePortZoneState (zone : Nat) (report : ZoneReport)
  | cuePortFrameDiscarded (why : CueDiscard)
  | probeTimer
  | acceptWaitExpiry (cue : Nat)
  | endedWaitExpiry (cue : Nat)
  | stopWaitExpiry (cue : Nat)
  | probeWaitExpiry
  | reservedIdRelease (cue : Nat)
  | inputCueRepeat (input : Fin 4)
  -- slave clock lines
  | clockLineStatus (rq : Req)
  | clockLineSet (rq : Req)
  | clockLineRetry (rq : Req)
  | parkClocks (rq : Req)
  | impulseOpenCheck (line : Fin 4) (currentFlows : Bool)
  | impulseOverloadTrip (line : Fin 4)
  | impulseDriveEnd (line : Fin 4)
  | impulseGapEnd (line : Fin 4)
  | clockRetryTimerExpiry (line : Fin 4)
  -- wall inputs
  | inputLevelChange (input : Fin 4) (asserted : Bool)
  | qualificationTimerExpiry (input : Fin 4)
  | inputStatus (rq : Req)
  -- settings
  | settingsRead (rq : Req)
  | settingsWrite (rq : Req)
  | settingsSave (rq : Req)
  | storeWriteComplete
  | settingsCheck (rq : Req)
  | settingsFreeze (rq : Req)
deriving DecidableEq, Repr

end Sys2Proof
end

