-- ==== Sys2Proof/Decode.lean ====
section
/-! DEFINITION. The words of the table. No row of spec/opcode_table.json gives its command bits ("fields" is empty in all 92
rows), so no word spells a command. Requests are read from the bytes of their frames, in Machine/Operands.lean. -/

namespace Sys2Proof

/-- The command a table word spells: none, since the table gives no row any bits (log 31). -/
def decodeTableWord (_nbits _w : Nat) : Option Instr := none

end Sys2Proof
end

