-- ==== Sys2Proof/Config.lean ====
section
/-! DEFINITION. The free values: what the specification leaves open and the machine goes on with.
Each is applied to the counter `free` of the state, so every use is a fresh value (log 30). -/

namespace Sys2Proof.Config

/-- Byte `i` of a stored row left by a power loss in a store write, or of a worn row that decays (R203; log 17, log 18).
Index 64 is the row's check byte. -/
opaque storeByte : Nat → Nat → Byte

/-- Whether a store write cut off by a power loss had already raised the save count (R203; log 17). -/
opaque countRaised : Nat → Bool

/-- Whether a row written beyond 20000 times decays at this power-on (R203; log 18). -/
opaque rowDecays : Nat → Nat → Bool

end Sys2Proof.Config
end

