-- ==== Sys2Proof/Machine/State.lean ====
section
/-! DEFINITION. The state of the part, the reasons a step could stop, and the machine right after power-on reset.
Times are milliseconds of elapsed time; an instant of a timer is the value of `elapsed` at which it runs out. -/

namespace Sys2Proof.Machine

/-! ## Timebase (01_station_time) -/

/-- What station seconds are counted from (R3). -/
inductive Source where
  | oscillator
  | derived
deriving DecidableEq, Repr

/-- The reference state with the count each state keeps (R5 to R7): the run count, the out-of-step count with the
large-offset run, the instant HOLDOVER was entered. -/
inductive RefState where
  | absent
  | qualifying (run : Nat)
  | locked (outOfStep : Nat) (largeRun : List Int)
  | holdover (since : Nat)
deriving DecidableEq, Repr

/-- The last valid telegram: its arrival instant and its announced time in seconds from 2000-01-01 00:00:00 (R5). -/
structure ValidTelegram where
  arrival : Nat
  announced : Nat
deriving DecidableEq, Repr

/-- The Timebase (R1, R3, R5, R9, R10, R14). `edgesSince` is the instant the running time counts from, none while no edge
has come since a gap. `serviceDay` counts days from 2000-01-01 and may be -1 (log 34). -/
structure Timebase where
  day : Nat
  second : Nat
  sourceMs : Nat
  secondLength : Nat
  valid : Bool
  source : Source
  edgesSince : Option Nat
  slew : Option Int
  ref : RefState
  lastValid : Option ValidTelegram
  lastOffset : Option Int
  glitches : Nat
  startHour : Nat
  serviceDay : Option Int
deriving DecidableEq, Repr

/-! ## Departure Table (02, 03, 05) -/

/-- The status of a copy of running fields (R24). -/
inductive Status where
  | normal
  | boarding
  | closed
  | departed
  | cancelled
deriving DecidableEq, Repr

/-- A copy of running fields (section 2.1). -/
structure Running where
  platform : Option Nat
  expected : Option Int
  unknown : Bool
  status : Status
deriving DecidableEq, Repr

/-- The display state (R46). -/
inductive Display where
  | departed
  | cancelled
  | closed
  | boarding
  | delayed
  | expected (minutes : Nat)
  | onTime
deriving DecidableEq, Repr

/-- An ACTIVE change mark; while it is INACTIVE its other fields are absent or clear, so it is none (R76). -/
structure Mark where
  original : Nat
  expiry : Nat
  announced : Bool
deriving DecidableEq, Repr

/-- Origin of last effective change (R22). -/
inductive ChangeOrigin where
  | noChange
  | put
  | information
  | control
  | returned
deriving DecidableEq, Repr

/-- A service record (section 2.1). -/
structure Record where
  id : Nat
  label : Text
  sched : Int
  dest : Nat
  calls : List Nat
  autoCue : Bool
  info : Running
  ctl : Option Running
  minutes : Option Nat
  late : Bool
  key : Int
  eff : Int
  display : Display
  announcedDelay : Option Nat
  mark : Option Mark
  departedAt : Option Int
  origin : ChangeOrigin
deriving DecidableEq, Repr

/-- The Departure Table: records in table order (R36) and the 256 station names (R35). -/
structure Table where
  records : List Record
  names : List Text
deriving DecidableEq, Repr

/-! ## Ownership Table (04) -/

/-- The mode of a zone (R59). -/
inductive ZoneMode where
  | infoOnly
  | controlOnly
  | shared
deriving DecidableEq, Repr

/-- A banner shadow (R72). -/
structure BannerShadow where
  text : Text
  enabled : Bool
  expiry : Option Nat
deriving DecidableEq, Repr

/-- The owners, the zone modes and the shadow values (R59, R72). -/
structure Ownership where
  platforms : List Link
  zones : List ZoneMode
  banner : Link
  time : Link
  clockLines : Link
  wall : Link
  bannerInfo : BannerShadow
  bannerCtl : BannerShadow
  brightInfo : Nat
  brightCtl : Nat
deriving DecidableEq, Repr

/-! ## Notice List (06) -/

/-- The kind of a notice (R88). -/
inductive NoticeKind where
  | posted
  | delay
  | unknown
  | change
  | cancel
  | stale
deriving DecidableEq, Repr

/-- The origin of a notice (R88). -/
inductive NoticeOrigin where
  | information
  | control
  | part
deriving DecidableEq, Repr

/-- A notice (R88). `text` is that of a posted notice; an automatic one's is composed when shown (R92). -/
structure Notice where
  id : Nat
  kind : NoticeKind
  priority : Nat
  creation : Nat
  service : Option Nat
  text : Text
  expiry : Option Nat
  origin : NoticeOrigin
deriving DecidableEq, Repr

/-- What the rotation shows (R98): the notice, its page and the dwell end. -/
structure Shown where
  id : Nat
  page : Nat
  dwellEnd : Nat
deriving DecidableEq, Repr

/-- The Notice List in list order, with its rotation (R88, R89, R98). -/
structure NoticeList where
  notices : List Notice
  nextId : Nat
  nextCreation : Nat
  shown : Option Shown
deriving DecidableEq, Repr

/-! ## Composed Image (07) -/

/-- The role of a wall line (section 7.1). -/
inductive Role where
  | banner
  | clock
  | departure (k : Nat)
  | detail (k : Nat)
  | blank
deriving DecidableEq, Repr

/-- What a composed line holds: text, attributes with column 1 in the most significant bit, role, service shown (R113). -/
structure LineContent where
  text : Text
  blink : BitVec 48
  highlight : BitVec 48
  role : Role
  service : Option Nat
deriving DecidableEq, Repr

/-- A wall line of the image with its line generation (R113). -/
structure WallLine where
  content : LineContent
  generation : Nat
deriving DecidableEq, Repr

/-- The Composed Image (R113, R116). The global level is the shadow of WALL's owner (R119). -/
structure Image where
  lines : List WallLine
  generation : Nat
deriving DecidableEq, Repr

/-! ## Panel chain (08) -/

/-- Why a panel is FAULTED (R123). -/
inductive FaultReason where
  | silent
  | driver
  | thermal
deriving DecidableEq, Repr

/-- The state of a panel (R123). -/
inductive PanelState where
  | starting
  | active
  | warm
  | faulted (why : FaultReason)
deriving DecidableEq, Repr

/-- A panel record (R123). -/
structure Panel where
  state : PanelState
  misses : Nat
  recovery : Nat
  ack : Nat
  refresh : Bool
  temperature : Option Int
  driver : Bool
deriving DecidableEq, Repr

/-- The spare's duty (R131). -/
inductive Duty where
  | notFitted
  | standby
  | engaged (position : Nat)
deriving DecidableEq, Repr

/-- The spare mode (R131). -/
inductive SpareMode where
  | automatic
  | pinned (position : Nat)
  | released
deriving DecidableEq, Repr

/-- A line as a poll carries it (section 11.6). -/
structure PollLine where
  number : Nat
  text : Text
  blink : BitVec 48
  highlight : BitVec 48
deriving DecidableEq, Repr

/-- A poll, or a test command to address 0 (R125, R139, R142; section 11.6). -/
structure PollFrame where
  address : Nat
  generation : Nat
  level : Nat
  clear : Bool
  testStart : Bool
  testEnd : Bool
  lines : List PollLine
deriving DecidableEq, Repr

/-- A poll in progress: the frame, the four lines the panel is to show at its generation (R126), and when it was sent.
`superseded` says that what its panel shows was set anew after it was sent, by a change of the spare's duty or by the end of a
link test: its reply then acknowledges nothing (R133, R142; log 53). -/
structure Poll where
  frame : PollFrame
  shows : List PollLine
  sentAt : Nat
  superseded : Bool
deriving DecidableEq, Repr

/-- The mode of a link test (R138). -/
inductive TestMode where
  | chainEcho
  | partLoop
deriving DecidableEq, Repr

/-- Where a link test stands: none runs; a START was accepted and the poll in progress is still to be processed; the pattern
is being sent (R139). -/
inductive TestPhase where
  | idle
  | accepted (seconds : Nat)
  | running (began : Nat) (ends : Nat)
deriving DecidableEq, Repr

/-- How a link test ended (R142). -/
inductive TestEnd where
  | duration
  | stop
deriving DecidableEq, Repr

/-- The report of a link test (R142). `ended` is none while the test runs. -/
structure Report where
  mode : TestMode
  seconds : Nat
  ended : Option TestEnd
  locked : Bool
  compared : Nat
  errors : Nat
  losses : Nat
  inserted : Nat
deriving DecidableEq, Repr

/-- The window under way: the bits compared in it, and how many of them were wrong (R141). -/
structure Window where
  bits : Nat
  errors : Nat
deriving DecidableEq, Repr

/-- The link test (R139 to R142). `pattern` holds the next eleven bits to be sent, the next one in bit 0. `detector` is none
while seeding, else the eleven bits from which the next is predicted. -/
structure LinkTest where
  phase : TestPhase
  pattern : BitVec 11
  pending : Nat
  lastBit : Option Bool
  detector : Option (BitVec 11)
  window : Window
  report : Option Report
deriving DecidableEq, Repr

/-- Whether the chain's reset is complete (R143): complete; a poll's reply is awaited; the reply has been discarded. -/
inductive ChainReset where
  | complete
  | awaitingReply
  | discarded
deriving DecidableEq, Repr

/-- The Panel Chain Controller. `panels` holds chain addresses 1 to 13 in order. -/
structure Chain where
  positions : Nat
  fitted : Bool
  panels : List Panel
  duty : Duty
  mode : SpareMode
  clearDue : Bool
  poll : Option Poll
  cycleRest : List Nat
  nextCycleAt : Nat
  lastSent : Option PollFrame
  reset : ChainReset
  test : LinkTest
deriving DecidableEq, Repr

/-! ## Announcement cues (09) -/

/-- The class of a cue (R144). -/
inductive CueClass where
  | emergency
  | safety
  | change
  | service
  | general
deriving DecidableEq, Repr

/-- The origin of a cue (R144). -/
inductive CueOrigin where
  | auto
  | information
  | control
  | input
deriving DecidableEq, Repr

/-- The template kind of an automatic cue (R144). -/
inductive Template where
  | change
  | delay
  | cancel
  | boarding
deriving DecidableEq, Repr

/-- The outcome of a cue in one zone (R144). -/
inductive ZoneOutcome where
  | pending
  | done
  | failed
  | dropped
deriving DecidableEq, Repr

/-- Why a STOP was sent for a cue (R161, R164 to R167). -/
inductive StopReason where
  | preemption
  | timeout
  | cancellation
deriving DecidableEq, Repr

/-- The flight state, with the instant at which its wait runs out (R144, R159, R164). -/
inductive Flight where
  | queued
  | sent (acceptBy : Nat)
  | accepted (endBy : Nat)
  | stopping (why : StopReason) (stopBy : Nat)
deriving DecidableEq, Repr

/-- A cue record (R144). `zones` pairs each zone of the set, ascending, with its outcome. -/
structure Cue where
  id : Nat
  cls : CueClass
  origin : CueOrigin
  arrival : Nat
  service : Option Nat
  template : Option Template
  input : Option Nat
  zones : List (Nat × ZoneOutcome)
  tokens : List Nat
  required : Option Nat
  replayed : Bool
  created : Nat
  flight : Flight
deriving DecidableEq, Repr

/-- The state of a zone (R147). -/
inductive ZoneState where
  | idle
  | playing (cue : Nat)
  | stopping (cue : Nat)
  | offline
deriving DecidableEq, Repr

/-- The announcer state (R147). -/
inductive Announcer where
  | up
  | lost
deriving DecidableEq, Repr

/-- A frame for the announcer, with its TAG (section 9.7, section 11.6). -/
inductive CueFrame where
  | play (tag : Nat) (cue : Nat) (zones : List Nat) (tokens : List Nat)
  | stop (tag : Nat) (cue : Nat)
  | probe (tag : Nat)
deriving DecidableEq, Repr

/-- The Cue Scheduler (R144 to R147, R159, R167, R169). -/
structure CueSched where
  pool : List Cue
  queues : List (List Nat)
  zones : List ZoneState
  announcer : Announcer
  silence : Nat
  lastReject : Option Byte
  nextId : Nat
  nextArrival : Nat
  reserved : List (Nat × Nat)
  repeats : List (Option Nat)
  probeAt : Nat
  probeWait : Option Nat
  tx : List CueFrame
  tag : Nat
deriving DecidableEq, Repr

/-! ## Slave clock lines (10) -/

/-- The direction of current of an impulse (R171). -/
inductive Polarity where
  | plus
  | minus
deriving DecidableEq, Repr

/-- The state of a clock line (R171). -/
inductive ClockState where
  | disabled
  | stopped
  | running
  | catchingUp
  | holding
  | faultedOpen
  | faultedOverload
  | parked
deriving DecidableEq, Repr

/-- An impulse in flight (R174): while `driving`, `phaseEnd` ends the drive, else the recovery gap. `openRead` says that the
OPEN comparator has been read. -/
structure Impulse where
  polarity : Polarity
  driving : Bool
  gap : Nat
  startedAt : Nat
  phaseEnd : Nat
  openRead : Bool
deriving DecidableEq, Repr

/-- The record of a clock line (R171). -/
structure ClockLine where
  state : ClockState
  dial : Nat
  position : Option Nat
  uncertain : Bool
  polarity : Polarity
  impulse : Option Impulse
  retryImpulse : Bool
  retryAt : Option Nat
  faults : Nat
deriving DecidableEq, Repr

/-- A park in progress (R180): the lines to be parked, and whether the park write has been asked for. -/
structure Park where
  lines : List Nat
  asked : Bool
deriving DecidableEq, Repr

/-- The Clock Line Drivers (R171, R180, R181). -/
structure Clocks where
  lines : List ClockLine
  park : Option Park
  recordValid : Bool
deriving DecidableEq, Repr

/-! ## Wall inputs and stored settings (12) -/

/-- The state of a wall input (R198). -/
inductive InputState where
  | idle
  | qualifying
  | active
  | releasing
deriving DecidableEq, Repr

/-- A wall input (R198). `timer` is the instant the qualification timer runs out. `acting` says that its actions have begun and
not ended (R199; log 26). -/
structure WallInput where
  asserted : Bool
  state : InputState
  timer : Option Nat
  acting : Bool
deriving DecidableEq, Repr

/-- The stored copy of a row (R201, R203). `worn` says it has been written beyond 20000 times. -/
structure StoredRow where
  bytes : List Byte
  check : Byte
  saves : Nat
  failed : Bool
  worn : Bool
deriving DecidableEq, Repr

/-- A store write (R203): a save of a row, a park write with the thirteen bytes of the record, or an invalidating write. -/
inductive StoreWrite where
  | save (row : Nat)
  | park (entry : List Byte)
  | invalidate
deriving DecidableEq, Repr

/-- The Settings Store (R201, R203, R205). The head of `writes` is under way since `writeBegan`. -/
structure Store where
  working : List (List Byte)
  stored : List StoredRow
  frozen : Bool
  writes : List StoreWrite
  writeBegan : Nat
deriving DecidableEq, Repr

/-! ## Link ports and feed (11) -/

/-- What the request in execution on a link waits for, keeping its place (R4, R186, R203, R204). A wait for an edge of the
timekeeping oscillator has a limit, the elapsed instant 2 ms after the execution (R4). -/
inductive Waiting where
  | edge (tag : Byte) (limit : Nat)
  | save (tag : Byte) (row : Nat)
  | check (tag : Byte)
deriving DecidableEq, Repr

/-- A frame from the part to a partner (R184, R187, R190). -/
inductive OutFrame where
  | reply (kind tag summary result : Byte) (body : List Byte)
  | notice (summary : Byte) (events : BitVec 32)
deriving DecidableEq, Repr

/-- A Link Port (R185 to R192). `tx` holds the frames composed and not yet wholly sent; `lineEnd` is the instant the frame at
its head ends, none while no frame has begun. The reception condition is `inFrame`, else hunting. -/
structure Port where
  latched : BitVec 32
  subjects : List (BitVec 16)
  mask : BitVec 32
  resetSeen : Bool
  linkError : Bool
  frameErrors : Nat
  inFrame : Bool
  buffer : List RequestFrame
  waiting : Option Waiting
  noticeDue : Bool
  tx : List OutFrame
  lineEnd : Option Nat
  rate : Nat
deriving DecidableEq, Repr

/-- The feed state (R194). -/
inductive FeedState where
  | live
  | stale
  | lost
deriving DecidableEq, Repr

/-- The heartbeat and the feed (R193, R194). -/
structure Feed where
  state : FeedState
  lastToggle : Option Nat
  heartbeatAt : Option Nat
  staleAt : Option Nat
deriving DecidableEq, Repr

/-! ## The part -/

/-- Marks of the event under way, clear between events: the Wall Composer has been told (R115), the records handed on (R38),
the next arrival number when the event began (R77 step 4). -/
structure Event where
  wallTold : Bool
  handedOn : List Nat
  arrivalMark : Nat
deriving DecidableEq, Repr

/-- Everything the part holds. -/
structure Part where
  powered : Bool
  elapsed : Nat
  free : Nat
  time : Timebase
  table : Table
  own : Ownership
  notices : NoticeList
  image : Image
  chain : Chain
  cues : CueSched
  clocks : Clocks
  inputs : List WallInput
  store : Store
  info : Port
  ctl : Port
  feed : Feed
  resetDue : Bool
  ev : Event
deriving DecidableEq, Repr

/-- The part and the commands that wait for it, first in, first out. -/
structure State where
  part : Part
  pending : List Instr
deriving DecidableEq, Repr

/-- Faults: the specification gives the part no condition in which it stops, so nobody raises one and the type is empty.
This is safe: a claim that no fault occurs holds because every command has its effect. -/
inductive Fault : Type where
deriving DecidableEq, Repr

/-- Refusals. -/
inductive Refusal where
  /-- Raised only by an arm of `exec` whose command has no meaning yet; safe, since nothing goes on from it. No arm is left so. -/
  | notModelled (mnemonic : String)
deriving DecidableEq, Repr

/-! ## Right after power-on reset -/

/-- `n` zero bytes. -/
def zeros (n : Nat) : List Byte := List.replicate n 0

/-- The default bytes of each settings row (R201); bytes of no field are 0 and ended token words 0xFFFF (log 6). -/
def defaultRow : Nat → List Byte
  | 0 => [3, 3, 15, 2, 88, 12, 3, 12, 1] ++ zeros 55
  | 1 => [2, 1, 10, 5, 20, 1, 44, 3, 132, 0, 30, 0, 180, 8] ++ zeros 50
  | 2 => (List.range 32).map (BitVec.ofNat 8) ++ zeros 32
  | 3 => ((List.range 10).map (fun i => BitVec.ofNat 8 (32 + i)) ++ List.replicate 6 82)
      ++ (List.range 32).map (fun i => BitVec.ofNat 8 (i / 4 + 1)) ++ zeros 16
  | 4 => [0, 1, 0, 2, 0, 3, 0, 4, 0, 5, 0, 6, 0, 7, 0, 8, 0, 9, 1, 0, 0, 128]
      ++ [0, 180, 1, 44, 2, 88, 2, 88] ++ List.replicate 32 255 ++ zeros 2
  | 5 => (List.replicate 4 [0, 10, 10, 60]).flatten ++ (List.replicate 4 [0, 5, 255, 0]).flatten ++ List.replicate 32 255
  | 10 => [0] ++ (List.replicate 4 [255, 255, 0]).flatten ++ zeros 51
  | _ => zeros 64

/-- The check bytes of the default rows, by the CRC-8 of R201 (a test compares them with the function). -/
def defaultChecks : List Byte := [0x8E, 0x56, 0x89, 0xB9, 0x2E, 0x75, 0xDB, 0xDB, 0xDB, 0xDB, 0x1B]

/-- The stored copies of a new part (log 6). -/
def resetStored : List StoredRow :=
  ((List.range 11).zip defaultChecks).map fun rc =>
    { bytes := defaultRow rc.1, check := rc.2, saves := 0, failed := false, worn := false }

/-- 48 spaces. -/
def blankText : Text := List.replicate 48 32

/-- "--:--:--" in columns 21 to 28 (R111). -/
def noTimeText : Text := List.replicate 20 32 ++ [45, 45, 58, 45, 45, 58, 45, 45] ++ List.replicate 20 32

/-- The default role of a wall line (R104). -/
def defaultRole (n : Nat) : Role :=
  if n == 1 then .banner else if n == 2 then .clock else if n ≤ 42 then .departure (n - 2) else .blank

/-- The image after power-on (R121). -/
def resetLines : List WallLine :=
  (List.range 48).map fun i =>
    { content := { text := if i == 1 then noTimeText else blankText, blink := 0, highlight := 0,
                   role := defaultRole (i + 1), service := none },
      generation := 1 }

/-- A panel record at reset (R143). -/
def resetPanel : Panel :=
  { state := .starting, misses := 0, recovery := 0, ack := 0, refresh := true, temperature := none, driver := false }

/-- The link test at reset (R143): none, the pattern's first eleven bits being ones (R140). -/
def resetTest : LinkTest :=
  { phase := .idle, pattern := BitVec.allOnes 11, pending := 0, lastBit := none, detector := none,
    window := { bits := 0, errors := 0 }, report := none }

/-- A clock line at a power-on with nothing enabled and no park record (R182). -/
def resetClockLine : ClockLine :=
  { state := .disabled, dial := 720, position := none, uncertain := false, polarity := .plus, impulse := none,
    retryImpulse := false, retryAt := none, faults := 0 }

/-- A port at a reset whose RESET_DONE subject is `subject` (R196). -/
def resetPort (subject : BitVec 16) (rate : Nat) : Port :=
  { latched := 1, subjects := subject :: List.replicate 28 0, mask := 0x1FFFFFFF, resetSeen := true, linkError := false,
    frameErrors := 0, inFrame := false, buffer := [], waiting := none, noticeDue := false, tx := [], lineEnd := none,
    rate := rate }

/-- An empty banner shadow (R72). -/
def emptyShadow : BannerShadow := { text := [], enabled := false, expiry := none }

/-- The Ownership Table after a reset that leaves the default brightness `level` (R59, R72). -/
def resetOwnership (level : Nat) : Ownership :=
  { platforms := List.replicate 32 .information, zones := List.replicate 8 .infoOnly, banner := .information,
    time := .information, clockLines := .information, wall := .information, bannerInfo := emptyShadow,
    bannerCtl := emptyShadow, brightInfo := level, brightCtl := level }

/-- The Notice List after a reset (R103). -/
def resetNotices : NoticeList := { notices := [], nextId := 1, nextCreation := 1, shown := none }

/-- The Departure Table after a reset (R40). -/
def resetTable : Table := { records := [], names := List.replicate 256 [] }

/-- A wall input at power-on with its contact released (R200; log 6). -/
def resetInput : WallInput := { asserted := false, state := .idle, timer := none, acting := false }

/-- No event under way. -/
def noEvent : Event := { wallTold := false, handedOn := [], arrivalMark := 0 }

/-- The Timebase after power-on (R18) at the elapsed instant `now`, with the start hour `h` of row 0. -/
def resetTimebase (now h : Nat) : Timebase :=
  { day := 0, second := 0, sourceMs := 0, secondLength := 1000, valid := false, source := .oscillator,
    edgesSince := some now, slew := none, ref := .absent, lastValid := none, lastOffset := none, glitches := 0,
    startHour := h, serviceDay := none }

/-- The part right after power-on reset with a new part's stored settings (log 6). -/
def Part.reset : Part :=
  { powered := true, elapsed := 0, free := 0
    time := resetTimebase 0 3
    table := resetTable
    own := resetOwnership 12
    notices := resetNotices
    image := { lines := resetLines, generation := 1 }
    chain :=
      { positions := 12, fitted := true, panels := List.replicate 13 resetPanel, duty := .standby, mode := .automatic,
        clearDue := false, poll := none, cycleRest := [], nextCycleAt := 0, lastSent := none, reset := .complete,
        test := resetTest }
    cues :=
      { pool := [], queues := List.replicate 8 [], zones := List.replicate 8 .idle, announcer := .lost, silence := 0,
        lastReject := none, nextId := 1, nextArrival := 1, reserved := [], repeats := List.replicate 4 none, probeAt := 0,
        probeWait := none, tx := [], tag := 0 }
    clocks := { lines := List.replicate 4 resetClockLine, park := none, recordValid := false }
    inputs := List.replicate 4 resetInput
    store :=
      { working := (List.range 11).map defaultRow, stored := resetStored, frozen := false, writes := [], writeBegan := 0 }
    info := resetPort 0 3
    ctl := resetPort 0 3
    feed := { state := .live, lastToggle := none, heartbeatAt := some 15000, staleAt := none }
    resetDue := false
    ev := noEvent }

/-- The machine right after power-on reset, with no command waiting. -/
def State.reset : State := { part := Part.reset, pending := [] }

end Sys2Proof.Machine
end

