-- ==== Sys2Proof/Machine/Ops.lean ====
section
/-! DEFINITION. The named operations every block uses: lists, counts that go round, bytes and checks, dates, settings
fields, time, and the form of a command's meaning. -/

namespace Sys2Proof.Machine

/-! ## Commands and their meanings -/

/-- A command's meaning: the part with power applied takes `f`; without power nothing happens (log 19). The queue is left. -/
def act (f : Part → Part) (s : State) : Host.Outcome State Fault Refusal :=
  .next { s with part := if s.part.powered then f s.part else s.part }

/-! ## Lists -/

/-- Element `i`, counted from 0, replaced by its image. -/
def updateAt {α : Type} : List α → Nat → (α → α) → List α
  | [], _, _ => []
  | a :: l, 0, f => f a :: l
  | a :: l, n + 1, f => a :: updateAt l n f

/-- `f` applied `n` times. -/
def times {α : Type} : Nat → (α → α) → α → α
  | 0, _, a => a
  | n + 1, f, a => times n f (f a)

/-- `a` inserted before the first element it comes before. -/
def insertBy {α : Type} (before : α → α → Bool) (a : α) : List α → List α
  | [] => [a]
  | b :: l => if before a b then a :: b :: l else b :: insertBy before a l

/-- A list put in order, elements that tie keeping their order. -/
def sortBy {α : Type} (before : α → α → Bool) (l : List α) : List α :=
  l.foldl (fun acc a => insertBy before a acc) []

/-- The numbers `lo`, `lo + 1`, … of which there are `n`. -/
def numbersFrom (lo n : Nat) : List Nat := (List.range n).map (lo + ·)

/-- A text padded with spaces, or cut, to `n` characters. -/
def fit (n : Nat) (t : Text) : Text := t.take n ++ List.replicate (n - t.length) 32

/-! ## Counts that go round without 0 (R116, R145) -/

/-- The largest value of a 32-bit count. -/
def countMax : Nat := 4294967295

/-- The next value: after 4294967295 comes 1 (R116, R145). -/
def countNext (n : Nat) : Nat := if n < countMax then n + 1 else 1

/-- `g` is not older than `r`: equal, or following by fewer than 2147483648 steps (R116). The value 0 is no generation. -/
def notOlder (g r : Nat) : Bool := 1 ≤ g && (g + countMax - r) % countMax < 2147483648

/-- `a` is lower than `b` round the count (R145). -/
def countLower (a b : Nat) : Bool := a != b && notOlder b a

/-! ## Bytes and checks -/

/-- A number in `n` big-endian bytes. -/
def be : Nat → Nat → List Byte
  | 0, _ => []
  | n + 1, v => BitVec.ofNat 8 (v / 256 ^ n) :: be n v

/-- A signed number in `n` big-endian bytes, two's complement (R197). -/
def beInt (n : Nat) (v : Int) : List Byte := be n (v % (256 : Int) ^ n).toNat

/-- The number a list of big-endian bytes holds. -/
def ofBe (l : List Byte) : Nat := l.foldl (fun a b => a * 256 + b.toNat) 0

/-- One byte into the CRC-8 of R201: polynomial 0x1D, most significant bit first. -/
def crc8Byte (c b : Byte) : Byte :=
  times 8 (fun c => if c.getLsbD 7 then (c <<< 1) ^^^ 0x1D#8 else c <<< 1) (c ^^^ b)

/-- The check byte of a settings row (R201). -/
def crc8 (l : List Byte) : Byte := l.foldl crc8Byte 0xFF#8

/-- One byte into the CRC-16 of R184: polynomial 0x1021, most significant bit first. -/
def crc16Byte (c : BitVec 16) (b : Byte) : BitVec 16 :=
  times 8 (fun c => if c.getLsbD 15 then (c <<< 1) ^^^ 0x1021#16 else c <<< 1) (c ^^^ (b.setWidth 16 <<< 8))

/-- The CHECK of a frame over its bytes from LEN on (R184). -/
def crc16 (l : List Byte) : BitVec 16 := l.foldl crc16Byte 0xFFFF#16

/-- A flag as a byte (R197). -/
def flagByte (b : Bool) : Byte := if b then 1 else 0

/-! ## Dates (R1) -/

/-- The days of a month; February has 29 in every year divisible by 4. -/
def monthDays (y m : Nat) : Nat :=
  if m == 2 then (if y % 4 == 0 then 29 else 28) else if m == 4 || m == 6 || m == 9 || m == 11 then 30 else 31

/-- The days of the months before month `m` of year `y`. -/
def daysBefore (y : Nat) : Nat → Nat
  | 0 => 0
  | m + 1 => daysBefore y m + (if m == 0 then 0 else monthDays y m)

/-- The days from 2000-01-01 to a date, if it lies in 2000-01-01..2099-12-31 and exists. -/
def dayOfDate (y m d : Nat) : Option Nat :=
  if 2000 ≤ y && y ≤ 2099 && 1 ≤ m && m ≤ 12 && 1 ≤ d && d ≤ monthDays y m then
    some ((y - 2000) * 365 + (y - 1997) / 4 + daysBefore y m + (d - 1))
  else none

/-- Month and day of day `n` of year `y`, counting months from `m`, with `fuel` months left to try. -/
def monthOfDay (y : Nat) : Nat → Nat → Nat → Nat × Nat
  | 0, m, n => (m, n + 1)
  | fuel + 1, m, n => if n < monthDays y m then (m, n + 1) else monthOfDay y fuel (m + 1) (n - monthDays y m)

/-- Year, month and day of the day number `n`. -/
def dateOfDay (n : Nat) : Nat × Nat × Nat :=
  let c := n % 1461
  let yi := if c < 366 then 0 else (c - 366) / 365 + 1
  let doy := if c < 366 then c else (c - 366) % 365
  let y := 2000 + 4 * (n / 1461) + yi
  let md := monthOfDay y 11 1 doy
  (y, md.1, md.2)

/-- A date as four bytes (R197); the day before 2000-01-01 is 1999-12-31 (log 34). -/
def dateBytes (n : Int) : List Byte :=
  if n < 0 then be 2 1999 ++ [12, 31]
  else
    let d := dateOfDay n.toNat
    be 2 d.1 ++ be 1 d.2.1 ++ be 1 d.2.2

/-- The last day of the date range, 2099-12-31. -/
def lastDay : Nat := 36524

/-! ## Ports by link -/

/-- The port of a link. -/
def Part.port (p : Part) : Link → Port
  | .information => p.info
  | .control => p.ctl

/-- The port of a link replaced by its image. -/
def Part.modPort (p : Part) (l : Link) (f : Port → Port) : Part :=
  match l with
  | .information => { p with info := f p.info }
  | .control => { p with ctl := f p.ctl }

/-- The code of an owner (R59). -/
def linkCode : Link → Nat
  | .information => 0
  | .control => 1

/-! ## Settings fields (R201) -/

/-- A row of the working copy. -/
def Part.row (p : Part) (r : Nat) : List Byte := p.store.working.getD r []

/-- The one-byte field at an offset of a row. -/
def byteField (row : List Byte) (off : Nat) : Nat := (row.getD off 0).toNat

/-- The two-byte field at an offset of a row. -/
def wordField (row : List Byte) (off : Nat) : Nat := byteField row off * 256 + byteField row (off + 1)

/-- A one-byte field of the working copy. -/
def Part.cfg (p : Part) (r off : Nat) : Nat := byteField (p.row r) off

/-- A two-byte field of the working copy. -/
def Part.cfgWord (p : Part) (r off : Nat) : Nat := wordField (p.row r) off

/-- The late threshold L (R42). -/
def Part.lateL (p : Part) : Nat := p.cfg 1 0
/-- The display hysteresis H (R42). -/
def Part.hystH (p : Part) : Nat := p.cfg 1 1
/-- The notice threshold N (R42). -/
def Part.noticeN (p : Part) : Nat := p.cfg 1 2
/-- The notice step P (R42). -/
def Part.stepP (p : Part) : Nat := p.cfg 1 3
/-- The resequence threshold Q (R42). -/
def Part.reseqQ (p : Part) : Nat := p.cfg 1 4
/-- The retire grace G in seconds (R37). -/
def Part.graceG (p : Part) : Nat := p.cfgWord 1 5
/-- The cancel hold in seconds (R37). -/
def Part.cancelHold (p : Part) : Nat := p.cfgWord 1 7
/-- The departed dwell in seconds (R37). -/
def Part.departedDwell (p : Part) : Nat := p.cfgWord 1 9
/-- The change-mark time in milliseconds (R77). -/
def Part.markTime (p : Part) : Nat := p.cfgWord 1 11 * 1000
/-- The notice dwell in milliseconds (section 6.5). -/
def Part.noticeDwell (p : Part) : Nat := p.cfg 1 13 * 1000
/-- The heartbeat period in milliseconds (R194). -/
def Part.heartbeatPeriod (p : Part) : Nat := p.cfg 0 2 * 1000
/-- The stale limit in milliseconds (R194). -/
def Part.staleLimit (p : Part) : Nat := p.cfgWord 0 3 * 1000
/-- The concourse zone (R149). -/
def Part.concourseZone (p : Part) : Nat := p.cfg 0 8
/-- The zone of a platform, from the zone map (R78, R149). -/
def Part.zoneOfPlatform (p : Part) (platform : Nat) : Nat := p.cfg 3 (15 + platform)

/-- The role a role byte names (section 12.2). -/
def roleOfByte (b : Nat) : Role :=
  if b == 0 then .banner else if b == 1 then .clock else if b ≤ 41 then .departure (b - 1)
  else if b ≤ 81 then .detail (b - 41) else .blank

/-- The role of wall line `n`, 1..48, in the working layout (R104). -/
def Part.layoutRole (p : Part) (n : Nat) : Role :=
  roleOfByte (if n ≤ 32 then p.cfg 2 (n - 1) else p.cfg 3 (n - 33))

/-- A text row: its length byte and characters (section 12.2). -/
def Part.textRow (p : Part) (r : Nat) : Text := ((p.row r).drop 1).take (p.cfg r 0)

/-- A token list: words up to the first with its top bit set, at most eight (section 12.2). -/
def tokenList (row : List Byte) (off : Nat) : Nat → List Nat
  | 0 => []
  | n + 1 =>
    let w := wordField row off
    if w ≥ 32768 then [] else w :: tokenList row (off + 2) n

/-- The zones a zone-set byte names (section 11.6). -/
def zonesOfByte (b : Nat) : List Nat := (numbersFrom 1 8).filter fun z => b / 2 ^ (z - 1) % 2 == 1

/-- The zone-set byte of a list of zones. -/
def byteOfZones (zs : List Nat) : Byte :=
  BitVec.ofNat 8 (((numbersFrom 1 8).filter zs.contains).foldl (fun a z => a + 2 ^ (z - 1)) 0)

/-- The mode of a wall input (section 12.1). -/
inductive InputMode where
  | off
  | report
  | act
deriving DecidableEq, Repr

/-- The banner choice of a wall input (section 12.1). -/
inductive BannerChoice where
  | noChoice
  | textA
  | textB
deriving DecidableEq, Repr

/-- The configuration of a wall input (section 12.1); times in milliseconds. -/
structure InputConfig where
  mode : InputMode
  qualify : Nat
  banner : BannerChoice
  blank : Bool
  tokens : List Nat
  zones : List Nat
  interval : Nat
deriving DecidableEq, Repr

/-- The configuration of input `i`, counted from 0, in a set of rows (section 12.2). -/
def inputConfigIn (rows : List (List Byte)) (i : Nat) : InputConfig :=
  let r5 := rows.getD 5 []
  let flags := byteField r5 (16 + 4 * i)
  { mode := if flags % 4 == 0 then .off else if flags % 4 == 1 then .report else .act
    qualify := byteField r5 (17 + 4 * i) * 100
    banner := if flags / 4 % 4 == 0 then .noChoice else if flags / 4 % 4 == 1 then .textA else .textB
    blank := flags / 16 % 2 == 1
    tokens := if i < 2 then tokenList (rows.getD 4 []) (30 + 16 * i) 8 else tokenList r5 (32 + 16 * (i - 2)) 8
    zones := zonesOfByte (byteField r5 (18 + 4 * i))
    interval := byteField r5 (19 + 4 * i) * 10000 }

/-- The configuration of input `i` in the working copy. -/
def Part.inputConfig (p : Part) (i : Nat) : InputConfig := inputConfigIn p.store.working i

/-- The configuration of a clock line (R170); times in milliseconds. -/
structure ClockConfig where
  enabled : Bool
  dial : Nat
  width : Nat
  gap : Nat
  hold : Nat
deriving DecidableEq, Repr

/-- The configuration of clock line `i`, counted from 0, in the working copy (section 12.2). -/
def Part.clockConfig (p : Part) (i : Nat) : ClockConfig :=
  let flags := p.cfg 5 (4 * i)
  { enabled := flags % 2 == 1
    dial := if flags / 2 % 2 == 1 then 1440 else 720
    width := p.cfg 5 (4 * i + 1) * 100
    gap := p.cfg 5 (4 * i + 2) * 100
    hold := p.cfg 5 (4 * i + 3) }

/-! ## Time -/

/-- Station milliseconds: a slewed second counts its own length (R13). -/
def Timebase.millis (t : Timebase) : Nat := min 999 (t.sourceMs * 1000 / t.secondLength)

/-- Seconds of station time from 2000-01-01 00:00:00. -/
def Timebase.seconds (t : Timebase) : Nat := t.day * 86400 + t.second

/-- Station time in milliseconds from 2000-01-01 (R1). Source time beyond the end of the station second under way counts at the length
of that second: the offset of a telegram and the size of a step are taken when no such second is owed (`Part.owedSeconds`; log 8). -/
def Timebase.instant (t : Timebase) : Int := (t.seconds * 1000 + t.sourceMs * 1000 / t.secondLength : Nat)

/-- The running time of the timekeeping oscillator (R3). -/
def Part.runningTime (p : Part) : Nat :=
  match p.time.edgesSince with
  | none => 0
  | some t => p.elapsed - t

/-- The start instant of a date, in seconds (R14). -/
def Timebase.startOf (t : Timebase) (day : Int) : Int := day * 86400 + t.startHour * 3600

/-- Service seconds, while there are any (R14). -/
def Timebase.serviceSeconds (t : Timebase) : Option Int :=
  if t.valid then t.serviceDay.map fun d => (t.seconds : Int) - t.startOf d else none

/-- Service seconds as they are handed out: clamped below at −86399 (R14, R17). -/
def Timebase.handedSeconds (t : Timebase) : Option Int := t.serviceSeconds.map (max (-86399))

/-- The service date computed directly (R14): the latest whose start instant is not after station time. -/
def Timebase.directDay (t : Timebase) : Int :=
  if t.startHour * 3600 ≤ t.second then t.day else (t.day : Int) - 1

/-- Two decimal digits. -/
def twoDigits (n : Nat) : Text := [BitVec.ofNat 8 (48 + n / 10), BitVec.ofNat 8 (48 + n % 10)]

/-- The minute of day of a service time by the time display convention (R15). -/
def minuteShown (h : Nat) (t : Int) : Nat := ((t / 60 + 60 * h) % 1440).toNat

/-- A service time as hh:mm (R15), with the service-day start hour `h`. -/
def hhmm (h : Nat) (t : Int) : Text :=
  let m := minuteShown h t
  twoDigits (m / 60) ++ [58] ++ twoDigits (m % 60)

/-- A number below 1000 in decimal without leading zeros (R92, R108). -/
def decimal (n : Nat) : Text :=
  let d (k : Nat) : Byte := BitVec.ofNat 8 (48 + k % 10)
  if n < 10 then [d n] else if n < 100 then [d (n / 10), d n] else [d (n / 100), d (n / 10), d n]

/-- Whole seconds left until an instant, rounded down as R76 has it for a mark; elsewhere the model's choice (log 61). -/
def Part.secondsUntil (p : Part) (t : Nat) : Nat := (t - p.elapsed) / 1000

/-! ## Records -/

/-- The effective running fields (R21). -/
def Record.running (r : Record) : Running := r.ctl.getD r.info

/-- The record with a service id. -/
def Part.record? (p : Part) (id : Nat) : Option Record := p.table.records.find? (·.id == id)

/-- The records replaced by their image. -/
def Part.mapRecords (p : Part) (f : List Record → List Record) : Part :=
  { p with table := { p.table with records := f p.table.records } }

/-- One record replaced by its image, in its place. -/
def Part.modRecord (p : Part) (id : Nat) (f : Record → Record) : Part :=
  p.mapRecords (·.map fun r => if r.id == id then f r else r)

/-- The table order (R36): by K, then S, then service id. -/
def recordBefore (a b : Record) : Bool :=
  a.key < b.key || (a.key == b.key && (a.sched < b.sched || (a.sched == b.sched && a.id < b.id)))

/-- Now, for retirement: service seconds taken as 0 when negative, none while TIME_VALID is false (R38). -/
def Part.tableNow (p : Part) : Option Int := p.time.serviceSeconds.map (max 0)

/-- Whether platform `n` is Control-owned (R59). -/
def Part.controlOwned (p : Part) (n : Nat) : Bool := p.own.platforms.getD (n - 1) .information == .control

/-- The mode of zone `z` (R59). -/
def Part.zoneMode (p : Part) (z : Nat) : ZoneMode := p.own.zones.getD (z - 1) .infoOnly

/-- The banner shadow of a link (R72). -/
def Ownership.bannerOf (o : Ownership) : Link → BannerShadow
  | .information => o.bannerInfo
  | .control => o.bannerCtl

/-- A link's banner shadow replaced (R72). -/
def Ownership.setBanner (o : Ownership) (l : Link) (b : BannerShadow) : Ownership :=
  match l with
  | .information => { o with bannerInfo := b }
  | .control => { o with bannerCtl := b }

/-- The brightness shadow of a link (R72). -/
def Ownership.brightOf (o : Ownership) : Link → Nat
  | .information => o.brightInfo
  | .control => o.brightCtl

/-- A link's brightness shadow replaced (R72). -/
def Ownership.setBright (o : Ownership) (l : Link) (b : Nat) : Ownership :=
  match l with
  | .information => { o with brightInfo := b }
  | .control => { o with brightCtl := b }

/-- The global level: the brightness shadow of WALL's owner (R119). -/
def Part.globalLevel (p : Part) : Nat := p.own.brightOf p.own.wall

/-- The Wall Composer is told of a change; it recomposes at the end of the event (R115). -/
def Part.tellWall (p : Part) : Part := { p with ev := { p.ev with wallTold := true } }

end Sys2Proof.Machine
end

