-- ==== Sys2Proof/Machine/Flags.lean ====
section
/-! DEFINITION. Result codes, event kinds, the latching of events, ATTENTION and the SUMMARY byte (R188 to R190, section 11.6). -/

namespace Sys2Proof.Machine

/-- The result of a request (section 11.6). -/
inductive Result where
  | ok
  | okClamped
  | busy
  | unknownKind
  | badLength
  | invalidField
  | notFound
  | tableFull
  | notOwner
  | notPermitted
  | locked
  | full
  | queueFull
  | poolFull
  | notReady
  | testRunning
  | sequence
  | frozen
  | worn
deriving DecidableEq, Repr

/-- The code of a result (section 11.6). -/
def Result.code : Result → Byte
  | .ok => 0
  | .okClamped => 1
  | .busy => 2
  | .unknownKind => 3
  | .badLength => 4
  | .invalidField => 5
  | .notFound => 6
  | .tableFull => 7
  | .notOwner => 8
  | .notPermitted => 9
  | .locked => 10
  | .full => 11
  | .queueFull => 12
  | .poolFull => 13
  | .notReady => 14
  | .testRunning => 15
  | .sequence => 16
  | .frozen => 17
  | .worn => 18

/-- The 29 event kinds (section 11.6). -/
inductive EventKind where
  | resetDone
  | frameErrors
  | feedStale
  | feedLost
  | feedRestored
  | ownershipChanged
  | platformChanged
  | delayNotice
  | serviceRetired
  | rolloverDone
  | noticeExpired
  | cueDone
  | cueFailed
  | cueDropped
  | announcerLost
  | announcerRestored
  | panelFault
  | panelRecovered
  | spareChanged
  | thermalWarning
  | linkTestState
  | timeLockChanged
  | timeStepped
  | oscillatorSwitched
  | clockLineFault
  | clockLineInStep
  | clocksParked
  | inputChanged
  | settingsFault
deriving DecidableEq, Repr

/-- The code of an event kind (section 11.6). -/
def EventKind.code : EventKind → Nat
  | .resetDone => 0
  | .frameErrors => 1
  | .feedStale => 2
  | .feedLost => 3
  | .feedRestored => 4
  | .ownershipChanged => 5
  | .platformChanged => 6
  | .delayNotice => 7
  | .serviceRetired => 8
  | .rolloverDone => 9
  | .noticeExpired => 10
  | .cueDone => 11
  | .cueFailed => 12
  | .cueDropped => 13
  | .announcerLost => 14
  | .announcerRestored => 15
  | .panelFault => 16
  | .panelRecovered => 17
  | .spareChanged => 18
  | .thermalWarning => 19
  | .linkTestState => 20
  | .timeLockChanged => 21
  | .timeStepped => 22
  | .oscillatorSwitched => 23
  | .clockLineFault => 24
  | .clockLineInStep => 25
  | .clocksParked => 26
  | .inputChanged => 27
  | .settingsFault => 28

/-- The bit of an event kind in an event set or mask (section 11.6). -/
def EventKind.bit (k : EventKind) : BitVec 32 := 1#32 <<< k.code

/-- Whether a kind is latched at a port (R189). -/
def Port.isLatched (q : Port) (k : EventKind) : Bool := q.latched.getLsbD k.code

/-- The last subject of a kind at a port (R189). -/
def Port.subject (q : Port) (k : EventKind) : BitVec 16 := q.subjects.getD k.code 0

/-- Latching at one port: the flag is set and the subject written; a kind not masked that was not latched makes a notice
frame due (R189, R190). -/
def Port.latch (q : Port) (k : EventKind) (subject : BitVec 16) : Port :=
  { q with
    latched := q.latched ||| k.bit
    subjects := updateAt q.subjects k.code (fun _ => subject)
    noticeDue := q.noticeDue || (!q.isLatched k && !q.mask.getLsbD k.code) }

/-- Latching on both links (R189). -/
def Part.latch (p : Part) (k : EventKind) (subject : BitVec 16) : Part :=
  { p with info := p.info.latch k subject, ctl := p.ctl.latch k subject }

/-- Latching on both links with a number as subject. -/
def Part.latchNat (p : Part) (k : EventKind) (n : Nat) : Part := p.latch k (BitVec.ofNat 16 n)

/-- ATTENTION, and the attention line with it: a kind not masked is latched (R188, R190). -/
def Port.attention (q : Port) : Bool := (q.latched &&& ~~~q.mask) != 0#32

/-- Whether a panel is FAULTED. -/
def Panel.isFaulted (n : Panel) : Bool :=
  match n.state with
  | .faulted _ => true
  | _ => false

/-- The panel at a chain address. -/
def Chain.panel (c : Chain) (addr : Nat) : Panel := c.panels.getD (addr - 1) resetPanel

/-- The chain addresses polled: each position in use and then the spare if fitted (R124). -/
def Chain.polled (c : Chain) : List Nat := numbersFrom 1 c.positions ++ (if c.fitted then [13] else [])

/-- Whether a link test is running: from the START until its end (R139; log 21). -/
def LinkTest.isRunning (t : LinkTest) : Bool := t.phase != .idle

/-- The position the spare covers (R131). -/
def Duty.covers : Duty → Option Nat
  | .engaged n => some n
  | .standby => none
  | .notFitted => none

/-- The WALL bit: any polled panel FAULTED, the spare ENGAGED, or a link test running (R188). -/
def Chain.wallBit (c : Chain) : Bool :=
  c.polled.any (fun a => (c.panel a).isFaulted) || c.duty.covers.isSome || c.test.isRunning

/-- The CUE bit: the announcer LOST or any zone OFFLINE (R188). -/
def CueSched.cueBit (q : CueSched) : Bool := q.announcer == .lost || q.zones.contains .offline

/-- Whether the reference is LOCKED. -/
def RefState.isLocked : RefState → Bool
  | .locked _ _ => true
  | _ => false

/-- The TIME bit: TIME_VALID false, the reference not LOCKED, or the derived source in use (R188). -/
def Timebase.timeBit (t : Timebase) : Bool := !t.valid || !t.ref.isLocked || t.source == .derived

/-- The input `i`, counted from 0. -/
def Part.input (p : Part) (i : Nat) : WallInput := p.inputs.getD i resetInput

/-- The INPUT bit: an input in ACT mode is ACTIVE (R188). -/
def Part.inputBit (p : Part) : Bool :=
  (List.range 4).any fun i => (p.inputConfig i).mode == .act && (p.input i).state == .active

/-- One bit of a byte. -/
def bitOf (b : Bool) (n : Nat) : Byte := if b then 1#8 <<< n else 0

/-- The SUMMARY byte of a link, from the part and the link as they stand (R188). -/
def Part.summary (p : Part) (l : Link) : Byte :=
  bitOf (p.port l).attention 7 ||| bitOf (p.port l).resetSeen 6 ||| bitOf (p.port l).linkError 5
    ||| bitOf (p.feed.state != .live) 4 ||| bitOf p.chain.wallBit 3 ||| bitOf p.cues.cueBit 2
    ||| bitOf p.time.timeBit 1 ||| bitOf p.inputBit 0

end Sys2Proof.Machine
end

