-- ==== Sys2Proof/WellFormed.lean ====
section
/-! DEFINITION. What a well-formed command is: operands a frame or an event of the part can carry. -/

namespace Sys2Proof

/-- The KIND codes of the request table of section 11.6. -/
def requestKinds : List Nat :=
  [0x01, 0x02, 0x03, 0x04, 0x05, 0x06, 0x07, 0x08, 0x09, 0x0A]
    ++ [0x10, 0x11, 0x12, 0x13, 0x14, 0x15, 0x18, 0x19, 0x1A, 0x1B]
    ++ [0x20, 0x21, 0x22, 0x23, 0x24, 0x28, 0x29, 0x2A]
    ++ [0x30, 0x31, 0x32, 0x33, 0x38, 0x40, 0x41, 0x42, 0x43, 0x44]

/-- Whether a KIND names a request. -/
def knownKind (k : Byte) : Bool := requestKinds.contains k.toNat

/-- LEN of a request counts KIND, TAG and BODY and lies in 2..1022 (R184). -/
def bodyFits (b : List Byte) : Bool := b.length ≤ 1020

/-- A body whose action byte is `a`, of the two bytes of PANEL_SPARE or the three of WALL_TEST. -/
def actionIs (n a : Nat) (b : List Byte) : Bool :=
  b.length == n && (match b with | x :: _ => x.toNat == a | [] => false)

/-- Whether a PANEL_SPARE body belongs to the row PANEL_SPARE_PIN: every body but those of the two other rows (log 5). -/
def isSparePin (b : List Byte) : Bool := !actionIs 2 1 b && !actionIs 2 2 b

/-- Whether a WALL_TEST body belongs to the row WALL_TEST_START: every body but those of the two other rows (log 5). -/
def isTestStart (b : List Byte) : Bool := !actionIs 3 1 b && !actionIs 3 2 b

/-- A 16-bit name that is not 0, as service ids and cue ids are. -/
def isName16 (n : Nat) : Bool := 1 ≤ n && n ≤ 65535

/-- The check of one command's operands. -/
def Instr.wellFormed : Instr → Bool
  | .powerOnReset => true
  | .softReset => true
  | .chainResetComplete => true
  | .powerLoss => true
  | .requestFrameReceived _ f => bodyFits f.body
  | .frameError _ (.badLength n) => !(2 ≤ n && n ≤ 1022) && n ≤ 65535
  | .frameError _ (.gap _) => true
  | .frameError _ .missingStop => true
  | .frameError _ .badCheck => true
  | .unknownKindRequest _ f => !knownKind f.kind && bodyFits f.body
  | .noticeFrameSend _ => true
  | .identify rq => bodyFits rq.body
  | .eventsReadClear rq => bodyFits rq.body
  | .eventsMaskSet rq => bodyFits rq.body
  | .resetPart rq => bodyFits rq.body
  | .heartbeat rq => bodyFits rq.body
  | .heartbeatTimerExpiry => true
  | .staleTimerExpiry => true
  | .assign rq => bodyFits rq.body
  | .ownershipRead rq => bodyFits rq.body
  | .timeRead rq => bodyFits rq.body
  | .timeSet rq => bodyFits rq.body
  | .timebaseSelect rq => bodyFits rq.body
  | .timebaseSelectEdge => true
  | .oscillatorGap => true
  | .referenceTelegram _ => true
  | .referenceTimeout => true
  | .holdoverExpiry => true
  | .stationSecond => true
  | .servicePut rq => bodyFits rq.body
  | .serviceUpdate rq => bodyFits rq.body
  | .serviceRemove rq => bodyFits rq.body
  | .serviceRead rq => bodyFits rq.body
  | .tableRead rq => bodyFits rq.body
  | .nameLoad rq => bodyFits rq.body
  | .changeMarkExpiry n => isName16 n
  | .noticePost rq => bodyFits rq.body
  | .noticeWithdraw rq => bodyFits rq.body
  | .noticeList rq => bodyFits rq.body
  | .noticeExpiry n => 1 ≤ n && n ≤ 255
  | .rotationDwellEnd => true
  | .bannerSet rq => bodyFits rq.body
  | .bannerShadowExpiry _ => true
  | .wallRead rq => bodyFits rq.body
  | .brightnessSet rq => bodyFits rq.body
  | .wallStatus rq => bodyFits rq.body
  | .panelSparePin rq => bodyFits rq.body && isSparePin rq.body
  | .panelSpareRelease rq => actionIs 2 1 rq.body
  | .panelSpareAutomatic rq => actionIs 2 2 rq.body
  | .pollCycleStart => true
  | .panelReply _ => true
  | .panelReplyMiss => true
  | .wallTestStart rq => bodyFits rq.body && isTestStart rq.body
  | .linkTestBegin => true
  | .wallTestStop rq => actionIs 3 1 rq.body
  | .wallTestInsertError rq => actionIs 3 2 rq.body
  | .testPatternBitTransmitted => true
  | .detectorSeeded _ => true
  | .detectorWindow bits => 1 ≤ bits.length && bits.length ≤ 256
  | .linkTestDurationEnd => true
  | .cuePost rq => bodyFits rq.body
  | .cueCancel rq => bodyFits rq.body
  | .cueStatus rq => bodyFits rq.body
  | .cueAgeOut n => isName16 n
  | .cuePortAccept n => n ≤ 65535
  | .cuePortReject n _ => n ≤ 65535
  | .cuePortEnded n _ => n ≤ 65535
  | .cuePortProbeReply => true
  | .cuePortZoneState z _ => z ≤ 255
  | .cuePortFrameDiscarded _ => true
  | .probeTimer => true
  | .acceptWaitExpiry n => isName16 n
  | .endedWaitExpiry n => isName16 n
  | .stopWaitExpiry n => isName16 n
  | .probeWaitExpiry => true
  | .reservedIdRelease n => isName16 n
  | .inputCueRepeat _ => true
  | .clockLineStatus rq => bodyFits rq.body
  | .clockLineSet rq => bodyFits rq.body
  | .clockLineRetry rq => bodyFits rq.body
  | .parkClocks rq => bodyFits rq.body
  | .impulseOpenCheck _ _ => true
  | .impulseOverloadTrip _ => true
  | .impulseDriveEnd _ => true
  | .impulseGapEnd _ => true
  | .clockRetryTimerExpiry _ => true
  | .inputLevelChange _ _ => true
  | .qualificationTimerExpiry _ => true
  | .inputStatus rq => bodyFits rq.body
  | .settingsRead rq => bodyFits rq.body
  | .settingsWrite rq => bodyFits rq.body
  | .settingsSave rq => bodyFits rq.body
  | .storeWriteComplete => true
  | .settingsCheck rq => bodyFits rq.body
  | .settingsFreeze rq => bodyFits rq.body

end Sys2Proof
end

