-- ==== Sys2Proof/Machine/Operands.lean ====
section
/-! DEFINITION. Reading the BODY of each request, and the codings of reply bodies (section 11.6, R187, R197). A reader answers
none where the length does not agree with the kind or with the counts and lengths the body carries: BAD_LENGTH. -/

namespace Sys2Proof.Machine

/-! ## Readers -/

/-- A number of `n` big-endian bytes at the head of a list, with the rest. -/
def readBe (n : Nat) (l : List Byte) : Option (Nat × List Byte) :=
  if n ≤ l.length then some (ofBe (l.take n), l.drop n) else none

/-- A text: a length byte followed by that many characters. -/
def readText (l : List Byte) : Option (Text × List Byte) :=
  match l with
  | [] => none
  | n :: rest => if n.toNat ≤ rest.length then some (rest.take n.toNat, rest.drop n.toNat) else none

/-- `n` items, one after another, and nothing after them. -/
def readAll {α : Type} (item : List Byte → Option (α × List Byte)) : Nat → List Byte → Option (List α)
  | 0, [] => some []
  | 0, _ :: _ => none
  | n + 1, l =>
    match item l with
    | none => none
    | some (a, rest) => (readAll item n rest).map (a :: ·)

/-- A body that must be empty. -/
def readEmpty (b : List Byte) : Option Unit := if b.isEmpty then some () else none

/-- A body that is a fixed number of bytes, as numbers of the given sizes. -/
def readFields : List Nat → List Byte → Option (List Nat)
  | [], [] => some []
  | [], _ :: _ => none
  | n :: sizes, l =>
    match readBe n l with
    | none => none
    | some (v, rest) => (readFields sizes rest).map (v :: ·)

/-- A body that is one number of `n` bytes. -/
def readOne (n : Nat) (b : List Byte) : Option Nat :=
  match readFields [n] b with
  | some [v] => some v
  | _ => none

/-- A body that is two numbers of `m` and `n` bytes. -/
def readTwo (m n : Nat) (b : List Byte) : Option (Nat × Nat) :=
  match readFields [m, n] b with
  | some [v, w] => some (v, w)
  | _ => none

/-- A 4-byte value whose all-ones pattern means absent. -/
def absentIfOnes (v : Nat) : Option Nat := if v == 0xFFFFFFFF then none else some v

/-- The status a code names (section 11.6). -/
def statusOfCode : Nat → Option Status
  | 0 => some .normal
  | 1 => some .boarding
  | 2 => some .closed
  | 3 => some .departed
  | 4 => some .cancelled
  | _ => none

/-- A record of a SERVICE_PUT body (section 11.6), the status still a code. -/
structure PutRecord where
  id : Nat
  sched : Nat
  expected : Option Nat
  platform : Option Nat
  unknown : Bool
  autoCue : Bool
  status : Nat
  dest : Nat
  label : Text
  calls : List Nat
deriving DecidableEq, Repr

/-- One record of a SERVICE_PUT body. -/
def readPutRecord (l : List Byte) : Option (PutRecord × List Byte) := do
  let (id, l) ← readBe 2 l
  let (s, l) ← readBe 4 l
  let (e, l) ← readBe 4 l
  let (pl, l) ← readBe 1 l
  let (fl, l) ← readBe 1 l
  let (st, l) ← readBe 1 l
  let (d, l) ← readBe 1 l
  let (label, l) ← readText l
  let (n, l) ← readBe 1 l
  if n ≤ l.length then
    some ({ id := id, sched := s, expected := absentIfOnes e, platform := if pl == 0 then none else some pl,
            unknown := fl % 2 == 1, autoCue := fl / 2 % 2 == 1, status := st, dest := d, label := label,
            calls := (l.take n).map (·.toNat) }, l.drop n)
  else none

/-- A SERVICE_PUT body: a count and that many records. -/
def readServicePut (b : List Byte) : Option (List PutRecord) := do
  let (n, l) ← readBe 1 b
  readAll readPutRecord n l

/-- What a SERVICE_UPDATE asks of an item (R30): leave, set, clear, or both set and clear. -/
inductive ItemAction where
  | leave
  | set
  | clear
  | both
deriving DecidableEq, Repr

/-- The action a two-bit code names. -/
def actionOfCode (n : Nat) : ItemAction :=
  if n % 4 == 0 then .leave else if n % 4 == 1 then .set else if n % 4 == 2 then .clear else .both

/-- A SERVICE_UPDATE body (R30, section 11.6). -/
structure UpdateBody where
  id : Nat
  platformAction : ItemAction
  expectedAction : ItemAction
  unknownAction : ItemAction
  setStatus : Bool
  platform : Nat
  expected : Nat
  status : Nat
deriving DecidableEq, Repr

/-- A SERVICE_UPDATE body of nine bytes. -/
def readServiceUpdate (b : List Byte) : Option UpdateBody :=
  match readFields [2, 1, 1, 4, 1] b with
  | some [id, mask, pl, e, st] =>
    some { id := id, platformAction := actionOfCode mask, expectedAction := actionOfCode (mask / 4),
           unknownAction := actionOfCode (mask / 16), setStatus := mask / 64 % 2 == 1, platform := pl, expected := e,
           status := st }
  | _ => none

/-- A SERVICE_REMOVE body: a count and that many ids. -/
def readServiceRemove (b : List Byte) : Option (List Nat) := do
  let (n, l) ← readBe 1 b
  readAll (readBe 2) n l

/-- A NAME_LOAD body: first index, count, names. -/
def readNameLoad (b : List Byte) : Option (Nat × List Text) := do
  let (i, l) ← readBe 1 b
  let (n, l) ← readBe 1 l
  let names ← readAll readText n l
  some (i, names)

/-- A NOTICE_POST body: priority, expiry in seconds or absent, text. -/
def readNoticePost (b : List Byte) : Option (Nat × Option Nat × Text) := do
  let (pr, l) ← readBe 1 b
  let (e, l) ← readBe 4 l
  let (t, l) ← readText l
  if l.isEmpty then some (pr, absentIfOnes e, t) else none

/-- A BANNER_SET body: enable flag, expiry in seconds or absent, text. -/
def readBannerSet (b : List Byte) : Option (Bool × Option Nat × Text) := do
  let (fl, l) ← readBe 1 b
  let (e, l) ← readBe 4 l
  let (t, l) ← readText l
  if l.isEmpty then some (fl % 2 == 1, absentIfOnes e, t) else none

/-- A CUE_POST body: class, zone set, service id when present, tokens. -/
def readCuePost (b : List Byte) : Option (Nat × List Nat × Option Nat × List Nat) := do
  let (c, l) ← readBe 1 b
  let (z, l) ← readBe 1 l
  let (fl, l) ← readBe 1 l
  let (sid, l) ← readBe 2 l
  let (n, l) ← readBe 1 l
  let tokens ← readAll (readBe 2) n l
  some (c, zonesOfByte z, if fl % 2 == 1 then some sid else none, tokens)

/-- A SETTINGS_WRITE body: row, offset and 1..64 bytes. -/
def readSettingsWrite (b : List Byte) : Option (Nat × Nat × List Byte) :=
  match b with
  | r :: o :: bytes => if 1 ≤ bytes.length && bytes.length ≤ 64 then some (r.toNat, o.toNat, bytes) else none
  | _ => none

/-! ## Writers (R197) -/

/-- An item that may be absent: a presence byte and the item's bytes, zeros when it is not present. -/
def optBytes {α : Type} (size : Nat) (f : α → List Byte) : Option α → List Byte
  | some a => 1 :: f a
  | none => 0 :: zeros size

/-- An optional number of `n` bytes. -/
def optBe (n : Nat) : Option Nat → List Byte := optBytes n (be n)

/-- An optional signed number of `n` bytes. -/
def optInt (n : Nat) : Option Int → List Byte := optBytes n (beInt n)

/-- A text: length byte and characters. -/
def textBytes (t : Text) : List Byte := be 1 t.length ++ t

/-- Groups whose number can vary, with the count byte that stands before them. -/
def counted {α : Type} (f : α → List Byte) (l : List α) : List Byte := be 1 l.length ++ l.flatMap f

/-- An event set or mask: four bytes. -/
def setBytes (s : BitVec 32) : List Byte := be 4 s.toNat

/-- The code of a status (section 11.6). -/
def statusCode : Status → Nat
  | .normal => 0
  | .boarding => 1
  | .closed => 2
  | .departed => 3
  | .cancelled => 4

/-- A display state, in the order of R46, EXPECTED followed by its minutes (R197; log 24). -/
def displayBytes : Display → List Byte
  | .departed => [0]
  | .cancelled => [1]
  | .closed => [2]
  | .boarding => [3]
  | .delayed => [4]
  | .expected m => 5 :: be 2 m
  | .onTime => [6]

/-- A copy of running fields: platform, E, delay-unknown flag, status (R33). -/
def runningBytes (c : Running) : List Byte :=
  optBe 1 c.platform ++ optInt 4 c.expected ++ [flagByte c.unknown] ++ be 1 (statusCode c.status)

/-- The code of an origin of last effective change (R22). -/
def changeOriginCode : ChangeOrigin → Byte
  | .noChange => 0
  | .put => 1
  | .information => 2
  | .control => 3
  | .returned => 4

/-- The code of a feed state (R194). -/
def feedCode : FeedState → Byte
  | .live => 0
  | .stale => 1
  | .lost => 2

/-- The code of a zone mode (R59). -/
def zoneModeCode : ZoneMode → Nat
  | .infoOnly => 0
  | .controlOnly => 1
  | .shared => 2

/-- The code of a reference state (R7). -/
def refCode : RefState → Nat
  | .absent => 0
  | .qualifying _ => 1
  | .locked _ _ => 2
  | .holdover _ => 3

/-- The code of the source in use, in the order of R13. -/
def sourceCode : Source → Byte
  | .oscillator => 0
  | .derived => 1

/-- The code of a notice kind, in the order of R88. -/
def noticeKindCode : NoticeKind → Byte
  | .posted => 0
  | .delay => 1
  | .unknown => 2
  | .change => 3
  | .cancel => 4
  | .stale => 5

/-- The code of a notice origin, in the order of R88. -/
def noticeOriginCode : NoticeOrigin → Byte
  | .information => 0
  | .control => 1
  | .part => 2

/-- The role byte and k of a WALL_READ line (section 11.6). -/
def roleBytes : Role → List Byte
  | .banner => [0, 0]
  | .clock => [1, 0]
  | .departure k => 2 :: be 1 k
  | .detail k => 3 :: be 1 k
  | .blank => [4, 0]

/-- A panel state, FAULTED followed by its reason, in the order of R123 (log 24). -/
def panelStateBytes : PanelState → List Byte
  | .starting => [0]
  | .active => [1]
  | .warm => [2]
  | .faulted .silent => [3, 0]
  | .faulted .driver => [3, 1]
  | .faulted .thermal => [3, 2]

/-- A spare mode with its pinned position, in the order of R131. -/
def spareModeBytes : SpareMode → List Byte
  | .automatic => [0]
  | .pinned n => 1 :: be 1 n
  | .released => [2]

/-- The code of a test mode (section 11.6). -/
def testModeCode : TestMode → Byte
  | .chainEcho => 0
  | .partLoop => 1

/-- The code of a cue class (R144). -/
def CueClass.code : CueClass → Nat
  | .emergency => 0
  | .safety => 1
  | .change => 2
  | .service => 3
  | .general => 4

/-- The class a code names (R144). -/
def classOfCode : Nat → Option CueClass
  | 0 => some .emergency
  | 1 => some .safety
  | 2 => some .change
  | 3 => some .service
  | 4 => some .general
  | _ => none

/-- The code of a cue origin, in the order of R144. -/
def cueOriginCode : CueOrigin → Byte
  | .auto => 0
  | .information => 1
  | .control => 2
  | .input => 3

/-- The code of a template kind, in the order of R144. -/
def templateCode : Template → Byte
  | .change => 0
  | .delay => 1
  | .cancel => 2
  | .boarding => 3

/-- The code of an outcome, in the order of R144. -/
def outcomeCode : ZoneOutcome → Byte
  | .pending => 0
  | .done => 1
  | .failed => 2
  | .dropped => 3

/-- The code of a flight state, in the order of R144. -/
def flightCode : Flight → Byte
  | .queued => 0
  | .sent _ => 1
  | .accepted _ => 2
  | .stopping _ _ => 3

/-- A zone state with its cue id, in the order of R147. -/
def zoneStateBytes : ZoneState → List Byte
  | .idle => [0]
  | .playing c => 1 :: be 2 c
  | .stopping c => 2 :: be 2 c
  | .offline => [3]

/-- A clock line state, FAULTED followed by its reason, in the order of R171 (log 24). -/
def clockStateBytes : ClockState → List Byte
  | .disabled => [0]
  | .stopped => [1]
  | .running => [2]
  | .catchingUp => [3]
  | .holding => [4]
  | .faultedOpen => [5, 0]
  | .faultedOverload => [5, 1]
  | .parked => [6]

/-- The code of a polarity (section 11.6). -/
def polarityCode : Polarity → Byte
  | .plus => 0
  | .minus => 1

/-- The code of an input state, in the order of R198. -/
def inputStateCode : InputState → Byte
  | .idle => 0
  | .qualifying => 1
  | .active => 2
  | .releasing => 3

/-- The code of an input mode (section 12.2). -/
def inputModeCode : InputMode → Byte
  | .off => 0
  | .report => 1
  | .act => 2

/-! ## Frames on the line -/

/-- A frame's bytes: SYNC, LEN, the content and CHECK over LEN and content (R184). -/
def frameBytes (content : List Byte) : List Byte :=
  let covered := be 2 content.length ++ content
  0xC5#8 :: covered ++ be 2 (crc16 covered).toNat

/-- The bytes of a frame from the part to a partner (section 11.6). -/
def OutFrame.bytes : OutFrame → List Byte
  | .reply kind tag summary result body => frameBytes ([kind, tag, summary, result] ++ body)
  | .notice summary events => frameBytes ([0xFE#8, 0, summary] ++ setBytes events)

/-- The rate of the links in bit/s (R184). -/
def rateOfCode : Nat → Nat
  | 0 => 19200
  | 1 => 38400
  | 2 => 57600
  | 4 => 230400
  | _ => 115200

/-- The milliseconds a frame takes on its link: ten bits a byte at the link rate, rounded up (R184; log 16). -/
def OutFrame.duration (f : OutFrame) (rate : Nat) : Nat :=
  (f.bytes.length * 10 * 1000 + rateOfCode rate - 1) / rateOfCode rate

/-- The check a panel computes over its four lines' characters and attributes (section 11.6). -/
def lineCheck (ls : List PollLine) : BitVec 16 :=
  crc16 (ls.flatMap fun l => l.text ++ be 6 l.blink.toNat ++ be 6 l.highlight.toNat)

/-- The bytes of a chain frame (section 11.6). -/
def PollFrame.bytes (f : PollFrame) : List Byte :=
  frameBytes (be 1 f.address ++ be 4 f.generation ++ be 1 f.level
    ++ [bitOf f.clear 0 ||| bitOf f.testStart 1 ||| bitOf f.testEnd 2] ++ be 1 f.lines.length
    ++ f.lines.flatMap fun l => be 1 l.number ++ l.text ++ be 6 l.blink.toNat ++ be 6 l.highlight.toNat)

/-- The bytes of a frame for the announcer (section 11.6). -/
def CueFrame.bytes : CueFrame → List Byte
  | .play tag cue zones tokens =>
    frameBytes ([0x01#8] ++ be 1 tag ++ be 2 cue ++ [byteOfZones zones] ++ be 1 tokens.length ++ tokens.flatMap (be 2))
  | .stop tag cue => frameBytes ([0x02#8] ++ be 1 tag ++ be 2 cue)
  | .probe tag => frameBytes ([0x03#8] ++ be 1 tag)

end Sys2Proof.Machine
end

