-- ==== Sys2Proof/Machine/Ports.lean ====
section
/-! DEFINITION. The Link Ports: the transmit queue as time passes, composing replies, the request buffer, and how a request is
executed (R185 to R187, R190, R196). -/

namespace Sys2Proof.Machine

/-- The kinds that belong to the Information link (section 11.6). -/
def informationKinds : List Nat := [0x04, 0x05, 0x10, 0x12, 0x15, 0x40, 0x41, 0x42, 0x43, 0x44]

/-- The frame at the head of the transmit queue begins, if the line is free and no notice frame waits (R186). -/
def Port.begin (q : Port) (now : Nat) : Port :=
  match q.lineEnd, q.tx with
  | none, f :: _ => if q.noticeDue then q else { q with lineEnd := some (now + f.duration q.rate) }
  | _, _ => q

/-- The frames not wholly sent at the instant `now`, and the end of the one being sent: each begins as the one before it ends, unless
the line is `held` for a notice frame that waits (R186; log 16). -/
def lineAt (rate now : Nat) (held : Bool) : List OutFrame → Option Nat → List OutFrame × Option Nat
  | tx, none => (tx, none)
  | [], some t => ([], if t ≤ now then none else some t)
  | f :: tx, some t =>
    if t ≤ now then lineAt rate now held tx (if held then none else tx.head?.map fun g => t + g.duration rate)
    else (f :: tx, some t)

/-- The port with its line carried to the instant `now`, no notice frame beginning (R186). -/
def Port.flow (q : Port) (now : Nat) : Port :=
  { q with tx := (lineAt q.rate now q.noticeDue q.tx q.lineEnd).1, lineEnd := (lineAt q.rate now q.noticeDue q.tx q.lineEnd).2 }

/-- The notice frame that waits begins at the instant `t` on the free line, ahead of replies not begun, with the EVENT SET of that
moment and a SUMMARY (R186, R190). -/
def Port.beginNotice (q : Port) (summary : Byte) (t : Nat) : Port :=
  { q with
    tx := .notice summary q.latched :: q.tx
    noticeDue := false
    lineEnd := some (t + (OutFrame.notice summary q.latched).duration q.rate) }

/-- The port with its line carried from the instant `start` to `now`. A notice frame that waits begins as soon as the line is free, when
time goes on beyond that instant; at that very instant it stays for NOTICE_FRAME_SEND: the model's choice (log 83). -/
def Port.carry (q : Port) (summary : Byte) (start now : Nat) : Port :=
  if q.noticeDue && q.lineEnd.getD start < now then
    ((q.flow (q.lineEnd.getD start)).beginNotice summary (q.lineEnd.getD start)).flow now
  else q.flow now

/-- Elapsed time brought up to the instant `t`, and with it source time and the lines of the two links (R1, R186; log 2, log 8,
log 83). Source time beyond the end of the station second under way is kept: the station seconds it makes are still to come. -/
def Part.advanceTo (p : Part) (t : Nat) : Part :=
  { p with
    elapsed := max p.elapsed t
    time := { p.time with sourceMs := p.time.sourceMs + (max p.elapsed t - p.elapsed) }
    info := p.info.carry (p.summary .information) p.elapsed (max p.elapsed t)
    ctl := p.ctl.carry (p.summary .control) p.elapsed (max p.elapsed t) }

/-- A frame composed for a link joins its transmit queue and begins if the line is free (R186). -/
def Part.send (p : Part) (l : Link) (f : OutFrame) : Part :=
  p.modPort l fun q => { q with tx := q.tx ++ [f] }.begin p.elapsed

/-- A reply is composed with the SUMMARY of this moment (R187, R188). -/
def Part.compose (p : Part) (l : Link) (kind tag : Byte) (r : Result) (body : List Byte) : Part :=
  p.send l (.reply kind tag (p.summary l) r.code body)

/-- The reply to the request in execution: it is composed, and the reply to the first request after a reset clears
RESET_SEEN once it is composed (R188; log 25). -/
def Part.answer (p : Part) (l : Link) (kind tag : Byte) (r : Result) (body : List Byte) : Part :=
  (p.compose l kind tag r body).modPort l fun q => { q with resetSeen := false }

/-- The KIND of a reply (R187, section 11.6). -/
def replyKind (kind : Byte) : Byte := if knownKind kind then kind + 0x80 else 0xFF

/-- A well-formed request arrives: it takes a place, or while four requests hold places it is answered BUSY at once (R186). -/
def Part.receive (p : Part) (l : Link) (f : RequestFrame) : Part :=
  if (p.port l).buffer.length < 4 then
    p.modPort l fun q => { q with buffer := q.buffer ++ [f], inFrame := false }
  else (p.modPort l fun q => { q with inFrame := false }).compose l (replyKind f.kind) f.tag .busy []

/-- A frame error: the counter rises, FRAME_ERRORS latches on that link alone with the counter's new value, LINK_ERROR is
set, and the port hunts; after a gap the byte that ended it begins a new frame if it is SYNC (R185). -/
def Part.frameErrorOn (p : Part) (l : Link) (startsFrame : Bool) : Part :=
  p.modPort l fun q =>
    let n := min 65535 (q.frameErrors + 1)
    { q with frameErrors := n, linkError := true, inFrame := startsFrame }.latch .frameErrors (BitVec.ofNat 16 n)

/-- What the execution of a request comes to: a reply with the part as the request leaves it, or a wait in which the request
keeps its place (R186). -/
inductive Answer where
  | reply (p : Part) (r : Result) (body : List Byte)
  | wait (p : Part) (w : Waiting)

/-- A refusal: nothing changes and the body is empty (R187). -/
def refuse (p : Part) (r : Result) : Answer := .reply p r []

/-- A read: nothing changes and the answer is OK. -/
def readOk (p : Part) (body : List Byte) : Answer := .reply p .ok body

/-- Whether the port can execute this request now: it executes no other, the Information Port is not stopping for a reset
(R196), and the request is the first in the buffer or the buffer is empty (R186; log 4). -/
def Part.canExecute (p : Part) (l : Link) (f : RequestFrame) : Bool :=
  (p.port l).waiting.isNone && !(p.resetDue && l == .information) &&
    (match (p.port l).buffer with
     | [] => true
     | g :: _ => g == f)

/-- The port after the request now executed has left its place. A request executed with no place held has arrived in this same
event, and the port hunts from its end on (R185; log 4). -/
def Port.freePlace (q : Port) : Port := { q with buffer := q.buffer.drop 1, inFrame := q.inFrame && !q.buffer.isEmpty }

/-- The request's place is freed; it is freed when its reply has been composed, which is the same event (R186). -/
def Part.freePlace (p : Part) (l : Link) : Part := p.modPort l Port.freePlace

/-- The port while the request in execution waits: the request keeps its place (R186), or takes one if it has arrived in this
same event (R185; log 4). -/
def Port.await (q : Port) (frame : RequestFrame) (w : Waiting) : Port :=
  { q with waiting := some w, buffer := if q.buffer.isEmpty then [frame] else q.buffer,
           inFrame := q.inFrame && !q.buffer.isEmpty }

/-- The execution of a request of kind `kind` (R186, R187): its length, then its link, then its own rule `handler`, which gets
the operands `read` finds in the body. A request the port cannot execute now has only arrived (log 4). -/
def runRequest {α : Type} (kind : Nat) (read : List Byte → Option α) (handler : Link → α → Part → Answer) (rq : Req)
    (p : Part) : Part :=
  let k : Byte := BitVec.ofNat 8 kind
  let frame : RequestFrame := { kind := k, tag := rq.tag, body := rq.body }
  if p.canExecute rq.link frame then
    match read rq.body with
    | none => (p.freePlace rq.link).answer rq.link (k + 0x80) rq.tag .badLength []
    | some a =>
      if rq.link == .control && informationKinds.contains kind then
        (p.freePlace rq.link).answer rq.link (k + 0x80) rq.tag .notPermitted []
      else
        match handler rq.link a p with
        | .reply p r body => (p.freePlace rq.link).answer rq.link (k + 0x80) rq.tag r body
        | .wait p w => p.modPort rq.link (·.await frame w)
  else p.receive rq.link frame

/-- The reply to a request that has waited: its place is freed and the port executes again (R186). -/
def Part.answerWaiting (p : Part) (l : Link) (kind tag : Byte) (r : Result) (body : List Byte) : Part :=
  ((p.modPort l fun q => { q with waiting := none }).freePlace l).answer l kind tag r body

end Sys2Proof.Machine
end

