-- ==== Sys2Proof/Machine/Notices.lean ====
section
/-! DEFINITION. The Notice List and its rotation (06_notices_and_the_banner_line), as operations; the meanings of its commands
are in Machine/Banner.lean. -/

namespace Sys2Proof.Machine

/-- A text written with character literals. -/
def chars (l : List Char) : Text := l.map fun c => BitVec.ofNat 8 c.toNat

/-- The station name of an index (R35). -/
def Part.stationName (p : Part) (i : Nat) : Text := p.table.names.getD i []

/-- " now platform " (R92). -/
def txtNowPlatform : Text :=
  chars [' ', 'n', 'o', 'w', ' ', 'p', 'l', 'a', 't', 'f', 'o', 'r', 'm', ' ']

/-- " platform to be confirmed" (R92). -/
def txtToBeConfirmed : Text :=
  chars [' ', 'p', 'l', 'a', 't', 'f', 'o', 'r', 'm', ' ', 't', 'o', ' ', 'b', 'e', ' ', 'c', 'o', 'n', 'f', 'i', 'r', 'm',
    'e', 'd']

/-- " cancelled" (R92). -/
def txtCancelledNotice : Text := chars [' ', 'c', 'a', 'n', 'c', 'e', 'l', 'l', 'e', 'd']

/-- " delayed" (R92). -/
def txtDelayedNotice : Text := chars [' ', 'd', 'e', 'l', 'a', 'y', 'e', 'd']

/-- " about " (R92). -/
def txtAbout : Text := chars [' ', 'a', 'b', 'o', 'u', 't', ' ']

/-- " min" (R92). -/
def txtMin : Text := chars [' ', 'm', 'i', 'n']

/-- The text of a record's automatic notice, composed from the record (R92). -/
def Part.recordNoticeText (p : Part) (k : NoticeKind) (r : Record) : Text :=
  let head := hhmm p.time.startHour r.sched ++ [32] ++ p.stationName r.dest
  match k with
  | .change =>
    match r.running.platform with
    | some q => head ++ txtNowPlatform ++ decimal q
    | none => head ++ txtToBeConfirmed
  | .cancel => head ++ txtCancelledNotice
  | .delay => head ++ txtDelayedNotice ++ txtAbout ++ decimal (r.minutes.getD 0) ++ txtMin
  | .unknown => head ++ txtDelayedNotice
  | .posted => []
  | .stale => []

/-- The text of a notice as it stands now (R88, R92). -/
def Part.noticeText (p : Part) (n : Notice) : Text :=
  match n.kind with
  | .posted => n.text
  | .stale => p.textRow 9
  | .delay | .unknown | .change | .cancel =>
    match n.service.bind p.record? with
    | some r => p.recordNoticeText n.kind r
    | none => []

/-- The number of pages of a text (R100). -/
def pageCount (t : Text) : Nat := max 1 ((t.length + 47) / 48)

/-- The page of a text shown for page number `k`: the last page when there are fewer (R100). -/
def pageOf (t : Text) (k : Nat) : Text :=
  let k := min k (pageCount t)
  (t.drop (48 * (k - 1))).take 48

/-- Place keys in order: priority, then creation number (R88). -/
def keyBefore (a b : Notice) : Bool := a.priority < b.priority || (a.priority == b.priority && a.creation < b.creation)

/-- The notices eligible for rotation: all of priority 0 when there are any, else all (R98). -/
def NoticeList.eligible (l : NoticeList) : List Notice :=
  if l.notices.any (·.priority == 0) then l.notices.filter (·.priority == 0) else l.notices

/-- The notice with an id. -/
def NoticeList.byId (l : NoticeList) (id : Nat) : Option Notice := l.notices.find? (·.id == id)

/-- The rotation shows a page of a notice for a fresh dwell (R98). -/
def Part.show (p : Part) (id page : Nat) : Part :=
  { p with notices := { p.notices with
      shown := some { id := id, page := page, dwellEnd := p.elapsed + p.noticeDwell } } }

/-- The rotation moves on from the place of notice `old`: to the first eligible notice after it, else to the first
eligible one, else it stops (R98). -/
def Part.rotateFrom (p : Part) (old : Notice) : Part :=
  match (p.notices.eligible.find? fun n => keyBefore old n) <|> p.notices.eligible.head? with
  | some n => p.show n.id 1
  | none => { p with notices := { p.notices with shown := none } }

/-- A notice leaves the list; if it is being shown its dwell ends and the rotation moves on from its place (R99). -/
def Part.dropNotice (p : Part) (n : Notice) : Part :=
  let p := { p with notices := { p.notices with notices := p.notices.notices.filter fun m => m.id != n.id } }
  match p.notices.shown with
  | some s => if s.id == n.id then (p.rotateFrom n).tellWall else p
  | none => p

/-- The first number from `n` on, after `top` going on with 1, that is free; `fuel` numbers are tried. -/
def firstFree (used : Nat → Bool) (top : Nat) : Nat → Nat → Nat
  | 0, n => n
  | fuel + 1, n => if used n then firstFree used top fuel (if n < top then n + 1 else 1) else n

/-- The notices renumbered from 1 in list order, when the creation number is exhausted (R89). -/
def NoticeList.renumbered (l : NoticeList) : NoticeList :=
  if l.nextCreation ≤ countMax then l
  else
    { l with
      notices := (l.notices.zip (numbersFrom 1 l.notices.length)).map fun nc => { nc.1 with creation := nc.2 }
      nextCreation := l.notices.length + 1 }

/-- A notice is created at the end of its priority group with the next free id and creation number; when the rotation is
stopped it is shown at once (R88, R89, R99). -/
def Part.createNotice (p : Part) (kind : NoticeKind) (priority : Nat) (service : Option Nat) (text : Text)
    (expiry : Option Nat) (origin : NoticeOrigin) : Part × Nat :=
  let l := p.notices.renumbered
  let id := firstFree (fun i => l.notices.any (·.id == i)) 255 255 l.nextId
  let n : Notice := { id := id, kind := kind, priority := priority, creation := l.nextCreation, service := service,
                      text := text, expiry := expiry, origin := origin }
  let p := { p with notices := { l with
      notices := insertBy keyBefore n l.notices
      nextId := if id < 255 then id + 1 else 1
      nextCreation := l.nextCreation + 1 } }
  match p.notices.shown with
  | some _ => (p, id)
  | none => ((p.show id 1).tellWall, id)

/-- The automatic notice that gives way to a new one of priority `priority`: of the strictly greater priority numbers the
greatest, and of those the lowest creation number (R91). -/
def NoticeList.victim (l : NoticeList) (priority : Nat) : Option Notice :=
  (l.notices.filter fun n => n.kind != .posted && priority < n.priority).foldl
    (fun best n =>
      match best with
      | none => some n
      | some b => if b.priority < n.priority || (b.priority == n.priority && n.creation < b.creation) then some n else some b)
    none

/-- Room for one notice of a priority: fewer than 16 held, or after a displacement; none when nothing gives way (R91). -/
def Part.noticeRoom (p : Part) (priority : Nat) : Option Part :=
  if p.notices.notices.length < 16 then some p else (p.notices.victim priority).map p.dropNotice

/-- The fixed priority of an automatic kind (R88). -/
def autoPriority : NoticeKind → Nat
  | .stale => 0
  | .change => 1
  | .cancel => 1
  | .delay => 2
  | .unknown => 2
  | .posted => 3

/-- The automatic notice of a kind and service, if one is held. -/
def NoticeList.auto? (l : NoticeList) (kind : NoticeKind) (service : Option Nat) : Option Notice :=
  l.notices.find? fun n => n.kind == kind && n.service == service

/-- A request for an automatic notice: a replacement, a creation, or a displacement (R90; log 15). -/
def Part.askNotice (p : Part) (kind : NoticeKind) (service : Option Nat) : Part :=
  match p.notices.auto? kind service with
  | some old => ((p.dropNotice old).createNotice kind (autoPriority kind) service [] none .part).1
  | none =>
    match p.noticeRoom (autoPriority kind) with
    | some p => (p.createNotice kind (autoPriority kind) service [] none .part).1
    | none => p

/-- A request to withdraw an automatic notice; one that is not held has no effect (R90). -/
def Part.withdrawNotice (p : Part) (kind : NoticeKind) (service : Option Nat) : Part :=
  match p.notices.auto? kind service with
  | some n => p.dropNotice n
  | none => p

/-- Every automatic notice of a record is withdrawn, when the record is deleted (R90). -/
def Part.withdrawAll (p : Part) (id : Nat) : Part :=
  ((((p.withdrawNotice .delay (some id)).withdrawNotice .unknown (some id)).withdrawNotice .change (some id)).withdrawNotice
    .cancel (some id))

/-- At a dwell end the rotation moves to the next page or the next eligible notice; only a move that changes notice or page
tells the Wall Composer (R98). -/
def Part.dwellEnd (p : Part) : Part :=
  match p.notices.shown with
  | none => p
  | some s =>
    match p.notices.byId s.id with
    | none => p
    | some n =>
      let after :=
        if p.notices.eligible.contains n && s.page < pageCount (p.noticeText n) then p.show n.id (s.page + 1)
        else p.rotateFrom n
      match after.notices.shown with
      | some t => if t.id == s.id && t.page == s.page then after else after.tellWall
      | none => after.tellWall

end Sys2Proof.Machine
end

