-- ==== Sys2Proof/Machine/Cues.lean ====
section
/-! DEFINITION. The Cue Scheduler as operations (09_announcement_cues): pool and queues, placement, release with the display
gate, preemption and replay, the announcer's waits, input cues. The meanings of its commands are in Machine/Announcer.lean. -/

namespace Sys2Proof.Machine

/-! ## What the wall shows, as the scheduler reads it (R122) -/

/-- What carries a position (R122). -/
inductive Carrier where
  | own
  | spare
  | uncovered
deriving DecidableEq, Repr

/-- The carrying panel of a position in use (R122). -/
def Chain.carrier (c : Chain) (n : Nat) : Carrier :=
  if !(c.panel n).isFaulted then .own else if c.duty == .engaged n then .spare else .uncovered

/-- Whether position `n` is in use (R122). -/
def Chain.inUse (c : Chain) (n : Nat) : Bool := 1 ≤ n && n ≤ c.positions

/-- ACTIVE or WARM. -/
def Panel.isUp (n : Panel) : Bool := n.state == .active || n.state == .warm

/-- Whether a position is showing: in use with its carrying panel ACTIVE or WARM (R122). -/
def Chain.showing (c : Chain) (n : Nat) : Bool :=
  c.inUse n &&
    (match c.carrier n with
     | .own => (c.panel n).isUp
     | .spare => (c.panel 13).isUp
     | .uncovered => false)

/-- The delivered generation of a position: that of its carrying panel, or 0 (R122). -/
def Chain.delivered (c : Chain) (n : Nat) : Nat :=
  match c.carrier n with
  | .own => (c.panel n).ack
  | .spare => (c.panel 13).ack
  | .uncovered => 0

/-- The four wall lines of a position (R104). -/
def Image.linesOf (i : Image) (n : Nat) : List WallLine := (i.lines.drop (4 * (n - 1))).take 4

/-- The display gate of a CHANGE cue (R156): closed while a link test runs; open when every showing position that carries the
service has delivered the required generation and the generation of each of its lines that shows the service. -/
def Part.gateOpen (p : Part) (service : Nat) (required : Nat) : Bool :=
  !p.chain.test.isRunning &&
    (numbersFrom 1 12).all fun n =>
      let mine := (p.image.linesOf n).filter fun l => l.content.service == some service
      !p.chain.showing n || mine.isEmpty ||
        (notOlder (p.chain.delivered n) required && mine.all fun l => notOlder (p.chain.delivered n) l.generation)

/-! ## Pool, queues and zones -/

/-- The scheduler replaced by its image. -/
def Part.modCues (p : Part) (f : CueSched → CueSched) : Part := { p with cues := f p.cues }

/-- The allocated record with an id (R144). -/
def CueSched.cue? (q : CueSched) (id : Nat) : Option Cue := q.pool.find? (·.id == id)

/-- The queue of zone `z`. -/
def CueSched.queue (q : CueSched) (z : Nat) : List Nat := q.queues.getD (z - 1) []

/-- The state of zone `z`. -/
def CueSched.zone (q : CueSched) (z : Nat) : ZoneState := q.zones.getD (z - 1) .idle

/-- The state of zone `z` set. -/
def CueSched.setZone (q : CueSched) (z : Nat) (st : ZoneState) : CueSched :=
  { q with zones := updateAt q.zones (z - 1) fun _ => st }

/-- One record replaced by its image. -/
def CueSched.modCue (q : CueSched) (id : Nat) (f : Cue → Cue) : CueSched :=
  { q with pool := q.pool.map fun c => if c.id == id then f c else c }

/-- A record freed: it leaves the pool and every queue (R144, R146). -/
def CueSched.free (q : CueSched) (id : Nat) : CueSched :=
  { q with pool := q.pool.filter (·.id != id), queues := q.queues.map (·.filter (· != id)) }

/-- The outcome of a record in the zones for which `sel` holds. -/
def Cue.setOutcome (c : Cue) (sel : Nat → Bool) (o : ZoneOutcome) : Cue :=
  { c with zones := c.zones.map fun z => if sel z.1 then (z.1, o) else z }

/-- Whether a record is queued (R144). -/
def Cue.isQueued (c : Cue) : Bool := c.flight == .queued

/-- The zones of a record whose outcome is PENDING. -/
def Cue.pendingZones (c : Cue) : List Nat := (c.zones.filter (·.2 == .pending)).map (·.1)

/-- The order of class and then arrival number (R146). -/
def cueBefore (a b : Cue) : Bool :=
  a.cls.code < b.cls.code || (a.cls == b.cls && countLower a.arrival b.arrival)

/-- The same order on references. -/
def CueSched.refBefore (q : CueSched) (a b : Nat) : Bool :=
  match q.cue? a, q.cue? b with
  | some x, some y => cueBefore x y
  | _, _ => false

/-- Every zone PLAYING or STOPPING a cue becomes IDLE. -/
def CueSched.idleZonesOf (q : CueSched) (id : Nat) : CueSched :=
  { q with zones := q.zones.map fun st => if st == ZoneState.playing id || st == ZoneState.stopping id then .idle else st }

/-- A frame for the announcer, with the TAG counting upward (section 11.6). -/
def CueSched.transmit (q : CueSched) (f : Nat → CueFrame) : CueSched :=
  { q with tx := q.tx ++ [f q.tag], tag := (q.tag + 1) % 256 }

/-- A queued record dropped: freed with CUE_DROPPED (R150, R154, R155). -/
def Part.dropCue (p : Part) (id : Nat) : Part := (p.modCues (·.free id)).latchNat .cueDropped id

/-- A record that fails: its zones become IDLE, it is freed, CUE_FAILED latches (R160). -/
def Part.failCue (p : Part) (id : Nat) : Part :=
  (p.modCues fun q => (q.idleZonesOf id).free id).latchNat .cueFailed id

/-- STOP sent for a record in flight: its zones PLAYING become STOPPING and the STOP wait starts (R164 to R167). -/
def Part.stopCue (p : Part) (id : Nat) (why : StopReason) : Part :=
  p.modCues fun q =>
    let q := { q with zones := q.zones.map fun st => if st == ZoneState.playing id then .stopping id else st }
    (q.modCue id fun c => { c with flight := .stopping why (p.elapsed + 5000) }).transmit fun t => .stop t id

/-! ## Placement (R153, R154) -/

/-- The last reference of a queue, which is of the greatest class and arrival number (R146), when its class is strictly
greater than `cls`: the victim of R153. -/
def CueSched.zoneVictim (q : CueSched) (z : Nat) (cls : CueClass) : Option Nat :=
  (q.queue z).getLast?.bind fun id =>
    match q.cue? id with
    | some c => if cls.code < c.cls.code then some id else none
    | none => none

/-- Whether a zone's queue has room for a cue of a class (R153 step 1). -/
def CueSched.hasRoom (q : CueSched) (z : Nat) (cls : CueClass) : Bool :=
  (q.queue z).length < 6 || (q.zoneVictim z cls).isSome

/-- A victim loses its reference in one zone, with CUE_DROPPED; with no reference left it is freed (R153 step 4). -/
def Part.dropReference (p : Part) (id z : Nat) : Part :=
  let p := p.modCues fun q =>
    let q := { q with queues := updateAt q.queues (z - 1) fun (l : List Nat) => l.filter (· != id) }
    let q := q.modCue id (·.setOutcome (· == z) .dropped)
    if q.queues.any (·.contains id) then q else q.free id
  p.latchNat .cueDropped id

/-- One reference inserted at its place in a zone's queue, a full queue losing its victim first (R153 step 4). -/
def Part.insertReference (p : Part) (id : Nat) (cls : CueClass) (z : Nat) : Part :=
  let p :=
    if (p.cues.queue z).length < 6 then p
    else
      match p.cues.zoneVictim z cls with
      | some v => p.dropReference v z
      | none => p
  if (p.cues.queue z).length < 6 then
    p.modCues fun q => { q with queues := updateAt q.queues (z - 1) (insertBy q.refBefore id) }
  else p

/-- An EMERGENCY record in a zone's queue stops a lower cue that is PLAYING there (R165). -/
def Part.preemptZone (p : Part) (z : Nat) : Part :=
  match p.cues.zone z with
  | .playing c =>
    match p.cues.cue? c with
    | some x => if x.cls == .emergency then p else p.stopCue c .preemption
    | none => p
  | _ => p

/-- References inserted in each zone, in ascending zone order, with the preemption an EMERGENCY record causes (R153, R165). -/
def Part.insertCue (p : Part) (id : Nat) (cls : CueClass) (zones : List Nat) : Part :=
  let p := zones.foldl (fun p z => p.insertReference id cls z) p
  if cls == .emergency then zones.foldl (fun p z => p.preemptZone z) p else p

/-- The records allocated of an origin. -/
def CueSched.ofOrigin (q : CueSched) (o : CueOrigin) : Nat := (q.pool.filter (·.origin == o)).length

/-- Whether an origin's quota is full (R144, R154). -/
def CueSched.quotaFull (q : CueSched) : CueOrigin → Bool
  | .control => 4 ≤ q.ofOrigin .control
  | .input => 4 ≤ q.ofOrigin .input
  | .auto => 24 ≤ q.ofOrigin .auto + q.ofOrigin .information
  | .information => 24 ≤ q.ofOrigin .auto + q.ofOrigin .information

/-- The oldest queued AUTO or INFORMATION record of a strictly greater class number (R154). -/
def CueSched.poolVictim (q : CueSched) (cls : CueClass) : Option Cue :=
  (q.pool.filter fun c => c.isQueued && (c.origin == .auto || c.origin == .information) && cls.code < c.cls.code).foldl
    (fun best c =>
      match best with
      | none => some c
      | some b => if countLower c.arrival b.arrival then some c else some b)
    none

/-- What a placement comes to (R153). -/
inductive Placement where
  | created (id : Nat) (zones : List Nat)
  | queueFull
  | poolFull
deriving DecidableEq, Repr

/-- Room in the pool (R153 step 2): the part with room made, or none. -/
def Part.poolRoom (p : Part) (o : CueOrigin) (cls : CueClass) : Option Part :=
  if !p.cues.quotaFull o then some p
  else if o == .auto then (p.cues.poolVictim cls).map fun v => p.dropCue v.id
  else none

/-- What a new cue is made of. -/
structure NewCue where
  cls : CueClass
  origin : CueOrigin
  service : Option Nat
  template : Option Template
  input : Option Nat
  zones : List Nat
  tokens : List Nat
deriving DecidableEq, Repr

/-- Whether a cue id is held by an allocated record or reserved (R145, R169). -/
def CueSched.idTaken (q : CueSched) (id : Nat) : Bool :=
  q.pool.any (·.id == id) || q.reserved.any (·.1 == id)

/-- A record created with the next free id and the next arrival number (R145). -/
def Part.createCue (p : Part) (n : NewCue) (zones : List Nat) : Part × Nat :=
  let q := p.cues
  let id := firstFree q.idTaken 65535 65535 q.nextId
  let c : Cue :=
    { id := id, cls := n.cls, origin := n.origin, arrival := q.nextArrival, service := n.service, template := n.template,
      input := n.input, zones := zones.map fun z => (z, .pending), tokens := n.tokens, required := none, replayed := false,
      created := p.elapsed, flight := .queued }
  ({ p with cues := { q with
      pool := q.pool ++ [c]
      nextId := if id < 65535 then id + 1 else 1
      nextArrival := countNext q.nextArrival } }, id)

/-- A new cue is placed (R153). -/
def Part.place (p : Part) (n : NewCue) : Part × Placement :=
  let zones := n.zones.filter fun z => p.cues.hasRoom z n.cls
  if zones.isEmpty then (p, .queueFull)
  else
    match p.poolRoom n.origin n.cls with
    | none => (p, .poolFull)
    | some p =>
      let (p, id) := p.createCue n zones
      (p.insertCue id n.cls zones, .created id zones)

/-- An automatic or input cue is placed, or dropped with CUE_DROPPED and subject 0 (R151, R167). -/
def Part.placeOrDrop (p : Part) (n : NewCue) : Part :=
  match p.place n with
  | (p, .created _ _) => p
  | (p, .queueFull) => p.latchNat .cueDropped 0
  | (p, .poolFull) => p.latchNat .cueDropped 0

/-! ## Automatic cues (R148 to R151) -/

/-- Phrase code `i` of the phrase map, in the order of R148. -/
def Part.phrase (p : Part) (i : Nat) : Nat := p.cfgWord 4 (2 * i)

/-- The station token of an index (R148). -/
def Part.stationToken (p : Part) (i : Nat) : Nat := (p.phrase 9 + i) % 4096

/-- The token of a number (R148). -/
def Part.numberToken (p : Part) (n : Nat) : Nat := (p.phrase 10 + n) % 4096

/-- The token list of an automatic cue (R148); `platform` is the platform announced. -/
def Part.tokensFor (p : Part) (t : Template) (r : Record) (platform : Nat) : List Nat :=
  let m := minuteShown p.time.startHour r.sched
  let at_ := [p.numberToken (m / 60), p.numberToken (m % 60), p.phrase 1, p.stationToken r.dest]
  match t with
  | .change => p.phrase 0 :: at_ ++ [p.phrase 2, p.numberToken platform]
  | .delay =>
    let d := r.minutes.getD 0
    if d ≤ 59 then p.phrase 0 :: at_ ++ [p.phrase 3, p.numberToken d, p.phrase 4]
    else p.phrase 0 :: at_ ++ [p.phrase 3, p.phrase 5]
  | .cancel => p.phrase 0 :: at_ ++ [p.phrase 6, p.phrase 7]
  | .boarding => at_ ++ [p.phrase 8, p.numberToken platform]

/-- The class of a template's cues (R148). -/
def templateClass : Template → CueClass
  | .change => .change
  | .delay => .service
  | .cancel => .service
  | .boarding => .service

/-- Whether a cue is an AUTO cue of a service and of one of some template kinds. -/
def Cue.isAutoOf (c : Cue) (service : Nat) (ts : List Template) : Bool :=
  c.origin == .auto && c.service == some service && ts.any fun t => c.template == some t

/-- Queued records removed and freed, latching nothing (R151). -/
def Part.removeQueued (p : Part) (sel : Cue → Bool) : Part :=
  p.modCues fun q => ((q.pool.filter fun c => c.isQueued && sel c).map (·.id)).foldl CueSched.free q

/-- A record's queued cues of some template kinds removed, at another block's request (R151). -/
def Part.removeAuto (p : Part) (service : Nat) (ts : List Template) : Part := p.removeQueued (·.isAutoOf service ts)

/-- All template kinds. -/
def allTemplates : List Template := [.change, .delay, .cancel, .boarding]

/-- Zones in ascending order, each once, of those named. -/
def zoneSet (zs : List Nat) : List Nat := (numbersFrom 1 8).filter zs.contains

/-- Whether the feed rule bars automatic cues of a record: the feed is not LIVE and it holds no Control copy (R149). -/
def Part.feedBars (p : Part) (r : Record) : Bool := p.feed.state != .live && r.ctl.isNone

/-- A request for an automatic cue: zones filtered by the modes, the feed rule, replacement, placement (R149, R151). -/
def Part.askCue (p : Part) (t : Template) (id : Nat) (platform : Nat) (zones : List Nat) : Part :=
  match p.record? id with
  | none => p
  | some r =>
    let zones := (zoneSet zones).filter fun z => p.zoneMode z != .controlOnly || r.ctl.isSome
    if p.feedBars r || zones.isEmpty then p
    else
      let p :=
        match t with
        | .change => p.removeAuto id [.change]
        | .delay => p.removeAuto id [.delay]
        | .cancel => p
        | .boarding => p
      p.placeOrDrop
        { cls := templateClass t, origin := .auto, service := some id, template := some t, input := none, zones := zones,
          tokens := p.tokensFor t r platform }

/-- The zone of a record's effective platform, or the concourse zone (R149). -/
def Part.recordZone (p : Part) (r : Record) : Nat :=
  match r.running.platform with
  | some q => p.zoneOfPlatform q
  | none => p.concourseZone

/-- A request for a DELAY, CANCEL or BOARDING cue of a record (R149). -/
def Part.askRecordCue (p : Part) (t : Template) (id : Nat) : Part :=
  match p.record? id with
  | none => p
  | some r => p.askCue t id (r.running.platform.getD 0) [p.recordZone r]

/-- Whether the service of an AUTO cue is out of the table or its record holds no Control copy (R150, R165). -/
def Part.orphaned (p : Part) (c : Cue) : Bool :=
  match c.service.bind p.record? with
  | none => true
  | some r => r.ctl.isNone

/-- The purge of R150: every queued AUTO record without a Control copy is dropped, in ascending order of arrival number. -/
def Part.purgeAuto (p : Part) : Part :=
  let ids := (sortBy (fun a b => countLower a.arrival b.arrival)
    (p.cues.pool.filter fun c => c.isQueued && c.origin == .auto && p.orphaned c)).map (·.id)
  ids.foldl Part.dropCue p

/-! ## Release (R156 to R158) -/

/-- Whether a queued record is eligible for release (R156). -/
def Part.eligibleCue (p : Part) (c : Cue) : Bool :=
  let waiting := c.pendingZones.filter fun z => p.cues.zone z != .offline
  c.isQueued && p.cues.announcer == .up && !waiting.isEmpty &&
    waiting.all (fun z => p.cues.zone z == .idle && (p.cues.queue z).head? == some c.id) &&
    (c.template != some .change ||
      (match c.required, c.service with
       | some g, some id => p.gateOpen id g
       | _, _ => false))

/-- The announced flag of a marked record is set by a PLAY of its CHANGE cue (R82). The Wall Composer is not told of it: R115 lists
no such telling, where R76 has every change of a mark tell it; the model's choice (log 47). -/
def Part.tellPlay (p : Part) (c : Cue) : Part :=
  match c.template, c.service with
  | some .change, some id =>
    p.modRecord id fun r => { r with mark := r.mark.map fun m => { m with announced := true } }
  | _, _ => p

/-- The release of a record (R158). A zone that is OFFLINE stays in the list of its zones with the outcome FAILED: the model's
choice (log 51). -/
def Part.releaseCue (p : Part) (c : Cue) : Part :=
  let off := c.pendingZones.filter fun z => p.cues.zone z == .offline
  let on := c.pendingZones.filter fun z => p.cues.zone z != .offline
  let p := p.modCues fun q =>
    let q := { q with queues := q.queues.map fun (l : List Nat) => l.filter (· != c.id) }
    let q := on.foldl (fun q z => q.setZone z (.playing c.id)) q
    let q := q.modCue c.id fun c => { c.setOutcome off.contains .failed with flight := .sent (p.elapsed + 2000) }
    q.transmit fun t => .play t c.id on c.tokens
  let p := if off.isEmpty then p else p.latchNat .cueFailed c.id
  p.tellPlay c

/-- One examination: every eligible record is released, in ascending order of class and arrival number (R157). -/
def Part.examine (p : Part) : Part :=
  (sortBy cueBefore (p.cues.pool.filter p.eligibleCue)).foldl Part.releaseCue p

/-! ## Waits and the announcer (R159 to R165) -/

/-- The announcer becomes LOST (R163). -/
def Part.loseAnnouncer (p : Part) : Part :=
  let ids := (sortBy (fun a b => a.id < b.id) (p.cues.pool.filter (!·.isQueued))).map (·.id)
  let p := ids.foldl Part.failCue p
  let p := p.modCues fun q =>
    { q with zones := q.zones.map fun _ => .idle, silence := 0, announcer := .lost }
  p.latchNat .announcerLost 0

/-- A wait that ended by its limit raises the silence count; at 3 while UP the announcer is LOST (R159). -/
def Part.bumpSilence (p : Part) : Part :=
  let n := min 3 (p.cues.silence + 1)
  let p := p.modCues fun q => { q with silence := n }
  if n == 3 && p.cues.announcer == .up then p.loseAnnouncer else p

/-- A well-formed frame from the announcer sets the silence count to 0 (R159). -/
def Part.heardFrame (p : Part) : Part := p.modCues fun q => { q with silence := 0 }

/-- A preempted record re-enters the queues of the zones that were STOPPING it (R165), by steps 1 and 4 of R153. A zone without room
stays in the list of its zones with the outcome DROPPED: the model's choice (log 51). A record past its age limit is queued like any
other and ages out in an event of its own: the model's choice (log 69). -/
def Part.replay (p : Part) (c : Cue) (zones : List Nat) : Part :=
  let p := p.modCues (·.idleZonesOf c.id)
  let kept := zones.filter fun z => p.cues.hasRoom z c.cls
  if kept.isEmpty then p.dropCue c.id
  else
    let p := p.modCues (·.modCue c.id fun c =>
      { (c.setOutcome zones.contains .dropped).setOutcome kept.contains .pending with replayed := true, flight := .queued })
    p.insertCue c.id c.cls kept

/-- The zones STOPPING a cue. -/
def CueSched.stoppingZones (q : CueSched) (id : Nat) : List Nat :=
  (numbersFrom 1 8).filter fun z => q.zone z == .stopping id

/-- Whether a newer queued AUTO cue says what a preempted automatic cue said (R165). -/
def CueSched.superseded (q : CueSched) (c : Cue) : Bool :=
  c.origin == .auto && q.pool.any fun d =>
    d.isQueued && d.origin == .auto && d.service == c.service && d.template == c.template

/-- ENDED STOPPED for a preempted record: it is replayed once, or dropped (R165). -/
def Part.endPreempted (p : Part) (c : Cue) : Part :=
  if c.replayed || p.cues.superseded c || (c.origin == .auto && p.orphaned c && p.feed.state != .live) then
    (p.modCues (·.idleZonesOf c.id)).dropCue c.id
  else p.replay c (p.cues.stoppingZones c.id)

/-- A record whose wait ends without an event of its own: its zones become IDLE and it is freed. -/
def Part.endQuietly (p : Part) (id : Nat) : Part := p.modCues fun q => (q.idleZonesOf id).free id

/-! ## Input cues (R167) -/

/-- The repeat timer of an input, counted from 0. -/
def Part.setRepeat (p : Part) (i : Nat) (t : Option Nat) : Part :=
  p.modCues fun q => { q with repeats := updateAt q.repeats i fun _ => t }

/-- An input's EMERGENCY cue is made from its configuration (R167). -/
def Part.makeInputCue (p : Part) (i : Nat) : Part :=
  let cfg := p.inputConfig i
  p.placeOrDrop
    { cls := .emergency, origin := .input, service := none, template := none, input := some (i + 1), zones := cfg.zones,
      tokens := cfg.tokens }

/-- The repeat timer starts with the interval as it stands; an interval of 0 leaves it stopped (R167). -/
def Part.startRepeat (p : Part) (i : Nat) : Part :=
  let t := (p.inputConfig i).interval
  p.setRepeat i (if t == 0 then none else some (p.elapsed + t))

/-- Input start (R167): only for an input with cue tokens. -/
def Part.inputStart (p : Part) (i : Nat) : Part :=
  if (p.inputConfig i).tokens.isEmpty then p else (p.makeInputCue i).startRepeat i

/-- An input's queued record removed, latching nothing (R167). -/
def Part.removeInputQueued (p : Part) (i : Nat) : Part := p.removeQueued fun c => c.input == some (i + 1)

/-- Repeat (R167): the queued record is replaced by a new one and the timer restarts. -/
def Part.inputRepeat (p : Part) (i : Nat) : Part := ((p.removeInputQueued i).makeInputCue i).startRepeat i

/-- STOP for a record in flight that is not STOPPING; a preempted one will not be replayed (R166). The stop of a preempted one is from
then on a cancellation in every way: R166 says so of its ENDED STOPPED, and that a REJECT, too, frees it with no event is the model's
choice (log 80). -/
def Part.cancelFlight (p : Part) (c : Cue) : Part :=
  match c.flight with
  | .queued => p
  | .sent _ => p.stopCue c.id .cancellation
  | .accepted _ => p.stopCue c.id .cancellation
  | .stopping .preemption t =>
    p.modCues (·.modCue c.id fun c => { c with flight := .stopping .cancellation t })
  | .stopping .timeout _ => p
  | .stopping .cancellation _ => p

/-- Input end (R167): the timer stops, the queued record goes, one in flight is stopped. Should the input have several in flight, they
are stopped in the order of their creation: the model's choice (log 79). -/
def Part.inputEnd (p : Part) (i : Nat) : Part :=
  let p := (p.setRepeat i none).removeInputQueued i
  (p.cues.pool.filter fun c => c.input == some (i + 1)).foldl Part.cancelFlight p

end Sys2Proof.Machine
end

