-- ==== Sys2Proof/Machine/Compose.lean ====
section
/-! DEFINITION. The Wall Composer (07_composing_the_wall): the lines, the Composed Image and its generation, the naming of
required generations, and the end of an event. -/

namespace Sys2Proof.Machine

/-! ## Texts -/

/-- A character outside 0x20..0x7E is shown as a space (00_scope, "Text"). The image holds the space and not the byte as stored: the
model's choice (log 62). -/
def printable (c : Byte) : Byte := if 0x20 ≤ c.toNat && c.toNat ≤ 0x7E then c else 0x20

/-- A text in 48 columns: from column 1, padded with spaces, cut at 48 (R100, R102). -/
def inColumns (t : Text) : Text := (fit 48 t).map printable

/-- "On time". -/
def txtOnTime : Text := chars ['O', 'n', ' ', 't', 'i', 'm', 'e']
/-- "Exp ". -/
def txtExp : Text := chars ['E', 'x', 'p', ' ']
/-- "Delayed". -/
def txtDelayed : Text := chars ['D', 'e', 'l', 'a', 'y', 'e', 'd']
/-- "Cancelled". -/
def txtCancelled : Text := chars ['C', 'a', 'n', 'c', 'e', 'l', 'l', 'e', 'd']
/-- "Boarding". -/
def txtBoarding : Text := chars ['B', 'o', 'a', 'r', 'd', 'i', 'n', 'g']
/-- "Closed". -/
def txtClosed : Text := chars ['C', 'l', 'o', 's', 'e', 'd']
/-- "Departed". -/
def txtDeparted : Text := chars ['D', 'e', 'p', 'a', 'r', 't', 'e', 'd']
/-- "Calling at ". -/
def txtCallingAt : Text := chars ['C', 'a', 'l', 'l', 'i', 'n', 'g', ' ', 'a', 't', ' ']
/-- " only". -/
def txtOnly : Text := chars [' ', 'o', 'n', 'l', 'y']

/-- The shown expected minute of a record with delay minutes `m`, as a service time (R45). -/
def expectedShown (r : Record) (m : Nat) : Int := 60 * (r.sched / 60 + m)

/-- The status text of a display state (R46, R108). -/
def statusText (h : Nat) (r : Record) : Text :=
  match r.display with
  | .departed => txtDeparted
  | .cancelled => txtCancelled
  | .closed => txtClosed
  | .boarding => txtBoarding
  | .delayed => txtDelayed
  | .expected m => txtExp ++ hhmm h (expectedShown r m)
  | .onTime => txtOnTime

/-- The platform columns: right-aligned in three, "-" when absent (R108). -/
def platformText : Option Nat → Text
  | none => [32, 32, 45]
  | some n => List.replicate (3 - (decimal n).length) 32 ++ decimal n

/-! ## Lines -/

/-- A line of 48 spaces without attributes or service, under a role (R112). -/
def blankLine (role : Role) : LineContent :=
  { text := blankText, blink := 0, highlight := 0, role := role, service := none }

/-- Blink on columns 32, 33 and 34 (R109). -/
def platformBlink : BitVec 48 := 0x1C000

/-- A departure row (R108, R109). -/
def Part.departureRow (p : Part) (role : Role) (r : Record) : LineContent :=
  { text := (hhmm p.time.startHour r.sched ++ [32] ++ fit 24 (p.stationName r.dest) ++ [32]
        ++ platformText r.running.platform ++ [32] ++ fit 10 (statusText p.time.startHour r) ++ [32]
        ++ [if r.mark.isSome then 42 else 32] ++ [32]).map printable
    blink := if r.mark.isSome then platformBlink else 0
    highlight := if r.display == .cancelled then BitVec.allOnes 48 else 0
    role := role
    service := some r.id }

/-- Names with ", " between one and the next (R110). -/
def joinNames : List Text → Text
  | [] => []
  | [a] => a
  | a :: l => a ++ [44, 32] ++ joinNames l

/-- The full text of a detail line (R110). -/
def Part.detailText (p : Part) (r : Record) : Text :=
  if r.calls.isEmpty then txtCallingAt ++ p.stationName r.dest ++ txtOnly
  else txtCallingAt ++ joinNames (r.calls.map p.stationName)

/-- A detail line (R110). -/
def Part.detailLine (p : Part) (role : Role) (r : Record) : LineContent :=
  let t := p.detailText r
  { blankLine role with
    text := (if t.length ≤ 48 then fit 48 t else t.take 47 ++ [62]).map printable
    service := some r.id }

/-- A clock line (R111). -/
def Part.clockLine (p : Part) : LineContent :=
  let s := p.time.second
  { blankLine .clock with
    text :=
      if p.time.valid then
        List.replicate 20 32 ++ (twoDigits (s / 3600) ++ [58] ++ twoDigits (s / 60 % 60) ++ [58] ++ twoDigits (s % 60))
          ++ List.replicate 20 32
      else noTimeText }

/-- Whether the actions of an input are in force: in ACT mode, ACTIVE or RELEASING (R102, R107, R199; log 26). -/
def Part.actionsInForce (p : Part) (i : Nat) : Bool :=
  (p.inputConfig i).mode == .act && ((p.input i).state == .active || (p.input i).state == .releasing)

/-- Where the banner line's text comes from (R102). -/
inductive BannerSource where
  | input (number : Nat)
  | fallback
  | override
  | rotation
  | blank
deriving DecidableEq, Repr

/-- The effective banner shadow (R72). -/
def Part.effectiveBanner (p : Part) : BannerShadow := p.own.bannerOf p.own.banner

/-- The first source of R102 that is present. -/
def Part.bannerSource (p : Part) : BannerSource :=
  match (List.range 4).find? fun i => p.actionsInForce i && (p.inputConfig i).banner != .noChoice with
  | some i => .input (i + 1)
  | none =>
    if p.feed.state == .lost then .fallback
    else if p.effectiveBanner.enabled then .override
    else if p.notices.shown.isSome then .rotation
    else .blank

/-- The page of the shown notice (R100). -/
def Part.rotationText (p : Part) : Text :=
  match p.notices.shown with
  | none => []
  | some s =>
    match p.notices.byId s.id with
    | none => []
    | some n => pageOf (p.noticeText n) s.page

/-- The text of a banner line (R102). -/
def Part.bannerText (p : Part) : Text :=
  match p.bannerSource with
  | .input n => if (p.inputConfig (n - 1)).banner == .textA then p.textRow 6 else p.textRow 7
  | .fallback => p.textRow 8
  | .override => p.effectiveBanner.text
  | .rotation => p.rotationText
  | .blank => []

/-- The visible records (R106). -/
def Part.visible (p : Part) : List Record :=
  if p.feed.state == .lost then p.table.records.filter (·.ctl.isSome) else p.table.records

/-- Whether the departure and detail lines are blanked (R107). -/
def Part.blanked (p : Part) : Bool := (List.range 4).any fun i => p.actionsInForce i && (p.inputConfig i).blank

/-- The role of each wall line after R105: a DEPARTURE(k) or DETAIL(k) already given to a lower line is BLANK. -/
def dedupRoles : List Role → List Role → List Role
  | _, [] => []
  | seen, r :: rs =>
    match r with
    | .departure _ | .detail _ => if seen.contains r then .blank :: dedupRoles seen rs else r :: dedupRoles (r :: seen) rs
    | .banner | .clock | .blank => r :: dedupRoles seen rs

/-- The roles of the 48 lines (R104, R105). -/
def Part.roles (p : Part) : List Role := dedupRoles [] ((numbersFrom 1 48).map p.layoutRole)

/-- One line composed under its role (R106 to R112). A DEPARTURE(k) or DETAIL(k) line without a k-th visible record, and a blanked
one, keeps its role and is otherwise a blank line; only R105 makes the role BLANK: the model's choice (log 74). -/
def Part.composeLine (p : Part) (role : Role) : LineContent :=
  match role with
  | .banner => { blankLine .banner with text := inColumns p.bannerText }
  | .clock => p.clockLine
  | .departure k =>
    if p.blanked then blankLine role
    else
      match p.visible[k - 1]? with
      | some r => p.departureRow role r
      | none => blankLine role
  | .detail k =>
    if p.blanked then blankLine role
    else
      match p.visible[k - 1]? with
      | some r => p.detailLine role r
      | none => blankLine role
  | .blank => blankLine .blank

/-- All 48 lines (R114). -/
def Part.composeAll (p : Part) : List LineContent := p.roles.map p.composeLine

/-! ## The image -/

/-- The image with its lines compared with newly composed ones: those that differ take their contents and the new
generation, and there is a new generation only if one differs (R114, R116). -/
def Image.take (i : Image) (new : List LineContent) : Image :=
  let g := countNext i.generation
  if i.lines.map (·.content) == new then i
  else
    { generation := g
      lines := (new.zip i.lines).map fun nl => if nl.1 == nl.2.content then nl.2 else { content := nl.1, generation := g } }

/-- A recomposition (R114). -/
def Part.recompose (p : Part) : Part := { p with image := p.image.take p.composeAll }

/-- The Composer names the required generation of every CHANGE cue that still waits for one (R117). -/
def Part.nameGenerations (p : Part) : Part :=
  p.modCues fun q =>
    { q with
      pool := q.pool.map fun c =>
        if c.template == some .change && c.required.isNone then { c with required := some p.image.generation } else c }

/-- The start of an event: its marks are clear, and the next arrival number is noted (R77 step 4; log 14). -/
def Part.begin (p : Part) : Part := { p with ev := { noEvent with arrivalMark := p.cues.nextArrival } }

/-- The end of an event: recomposition if the Composer was told, naming, the examination of the queues; then no event is
under way (R115, R117, R157). -/
def Part.finish (p : Part) : Part :=
  let p := if p.ev.wallTold then p.recompose else p
  { p.nameGenerations.examine with ev := noEvent }

/-- The image composed afresh by a reset: every line takes the given generation (R121). -/
def Part.composeFresh (p : Part) (g : Nat) : Part :=
  { p with image := { generation := g, lines := p.composeAll.map fun c => { content := c, generation := g } } }

end Sys2Proof.Machine
end

