-- ==== Sys2Proof/Machine/Announcer.lean ====
section
/-! DEFINITION. The meanings of the Cue Scheduler's commands (09_announcement_cues): posted cues, the announcer's frames, the
waits, and the timers of the scheduler. -/

namespace Sys2Proof.Machine

/-! ## CUE_POST, CUE_CANCEL, CUE_STATUS -/

/-- Check 1 of R152. -/
def postMalformed (zones : List Nat) (service : Option Nat) (tokens : List Nat) : Bool :=
  zones.isEmpty || tokens.isEmpty || 24 < tokens.length || tokens.any (4095 < ·) || service == some 0

/-- Check 2 of R152: the class taken. -/
def takenClass : Link → CueClass → CueClass
  | .control, c => c
  | .information, .emergency => .service
  | .information, .safety => .service
  | .information, .change => .service
  | .information, .service => .service
  | .information, .general => .general

/-- Check 3 of R152: whether a zone is open to a posting link. -/
def zoneOpenTo : Link → ZoneMode → Bool
  | .information, m => m != .controlOnly
  | .control, m => m != .infoOnly

/-- The origin of a cue posted on a link (R152). -/
def cueOriginOf : Link → CueOrigin
  | .information => .information
  | .control => .control

/-- CUE_POST (R152). -/
def cuePost (l : Link) (a : Nat × List Nat × Option Nat × List Nat) (p : Part) : Answer :=
  match classOfCode a.1 with
  | none => refuse p .invalidField
  | some c =>
    if postMalformed a.2.1 a.2.2.1 a.2.2.2 then refuse p .invalidField
    else
      let cls := takenClass l c
      let zones := a.2.1.filter fun z => zoneOpenTo l (p.zoneMode z)
      if zones.isEmpty then refuse p .notOwner
      else
        let placed := p.begin.place
          { cls := cls, origin := cueOriginOf l, service := a.2.2.1, template := none, input := none, zones := zones,
            tokens := a.2.2.2 }
        match placed.2 with
        | .queueFull => refuse p .queueFull
        | .poolFull => refuse p .poolFull
        | .created id zs =>
          .reply placed.1.finish (if cls == c then .ok else .okClamped) (be 2 id ++ be 1 cls.code ++ [byteOfZones zs])

/-- CUE_POST. -/
def execCuePost (rq : Req) (s : State) : Host.Outcome State Fault Refusal :=
  act (runRequest 0x28 readCuePost cuePost rq) s

/-- CUE_CANCEL (R166; log 33). -/
def cueCancel (l : Link) (id : Nat) (p : Part) : Answer :=
  match p.cues.cue? id with
  | none => refuse p .notFound
  | some c =>
    if l == .information && c.origin != .information then refuse p .notOwner
    else if c.isQueued then .reply (p.begin.modCues (·.free id)).finish .ok [flightCode .queued]
    else
      let q := p.begin.cancelFlight c
      .reply q.finish .ok [((q.cues.cue? id).map fun c => flightCode c.flight).getD 0]

/-- CUE_CANCEL. -/
def execCueCancel (rq : Req) (s : State) : Host.Outcome State Fault Refusal :=
  act (runRequest 0x29 (readOne 2) cueCancel rq) s

/-- The announcer state's code (R147), by the order of the list: the model's choice (log 71). -/
def announcerCode : Announcer → Byte
  | .up => 0
  | .lost => 1

/-- A zone as CUE_STATUS gives it: its state, its mode and its queue (R168). -/
def Part.zoneBytes (p : Part) (z : Nat) : List Byte :=
  zoneStateBytes (p.cues.zone z) ++ be 1 (zoneModeCode (p.zoneMode z)) ++ counted (be 2) (p.cues.queue z)

/-- The summary of CUE_STATUS (R168). Of a repeat timer one byte says both that it runs and that its remaining seconds are present:
the model's choice (log 64). -/
def Part.cueSummary (p : Part) : List Byte :=
  let q := p.cues
  [announcerCode q.announcer] ++ be 1 q.silence ++ optBytes 1 (fun b : Byte => [b]) q.lastReject
    ++ (numbersFrom 1 8).flatMap p.zoneBytes
    ++ [CueOrigin.auto, CueOrigin.information, CueOrigin.control, CueOrigin.input].flatMap (fun o => be 1 (q.ofOrigin o))
    ++ q.repeats.flatMap (fun t => optBe 4 (t.map p.secondsUntil))

/-- Whether the display gate of a queued CHANGE cue is open; none for any other record (R168). A CHANGE record is taken as one of
template kind CHANGE; a posted record of class CHANGE, for which R152 has the gate open, gives none: the model's choice (log 55). -/
def Part.gateReport (p : Part) (c : Cue) : Option Bool :=
  if c.template == some .change && c.isQueued then
    some (match c.required, c.service with
      | some g, some id => p.gateOpen id g
      | _, _ => false)
  else none

/-- A cue record as CUE_STATUS gives it (R168). -/
def Part.cueBytes (p : Part) (c : Cue) : List Byte :=
  be 1 c.cls.code ++ [cueOriginCode c.origin] ++ be 4 c.arrival ++ optBe 2 c.service
    ++ optBytes 1 (fun t => [templateCode t]) c.template ++ optBe 1 c.input
    ++ [byteOfZones (c.zones.map (·.1))] ++ counted (fun z => [outcomeCode z.2]) c.zones ++ counted (be 2) c.tokens
    ++ optBe 4 c.required ++ [flagByte c.replayed] ++ be 4 ((p.elapsed - c.created) / 1000) ++ [flightCode c.flight]
    ++ optBytes 1 (fun b => [flagByte b]) (p.gateReport c)

/-- CUE_STATUS (R168). -/
def cueStatus (id : Nat) (p : Part) : Answer :=
  if id == 0 then readOk p p.cueSummary
  else
    match p.cues.cue? id with
    | none => refuse p .notFound
    | some c => readOk p (p.cueBytes c)

/-- CUE_STATUS. -/
def execCueStatus (rq : Req) (s : State) : Host.Outcome State Fault Refusal :=
  act (runRequest 0x2A (readOne 2) (fun _ => cueStatus) rq) s

/-! ## Age limits (R155) -/

/-- The age limit of a class in milliseconds; EMERGENCY has none (R155). -/
def Part.ageLimit (p : Part) : CueClass → Option Nat
  | .emergency => none
  | .change => some (p.cfgWord 4 22 * 1000)
  | .service => some (p.cfgWord 4 24 * 1000)
  | .general => some (p.cfgWord 4 26 * 1000)
  | .safety => some (p.cfgWord 4 28 * 1000)

/-- The instant at which a queued record ages out. -/
def Part.ageOutAt (p : Part) (c : Cue) : Option Nat :=
  if c.isQueued then (p.ageLimit c.cls).map (c.created + ·) else none

/-- A queued record reaches its class's age limit (R155). Each record dropped is an event of its own, with its own examination at
the end, also when several reach their limits at one instant: the model's choice (log 54). -/
def Part.cueAgeOut (p : Part) (id : Nat) : Part :=
  match (p.cues.cue? id).bind p.ageOutAt with
  | none => p
  | some t => ((p.advanceTo t).begin.dropCue id).finish

/-- CUE_AGE_OUT. -/
def execCueAgeOut (cue : Nat) (s : State) : Host.Outcome State Fault Refusal := act (fun p => p.cueAgeOut cue) s

/-! ## Timers and waits (R159, R164) -/

/-- The ACCEPT wait runs out: as for a REJECT, and the silence count rises (R160, R164). -/
def Part.acceptWaitExpiry (p : Part) (id : Nat) : Part :=
  match (p.cues.cue? id).map Cue.flight with
  | some (Flight.sent t) => (((p.advanceTo t).begin.failCue id).bumpSilence).finish
  | _ => p

/-- ACCEPT_WAIT_EXPIRY. -/
def execAcceptWaitExpiry (cue : Nat) (s : State) : Host.Outcome State Fault Refusal :=
  act (fun p => p.acceptWaitExpiry cue) s

/-- The zones PLAYING a cue. -/
def CueSched.playingZones (q : CueSched) (id : Nat) : List Nat := (numbersFrom 1 8).filter fun z => q.zone z == .playing id

/-- The ENDED wait after ACCEPT runs out: STOP is sent, the zones fail and become STOPPING (R164), and then the silence count rises. If
that makes the announcer LOST, the STOP has gone out and CUE_FAILED has latched before the loss, and R163 ends the STOP wait as that of
any record in flight: the model's choice (log 81). -/
def Part.endedWaitExpiry (p : Part) (id : Nat) : Part :=
  match (p.cues.cue? id).map Cue.flight with
  | some (Flight.accepted t) =>
    let p := (p.advanceTo t).begin
    let zones := p.cues.playingZones id
    let p := (p.modCues (·.modCue id (·.setOutcome zones.contains .failed))).stopCue id .timeout
    ((p.latchNat .cueFailed id).bumpSilence).finish
  | _ => p

/-- ENDED_WAIT_EXPIRY. -/
def execEndedWaitExpiry (cue : Nat) (s : State) : Host.Outcome State Fault Refusal :=
  act (fun p => p.endedWaitExpiry cue) s

/-- The STOP wait runs out: a record with outcomes still PENDING fails; it is freed (R164). -/
def Part.stopWaitExpiry (p : Part) (id : Nat) : Part :=
  match p.cues.cue? id with
  | none => p
  | some c =>
    match c.flight with
    | .stopping _ t =>
      let p := (p.advanceTo t).begin.endQuietly id
      let p := if c.pendingZones.isEmpty then p else p.latchNat .cueFailed id
      p.bumpSilence.finish
    | .queued | .sent _ | .accepted _ => p

/-- STOP_WAIT_EXPIRY. -/
def execStopWaitExpiry (cue : Nat) (s : State) : Host.Outcome State Fault Refusal :=
  act (fun p => p.stopWaitExpiry cue) s

/-- The probe reply wait runs out (R164). -/
def Part.probeWaitExpiry (p : Part) : Part :=
  match p.cues.probeWait with
  | none => p
  | some t => (((p.advanceTo t).begin.modCues fun q => { q with probeWait := none }).bumpSilence).finish

/-- PROBE_WAIT_EXPIRY. -/
def execProbeWaitExpiry (s : State) : Host.Outcome State Fault Refusal := act Part.probeWaitExpiry s

/-- A probe reply wait that runs out no later than the next PROBE is sent ends first, as R164 has it: the wait of the new PROBE takes
its place (R159). -/
def Part.probeLapse (p : Part) : Part :=
  if p.cues.probeWait.any (· ≤ max p.elapsed p.cues.probeAt) then p.probeWaitExpiry else p

/-- A PROBE is sent, its reply wait starts, and the next PROBE is due 10 s later (R159). The 10 s count from the sending, also from a
late one: the model's choice (log 68). A reply wait that has run out by then ends first. -/
def Part.probe (p : Part) : Part :=
  let p := p.probeLapse
  let p := p.advanceTo p.cues.probeAt
  p.modCues fun q => { q.transmit .probe with probeWait := some (p.elapsed + 2000), probeAt := p.elapsed + 10000 }

/-- PROBE_TIMER. -/
def execProbeTimer (s : State) : Host.Outcome State Fault Refusal := act Part.probe s

/-- A reserved id becomes free (R169). -/
def Part.freeReserved (p : Part) (id : Nat) : Part :=
  p.modCues fun q => { q with reserved := q.reserved.filter (·.1 != id) }

/-- 5 s after the STOP of a reset its reserved id becomes free (R169). -/
def Part.reservedRelease (p : Part) (id : Nat) : Part :=
  match p.cues.reserved.find? (·.1 == id) with
  | none => p
  | some it => (p.advanceTo it.2).freeReserved id

/-- RESERVED_ID_RELEASE. -/
def execReservedIdRelease (cue : Nat) (s : State) : Host.Outcome State Fault Refusal :=
  act (fun p => p.reservedRelease cue) s

/-- An input's repeat timer reaches its interval (R167). -/
def Part.repeatDue (p : Part) (i : Nat) : Part :=
  match p.cues.repeats.getD i none with
  | none => p
  | some t => ((p.advanceTo t).begin.inputRepeat i).finish

/-- INPUT_CUE_REPEAT. -/
def execInputCueRepeat (input : Fin 4) (s : State) : Host.Outcome State Fault Refusal := act (fun p => p.repeatDue input) s

/-! ## Frames from the announcer (R159 to R162) -/

/-- The wait of a record whose limit has passed without its command ends first, in an event of its own, and the answer that names the
record finds it as R164 has left it (log 2). -/
def Part.waitLapse (p : Part) (id : Nat) : Part :=
  match (p.cues.cue? id).map Cue.flight with
  | some (.sent t) => if t < p.elapsed then p.acceptWaitExpiry id else p
  | some (.accepted t) => if t < p.elapsed then p.endedWaitExpiry id else p
  | some (.stopping _ t) => if t < p.elapsed then p.stopWaitExpiry id else p
  | some .queued => p
  | none => p

/-- The reply wait of a PROBE whose limit has passed without its command ends before a reply that comes after it (R164; log 2). -/
def Part.probeReplyLapse (p : Part) : Part := if p.cues.probeWait.any (· < p.elapsed) then p.probeWaitExpiry else p

/-- A well-formed frame from the announcer: it sets the silence count to 0, is handled by `f`, and the queues are examined. -/
def Part.hear (p : Part) (f : Part → Part) : Part := (f p.heardFrame.begin).finish

/-- An answer that names a cue: a wait of its record that has run out ends first (log 2). -/
def Part.hearAnswer (p : Part) (id : Nat) (f : Part → Part) : Part := (p.waitLapse id).hear f

/-- ACCEPT (R160): the ENDED wait is 3 s for each token and 10 s. One for a record already ACCEPTED changes nothing: the model's
choice (log 63). -/
def Part.cueAccept (p : Part) (id : Nat) : Part :=
  match p.cues.cue? id with
  | none => p
  | some c =>
    match c.flight with
    | .sent _ =>
      p.modCues (·.modCue id fun c => { c with flight := .accepted (p.elapsed + 3000 * c.tokens.length + 10000) })
    | .queued | .accepted _ | .stopping _ _ => p

/-- CUE_PORT_ACCEPT. -/
def execCuePortAccept (cue : Nat) (s : State) : Host.Outcome State Fault Refusal :=
  act (fun p => p.hearAnswer cue (·.cueAccept cue)) s

/-- The reason of a REJECT is kept (R160; log 41). -/
def Part.keepReason (p : Part) (reason : Byte) : Part := p.modCues fun q => { q with lastReject := some reason }

/-- REJECT (R160, R164, R165, R166). A record STOPPING after its ENDED wait ran out is freed and latches nothing more: the model's
choice (log 23). One preempted and then cancelled counts as cancelled: the model's choice (log 80). -/
def Part.cueReject (p : Part) (id : Nat) (reason : Byte) : Part :=
  match p.cues.cue? id with
  | none => p
  | some c =>
    match c.flight with
    | .queued => p
    | .sent _ | .accepted _ | .stopping .preemption _ => (p.keepReason reason).failCue id
    | .stopping .cancellation _ | .stopping .timeout _ => (p.keepReason reason).endQuietly id

/-- CUE_PORT_REJECT. -/
def execCuePortReject (cue : Nat) (reason : Byte) (s : State) : Host.Outcome State Fault Refusal :=
  act (fun p => p.hearAnswer cue (·.cueReject cue reason)) s

/-- ENDED COMPLETE (R161; log 23). -/
def Part.cueComplete (p : Part) (c : Cue) : Part :=
  match c.flight with
  | .queued => p
  | .stopping .timeout _ => p.endQuietly c.id
  | .sent _ | .accepted _ | .stopping .preemption _ | .stopping .cancellation _ =>
    (p.endQuietly c.id).latchNat .cueDone c.id

/-- ENDED STOPPED (R161, R164, R165, R166). -/
def Part.cueStopped (p : Part) (c : Cue) : Part :=
  match c.flight with
  | .queued => p
  | .sent _ | .accepted _ => p.failCue c.id
  | .stopping .preemption _ => p.endPreempted c
  | .stopping .cancellation _ | .stopping .timeout _ => p.endQuietly c.id

/-- ENDED (R161); an ENDED that names a reserved id frees it (R169). -/
def Part.cueEnded (p : Part) (id : Nat) (outcome : EndOutcome) : Part :=
  let p := p.freeReserved id
  match p.cues.cue? id with
  | none => p
  | some c =>
    match outcome with
    | .complete => p.cueComplete c
    | .stopped => p.cueStopped c

/-- CUE_PORT_ENDED. -/
def execCuePortEnded (cue : Nat) (outcome : EndOutcome) (s : State) : Host.Outcome State Fault Refusal :=
  act (fun p => p.hearAnswer cue (·.cueEnded cue outcome)) s

/-- PROBE_REPLY: the probe wait ends, and an announcer that was LOST is UP (R159). -/
def Part.probeReply (p : Part) : Part :=
  let lost := p.cues.announcer == .lost
  let p := p.modCues fun q => { q with probeWait := none, announcer := .up }
  if lost then p.latchNat .announcerRestored 0 else p

/-- CUE_PORT_PROBE_REPLY. -/
def execCuePortProbeReply (s : State) : Host.Outcome State Fault Refusal := act (fun p => p.probeReplyLapse.hear Part.probeReply) s

/-- ZONE_STATE FAULT (R162). -/
def Part.zoneFault (p : Part) (z : Nat) : Part :=
  let off := p.modCues (·.setZone z .offline)
  match p.cues.zone z with
  | .offline => p
  | .idle => off
  | .playing c | .stopping c =>
    (off.modCues (·.modCue c (·.setOutcome (· == z) .failed))).latchNat .cueFailed c

/-- ZONE_STATE (R162); a report of a zone outside 1..8 is discarded (log 41). -/
def Part.zoneState (p : Part) (z : Nat) (r : ZoneReport) : Part :=
  if z == 0 || 8 < z then p
  else
    match r with
    | .fault => p.zoneFault z
    | .ok => if p.cues.zone z == .offline then p.modCues (·.setZone z .idle) else p

/-- CUE_PORT_ZONE_STATE. -/
def execCuePortZoneState (zone : Nat) (report : ZoneReport) (s : State) : Host.Outcome State Fault Refusal :=
  act (fun p => p.hear (·.zoneState zone report)) s

/-- A discarded frame: a broken one counts as no answer, one of an unexpected kind has reset the silence count (R159). -/
def Part.cueDiscard (p : Part) : CueDiscard → Part
  | .broken => p
  | .unexpectedKind => p.heardFrame

/-- CUE_PORT_FRAME_DISCARDED. -/
def execCuePortFrameDiscarded (why : CueDiscard) (s : State) : Host.Outcome State Fault Refusal :=
  act (fun p => p.cueDiscard why) s

end Sys2Proof.Machine
end

