-- ==== Sys2Proof/Machine/Banner.lean ====
section
/-! DEFINITION. The meanings of the commands of the Notice List and the banner (06_notices_and_the_banner_line). -/

namespace Sys2Proof.Machine

/-- An expiry in seconds that a request may give (R94, R101). -/
def expiryAllowed (e : Option Nat) : Bool := e.all fun s => 10 ≤ s && s ≤ 86400

/-- The elapsed instant of an expiry given in seconds (R94, R101). -/
def Part.expiryInstant (p : Part) (e : Option Nat) : Option Nat := e.map fun s => p.elapsed + s * 1000

/-- The origin of a notice posted on a link (R88). -/
def postOrigin : Link → NoticeOrigin
  | .information => .information
  | .control => .control

/-- Check 4 of R94: the priority taken. -/
def takenPriority (l : Link) (priority : Nat) : Nat := if l == .control && priority == 3 then 2 else priority

/-- NOTICE_POST (R94). -/
def noticePost (l : Link) (a : Nat × Option Nat × Text) (p : Part) : Answer :=
  if 3 < a.1 || a.2.2.isEmpty || 120 < a.2.2.length || !expiryAllowed a.2.1 then refuse p .invalidField
  else
    let priority := takenPriority l a.1
    match p.begin.noticeRoom priority with
    | none => refuse p .full
    | some q =>
      let made := q.createNotice .posted priority none a.2.2 (p.expiryInstant a.2.1) (postOrigin l)
      .reply made.1.finish (if priority == a.1 then .ok else .okClamped) (be 1 made.2 ++ be 1 priority)

/-- NOTICE_POST. -/
def execNoticePost (rq : Req) (s : State) : Host.Outcome State Fault Refusal :=
  act (runRequest 0x18 readNoticePost noticePost rq) s

/-- NOTICE_WITHDRAW (R96). -/
def noticeWithdraw (l : Link) (id : Nat) (p : Part) : Answer :=
  match p.notices.byId id with
  | none => refuse p .notFound
  | some n =>
    if n.kind != .posted then refuse p .notPermitted
    else if l == .control && n.origin == .information then refuse p .notOwner
    else .reply (p.begin.dropNotice n).finish .ok []

/-- NOTICE_WITHDRAW. -/
def execNoticeWithdraw (rq : Req) (s : State) : Host.Outcome State Fault Refusal :=
  act (runRequest 0x19 (readOne 1) noticeWithdraw rq) s

/-- The rotation as NOTICE_LIST gives it: the shown id or none, its page and page count, the remaining dwell (R97). -/
def Part.rotationBytes (p : Part) : List Byte :=
  match p.notices.shown with
  | none => zeros 8
  | some s =>
    1 :: be 1 s.id ++ be 1 s.page ++ be 1 (((p.notices.byId s.id).map fun n => pageCount (p.noticeText n)).getD 0)
      ++ be 4 (p.secondsUntil s.dwellEnd)

/-- The banner source as NOTICE_LIST gives it (R97). -/
def bannerSourceBytes : BannerSource → List Byte
  | .input n => 0 :: be 1 n
  | .fallback => [1]
  | .override => [2]
  | .rotation => [3]
  | .blank => [4]

/-- An entry of a NOTICE_LIST reply (R97). -/
def Part.noticeBytes (p : Part) (n : Notice) : List Byte :=
  be 1 n.id ++ [noticeKindCode n.kind] ++ be 1 n.priority ++ optBe 2 n.service ++ [noticeOriginCode n.origin]
    ++ optBe 4 (n.expiry.map p.secondsUntil) ++ textBytes (p.noticeText n)

/-- NOTICE_LIST (R97). -/
def noticeList (kn : Nat × Nat) (p : Part) : Answer :=
  if kn.1 == 0 || 16 < kn.1 || kn.2 == 0 || 6 < kn.2 then refuse p .invalidField
  else
    let l := p.notices.notices
    readOk p (be 1 l.length ++ p.rotationBytes ++ bannerSourceBytes p.bannerSource
      ++ counted p.noticeBytes ((l.drop (kn.1 - 1)).take kn.2))

/-- NOTICE_LIST. -/
def execNoticeList (rq : Req) (s : State) : Host.Outcome State Fault Refusal :=
  act (runRequest 0x1A (readTwo 1 1) (fun _ => noticeList) rq) s

/-- A posted notice reaches its expiry (R95). Each that expires has an event of its own with its own recomposition, also when several
expire at one instant: the model's choice (log 60). -/
def Part.noticeExpiry (p : Part) (id : Nat) : Part :=
  match p.notices.byId id with
  | none => p
  | some n =>
    match n.expiry with
    | none => p
    | some t => (((p.advanceTo t).begin.dropNotice n).latchNat .noticeExpired id).finish

/-- NOTICE_EXPIRY. -/
def execNoticeExpiry (notice : Nat) (s : State) : Host.Outcome State Fault Refusal :=
  act (fun p => p.noticeExpiry notice) s

/-- The elapsed time reaches the dwell end (R98). -/
def Part.rotationDwellEnd (p : Part) : Part :=
  match p.notices.shown with
  | none => p
  | some s => (p.advanceTo s.dwellEnd).begin.dwellEnd.finish

/-- ROTATION_DWELL_END. -/
def execRotationDwellEnd (s : State) : Host.Outcome State Fault Refusal := act Part.rotationDwellEnd s

/-- The Wall Composer is told when the shadow of a link is the effective one (R72, R101). -/
def Part.tellIfBanner (p : Part) (l : Link) : Part := if p.own.banner == l then p.tellWall else p

/-- A banner shadow as replies give it (R74, R101). -/
def Part.shadowBytes (p : Part) (b : BannerShadow) : List Byte :=
  textBytes b.text ++ [flagByte b.enabled] ++ optBe 4 (b.expiry.map p.secondsUntil)

/-- BANNER_SET (R101). -/
def bannerSet (l : Link) (a : Bool × Option Nat × Text) (p : Part) : Answer :=
  if 48 < a.2.2.length || !expiryAllowed a.2.1 then refuse p .invalidField
  else
    let b : BannerShadow := { text := a.2.2, enabled := a.1, expiry := p.expiryInstant a.2.1 }
    let q := p.begin
    .reply (({ q with own := q.own.setBanner l b } : Part).tellIfBanner l).finish .ok (p.shadowBytes b)

/-- BANNER_SET. -/
def execBannerSet (rq : Req) (s : State) : Host.Outcome State Fault Refusal :=
  act (runRequest 0x1B readBannerSet bannerSet rq) s

/-- The expiry of a link's banner shadow passes: its enable flag clears and its text is kept (R72, R101). The expiry that has passed
becomes absent: the model's choice (log 46). -/
def Part.shadowExpiry (p : Part) (l : Link) : Part :=
  match (p.own.bannerOf l).expiry with
  | none => p
  | some t =>
    let q := (p.advanceTo t).begin
    let b : BannerShadow := { q.own.bannerOf l with enabled := false, expiry := none }
    (({ q with own := q.own.setBanner l b } : Part).tellIfBanner l).finish

/-- BANNER_SHADOW_EXPIRY. -/
def execBannerShadowExpiry (link : Link) (s : State) : Host.Outcome State Fault Refusal :=
  act (fun p => p.shadowExpiry link) s

end Sys2Proof.Machine
end

