-- ==== Sys2Proof/Machine/Clocks.lean ====
section
/-! DEFINITION. The Clock Line Drivers (10_slave_clock_lines): evaluation, impulses, faults, parking, and the meanings of their
commands. A line is named here by its number less one. -/

namespace Sys2Proof.Machine

/-! ## Lines -/

/-- The record of a line. -/
def Clocks.line (c : Clocks) (i : Nat) : ClockLine := c.lines.getD i resetClockLine

/-- The drivers replaced by their image. -/
def Part.modClocks (p : Part) (f : Clocks → Clocks) : Part := { p with clocks := f p.clocks }

/-- One line replaced by its image. -/
def Part.modLine (p : Part) (i : Nat) (f : ClockLine → ClockLine) : Part :=
  p.modClocks fun c => { c with lines := updateAt c.lines i f }

/-- The other polarity. -/
def Polarity.reverse : Polarity → Polarity
  | .plus => .minus
  | .minus => .plus

/-- FAULTED, with either reason (R171). -/
def ClockLine.isFaulted (k : ClockLine) : Bool := k.state == .faultedOpen || k.state == .faultedOverload

/-! ## Store writes asked for (R203) -/

/-- A store write asked for: it begins at once when none is under way, else it waits (R203). -/
def Part.askWrite (p : Part) (w : StoreWrite) : Part :=
  let st := p.store
  { p with store :=
      if st.writes.isEmpty then { st with writes := [w], writeBegan := p.elapsed }
      else { st with writes := st.writes ++ [w] } }

/-! ## Impulses (R174) -/

/-- The park record is held not valid from the first impulse on, and its row is to be marked so (R174, R181). -/
def Part.spoilRecord (p : Part) : Part :=
  if p.clocks.recordValid then (p.modClocks fun c => { c with recordValid := false }).askWrite .invalidate else p

/-- An impulse starts, with the width and the gap of this moment (R174). -/
def Part.startImpulse (p : Part) (i : Nat) (retry : Bool) : Part :=
  let cfg := p.clockConfig i
  (p.modLine i fun k =>
    let m : Impulse := { polarity := k.polarity, driving := true, gap := cfg.gap, startedAt := p.elapsed,
                         phaseEnd := p.elapsed + cfg.width, openRead := false }
    { k with impulse := some m, retryImpulse := retry }).spoilRecord

/-- The drive is cut: the recovery gap counts from the cut (R174). -/
def ClockLine.cut (k : ClockLine) (now : Nat) : ClockLine :=
  { k with impulse := k.impulse.map fun m => { m with driving := false, phaseEnd := now + m.gap } }

/-- One more fault, saturating at 255 (R171). -/
def ClockLine.countFault (k : ClockLine) : ClockLine := { k with faults := min 255 (k.faults + 1) }

/-- OPEN: no movement has stepped; the line is tried again after 60 s (R175). -/
def Part.openFault (p : Part) (i : Nat) : Part :=
  let quiet := (p.clocks.line i).retryImpulse
  let p := p.modLine i fun k =>
    { (k.cut p.elapsed).countFault with state := .faultedOpen, retryAt := some (p.elapsed + 60000) }
  if quiet then p else p.latchNat .clockLineFault (i + 1)

/-- OVERLOAD: some movements may have stepped (R176). -/
def Part.overloadFault (p : Part) (i : Nat) : Part :=
  (p.modLine i fun k =>
    { (k.cut p.elapsed).countFault with
      state := .faultedOverload, uncertain := true, polarity := k.polarity.reverse }).latchNat .clockLineFault (i + 1)

/-- A delivered impulse: the position advances and the next polarity reverses (R174). -/
def ClockLine.deliver (k : ClockLine) (now : Nat) : ClockLine :=
  { k.cut now with position := k.position.map fun n => (n + 1) % k.dial, polarity := k.polarity.reverse }

/-! ## Evaluation (R170, R172, R173) -/

/-- The dial-size check of R170. -/
def ClockLine.checkDial (k : ClockLine) (dial : Nat) : ClockLine :=
  if k.dial == dial then k
  else { k with dial := dial, position := k.position.map (· % dial), uncertain := k.uncertain || k.position.isSome }

/-- The lag of a position (R173). -/
def lagOf (second dial position : Nat) : Nat := (second / 60 % dial + dial - position) % dial

/-- The lag of a line while it has one (R179). -/
def Part.lag (p : Part) (k : ClockLine) : Option Nat :=
  if p.time.valid then k.position.map (lagOf p.time.second k.dial) else none

/-- What an evaluation decides (R172, R173): the state after, whether an impulse starts, whether CLOCK_LINE_IN_STEP latches. -/
structure Decision where
  state : ClockState
  impulse : Bool
  inStep : Bool
deriving DecidableEq, Repr

/-- The first line of R172 and then of R173 that holds. -/
def decideLine (cfg : ClockConfig) (lag : Option Nat) (dial : Nat) (before : ClockState) (boundary : Bool) : Decision :=
  if !cfg.enabled then { state := .disabled, impulse := false, inStep := false }
  else
    match lag with
    | none => { state := .stopped, impulse := false, inStep := false }
    | some n =>
      if n == 0 then { state := .running, impulse := false, inStep := before == .catchingUp || before == .holding }
      else if n == 1 && boundary && before == .running then { state := .running, impulse := true, inStep := false }
      else if dial - n ≤ cfg.hold then { state := .holding, impulse := false, inStep := false }
      else { state := .catchingUp, impulse := true, inStep := false }

/-- A line's evaluation; one in FAULTED or PARKED is left as it is (R172). `boundary` says that the occasion is a minute
boundary, `retry` that an impulse it starts is a retry impulse (R175). -/
def Part.evaluate (p : Part) (i : Nat) (boundary retry : Bool) : Part :=
  let k := p.clocks.line i
  if k.isFaulted || k.state == .parked then p
  else
    let cfg := p.clockConfig i
    let k := k.checkDial cfg.dial
    let d := decideLine cfg (p.lag k) k.dial k.state boundary
    let p := p.modLine i fun _ => { k with state := d.state }
    let p := if d.impulse then p.startImpulse i retry else p
    if d.inStep then p.latchNat .clockLineInStep (i + 1) else p

/-- An occasion that a line with an impulse in flight takes up only at the impulse's end (R172). -/
def Part.evaluateFree (p : Part) (i : Nat) (boundary : Bool) : Part :=
  if (p.clocks.line i).impulse.isSome then p else p.evaluate i boundary false

/-- All four lines, in ascending line number, on a minute boundary, a step announcement or the end of the date range (R172). -/
def Part.evaluateAll (p : Part) (boundary : Bool) : Part := (List.range 4).foldl (fun p i => p.evaluateFree i boundary) p

/-! ## Parking (R180, R181) -/

/-- A line becomes PARKED (R180). -/
def ClockLine.parkNow (k : ClockLine) : ClockLine := { k with state := .parked, retryImpulse := false, retryAt := none }

/-- A line's entry in the park record: its position, unknown when it is unknown or uncertain, and its next polarity (R180). -/
def ClockLine.parkEntry (k : ClockLine) : List Byte :=
  be 2 (if k.uncertain then 65535 else k.position.getD 65535) ++ [polarityCode k.polarity]

/-- The park record with its valid mark set (R180, section 12.2). -/
def Clocks.parkRecord (c : Clocks) : List Byte := 1 :: c.lines.flatMap ClockLine.parkEntry

/-- When every line to be parked is PARKED, the park record is to be written (R180 step 2). -/
def Part.parkCheck (p : Part) : Part :=
  match p.clocks.park with
  | some k =>
    if !k.asked && k.lines.all fun i => (p.clocks.line i).state == .parked then
      (p.modClocks fun c => { c with park := some { k with asked := true } }).askWrite (.park p.clocks.parkRecord)
    else p
  | none => p

/-- Whether a line is to be parked by the park in progress (R180). -/
def Clocks.toPark (c : Clocks) (i : Nat) : Bool :=
  match c.park with
  | some k => k.lines.contains i
  | none => false

/-! ## Events of an impulse -/

/-- The OPEN comparator is read 100 ms into the drive (R175). -/
def Part.impulseOpenCheck (p : Part) (i : Nat) (currentFlows : Bool) : Part :=
  match (p.clocks.line i).impulse with
  | none => p
  | some m =>
    if m.driving && !m.openRead then
      let p := (p.advanceTo (m.startedAt + 100)).modLine i fun k =>
        { k with impulse := some { m with openRead := true } }
      if currentFlows then p else p.openFault i
    else p

/-- The OVERLOAD comparator trips during the drive (R176). -/
def Part.impulseOverload (p : Part) (i : Nat) : Part :=
  match (p.clocks.line i).impulse with
  | none => p
  | some m => if m.driving then p.overloadFault i else p

/-- The drive runs its full width without a fault: the impulse is delivered (R174). -/
def Part.impulseDriveEnd (p : Part) (i : Nat) : Part :=
  match (p.clocks.line i).impulse with
  | none => p
  | some m =>
    if m.driving then
      let p := p.advanceTo m.phaseEnd
      p.modLine i fun k => k.deliver p.elapsed
    else p

/-- The recovery gap ends, and with it the impulse: the line becomes PARKED in a park, else it is evaluated (R172, R180). The occasion
is the end of the impulse and no minute boundary, also when one came during the impulse: the model's choice (log 70). -/
def Part.impulseGapEnd (p : Part) (i : Nat) : Part :=
  match (p.clocks.line i).impulse with
  | none => p
  | some m =>
    if m.driving then p
    else
      let p := (p.advanceTo m.phaseEnd).modLine i fun k => { k with impulse := none, retryImpulse := false }
      if p.clocks.toPark i then (p.modLine i ClockLine.parkNow).parkCheck else p.evaluate i false false

/-- The retry timer expires: the line is retried (R175). -/
def Part.clockRetryExpiry (p : Part) (i : Nat) : Part :=
  match (p.clocks.line i).retryAt with
  | none => p
  | some t =>
    ((p.advanceTo t).modLine i fun k => { k with retryAt := none, state := .stopped }).evaluate i false true

/-- IMPULSE_OPEN_CHECK. -/
def execImpulseOpenCheck (line : Fin 4) (currentFlows : Bool) (s : State) : Host.Outcome State Fault Refusal :=
  act (fun p => p.impulseOpenCheck line currentFlows) s

/-- IMPULSE_OVERLOAD_TRIP. -/
def execImpulseOverloadTrip (line : Fin 4) (s : State) : Host.Outcome State Fault Refusal :=
  act (fun p => p.impulseOverload line) s

/-- IMPULSE_DRIVE_END. -/
def execImpulseDriveEnd (line : Fin 4) (s : State) : Host.Outcome State Fault Refusal :=
  act (fun p => p.impulseDriveEnd line) s

/-- IMPULSE_GAP_END. -/
def execImpulseGapEnd (line : Fin 4) (s : State) : Host.Outcome State Fault Refusal :=
  act (fun p => p.impulseGapEnd line) s

/-- CLOCK_RETRY_TIMER_EXPIRY. -/
def execClockRetryTimerExpiry (line : Fin 4) (s : State) : Host.Outcome State Fault Refusal :=
  act (fun p => p.clockRetryExpiry line) s

/-! ## Requests -/

/-- The body of CLOCK_LINE_SET's and CLOCK_LINE_RETRY's answer (R177, R178). -/
def lineBody (k : ClockLine) : List Byte := clockStateBytes k.state ++ optBe 2 k.position ++ [polarityCode k.polarity]

/-- The polarity of a CLOCK_LINE_SET: none given, given, or a code that names none (section 11.6). -/
def polarityGiven : Nat → Option (Option Polarity)
  | 0 => some (some .plus)
  | 1 => some (some .minus)
  | 255 => some none
  | _ => none

/-- A line as CLOCK_LINE_SET leaves it before its evaluation (R177). -/
def ClockLine.set (k : ClockLine) (dial position : Nat) (pol : Option Polarity) : ClockLine :=
  { k with
    dial := dial
    position := some position
    uncertain := false
    polarity := pol.getD k.polarity
    retryAt := if k.isFaulted then none else k.retryAt
    state := if k.isFaulted then .stopped else k.state }

/-- CLOCK_LINE_SET (R177). -/
def clockLineSet (l : Link) (a : Nat × Nat × Nat) (p : Part) : Answer :=
  if p.own.clockLines != l then refuse p .notOwner
  else
    let i := a.1 - 1
    let k := p.clocks.line i
    let dial := (p.clockConfig i).dial
    match polarityGiven a.2.2 with
    | none => refuse p .invalidField
    | some pol =>
      if a.1 == 0 || 4 < a.1 || dial ≤ a.2.1 then refuse p .invalidField
      else if k.impulse.isSome || p.clocks.park.isSome then refuse p .busy
      else if k.state == .parked then refuse p .notPermitted
      else if pol.isSome && !(k.isFaulted || k.position.isNone) then refuse p .invalidField
      else
        let p := (p.modLine i fun k => k.set dial a.2.1 pol).evaluate i false false
        .reply p .ok (lineBody (p.clocks.line i))

/-- A CLOCK_LINE_SET body: line, position, polarity. -/
def readClockLineSet (b : List Byte) : Option (Nat × Nat × Nat) :=
  match readFields [1, 2, 1] b with
  | some [n, pos, pol] => some (n, pos, pol)
  | _ => none

/-- CLOCK_LINE_SET. -/
def execClockLineSet (rq : Req) (s : State) : Host.Outcome State Fault Refusal :=
  act (runRequest 0x31 readClockLineSet clockLineSet rq) s

/-- A line as CLOCK_LINE_RETRY leaves it before its evaluation (R178). -/
def ClockLine.resume (k : ClockLine) : ClockLine :=
  { k with uncertain := false, retryAt := none, state := if k.isFaulted || k.state == .parked then .stopped else k.state }

/-- CLOCK_LINE_RETRY (R178). -/
def clockLineRetry (l : Link) (n : Nat) (p : Part) : Answer :=
  if p.own.clockLines != l then refuse p .notOwner
  else if n == 0 || 4 < n then refuse p .invalidField
  else if (p.clocks.line (n - 1)).impulse.isSome || p.clocks.park.isSome then refuse p .busy
  else
    let p := (p.modLine (n - 1) ClockLine.resume).evaluate (n - 1) false false
    .reply p .ok (lineBody (p.clocks.line (n - 1)))

/-- CLOCK_LINE_RETRY. -/
def execClockLineRetry (rq : Req) (s : State) : Host.Outcome State Fault Refusal :=
  act (runRequest 0x32 (readOne 1) clockLineRetry rq) s

/-- An impulse in flight as CLOCK_LINE_STATUS gives it: its polarity and whether it is a retry impulse (R179). -/
def impulseBytes (retry : Bool) (m : Impulse) : List Byte := [polarityCode m.polarity, flagByte retry]

/-- A line as CLOCK_LINE_STATUS gives it (R179). -/
def Part.lineStatus (p : Part) (i : Nat) : List Byte :=
  let k := p.clocks.line i
  clockStateBytes k.state ++ [flagByte (p.clockConfig i).enabled] ++ be 2 k.dial ++ optBe 2 k.position
    ++ [flagByte k.uncertain, polarityCode k.polarity] ++ optBytes 2 (impulseBytes k.retryImpulse) k.impulse
    ++ optBe 4 (k.retryAt.map p.secondsUntil) ++ optBe 2 (p.lag k) ++ be 1 k.faults

/-- CLOCK_LINE_STATUS (R179). -/
def clockLineStatus (p : Part) : Answer :=
  readOk p ((List.range 4).flatMap p.lineStatus ++ [flagByte p.clocks.park.isSome, flagByte p.clocks.recordValid])

/-- CLOCK_LINE_STATUS. -/
def execClockLineStatus (rq : Req) (s : State) : Host.Outcome State Fault Refusal :=
  act (runRequest 0x30 readEmpty (fun _ _ => clockLineStatus) rq) s

/-- A park begins: the enabled lines are to be parked, and those without an impulse become PARKED at once (R180). -/
def Part.startPark (p : Part) (lines : List Nat) : Part :=
  let p := p.modClocks fun c => { c with park := some { lines := lines, asked := false } }
  (lines.foldl (fun p i => if (p.clocks.line i).impulse.isSome then p else p.modLine i ClockLine.parkNow) p).parkCheck

/-- PARK_CLOCKS (R180). -/
def parkClocks (l : Link) (p : Part) : Answer :=
  if p.own.clockLines != l then refuse p .notOwner
  else if p.clocks.park.isSome then refuse p .busy
  else
    let lines := (List.range 4).filter fun i => (p.clockConfig i).enabled
    .reply (p.startPark lines) .ok (be 1 lines.length)

/-- PARK_CLOCKS. -/
def execParkClocks (rq : Req) (s : State) : Host.Outcome State Fault Refusal :=
  act (runRequest 0x33 readEmpty (fun l _ => parkClocks l) rq) s

end Sys2Proof.Machine
end

