-- ==== Sys2Proof/Machine/Running.lean ====
section
/-! DEFINITION. The Running Status Unit (03) and the Change Tracker (05), and a record handed on (02, R23). -/

namespace Sys2Proof.Machine

/-! ## The computed fields (R43 to R48) -/

/-- Delay minutes M (R43). -/
def delayMinutes (c : Running) (sched : Int) : Option Nat :=
  match c.expected, c.unknown with
  | some e, false => some (if e - sched ≤ 0 then 0 else min 999 ((e - sched + 30) / 60).toNat)
  | some _, true => none
  | none, _ => none

/-- The new shown-late flag (R44), from the late threshold `l`, the hysteresis `h`, the previous flag and M. -/
def newLate (l h : Nat) (previous : Bool) : Option Nat → Bool
  | none => false
  | some m =>
    if previous then (if h ≤ l then !(m ≤ l - h) else m != 0)
    else l < m

/-- The display state (R46). -/
def displayOf (c : Running) (m : Option Nat) (late : Bool) : Display :=
  match c.status with
  | .departed => .departed
  | .cancelled => .cancelled
  | .closed => .closed
  | .boarding => .boarding
  | .normal => if c.unknown then .delayed else if late then .expected (m.getD 0) else .onTime

/-- The effective departure F (R47). -/
def effectiveDeparture (sched : Int) (m : Option Nat) (late : Bool) : Int :=
  if late then sched + 60 * (m.getD 0 : Nat) else sched

/-- The ordering key K (R48), with the resequence threshold `q`. -/
def orderingKey (q : Nat) (sched : Int) (status : Status) (m : Option Nat) (late : Bool) : Int :=
  if 0 < q && late && q ≤ m.getD 0 && status != .cancelled then effectiveDeparture sched m late else sched

/-- The stages of sections 3.2 to 3.5: the computed fields of a record, with the thresholds of the working copy (R41, R42). -/
def Part.computed (p : Part) (r : Record) : Record :=
  let m := delayMinutes r.running r.sched
  let late := newLate p.lateL p.hystH r.late m
  { r with
    minutes := m
    late := late
    display := displayOf r.running m late
    eff := effectiveDeparture r.sched m late
    key := orderingKey p.reseqQ r.sched r.running.status m late }

/-! ## The triggers (R49 to R55) -/

/-- The unknown-delay condition (R52). -/
def Running.unknownCondition (c : Running) : Bool :=
  c.unknown && (c.status == .normal || c.status == .boarding || c.status == .closed)

/-- Whether the effective status becomes `st` (R49). -/
def becomes (before after : Running) (st : Status) : Bool := after.status == st && before.status != st

/-- Whether the delay trigger fires (R50), with the notice threshold `n` and the notice step `step`. -/
def delayFires (n step : Nat) (r : Record) : Bool :=
  r.running.status == .normal && r.late && n ≤ r.minutes.getD 0 &&
    (match r.announcedDelay with
     | none => true
     | some a => a + step ≤ r.minutes.getD 0)

/-- The withdrawals and cue removals of R51 to R54. -/
def Part.triggerWithdrawals (p : Part) (before : Running) (r : Record) : Part :=
  let now := r.running
  let ends := becomes before now .cancelled || becomes before now .departed
  let p :=
    if ends || (!r.late && r.announcedDelay.isSome) then
      (p.modRecord r.id fun r => { r with announcedDelay := none }).withdrawNotice .delay (some r.id)
    else p
  let p := if ends then (p.withdrawNotice .unknown (some r.id)).removeAuto r.id [.delay, .boarding] else p
  let p :=
    if before.status == .cancelled && now.status != .cancelled then p.withdrawNotice .cancel (some r.id) else p
  if before.unknownCondition && !now.unknownCondition then p.withdrawNotice .unknown (some r.id) else p

/-- The notices and cues asked for, in the order of R55, then the DELAY_NOTICE latching. -/
def Part.triggerRequests (p : Part) (before : Running) (r : Record) : Part :=
  let now := r.running
  let p :=
    if becomes before now .cancelled then
      let p := p.askNotice .cancel (some r.id)
      if r.autoCue then p.askRecordCue .cancel r.id else p
    else p
  let p := if !before.unknownCondition && now.unknownCondition then p.askNotice .unknown (some r.id) else p
  let fires := delayFires p.noticeN p.stepP r
  let p :=
    if fires then
      let p := p.askNotice .delay (some r.id)
      let p := if r.autoCue then p.askRecordCue .delay r.id else p
      p.modRecord r.id fun r => { r with announcedDelay := r.minutes }
    else p
  let p :=
    if becomes before now .boarding && r.autoCue && now.platform.isSome then p.askRecordCue .boarding r.id else p
  if fires then p.latchNat .delayNotice r.id else p

/-- The triggers of a computation, against the effective fields before the event (R49). -/
def Part.triggers (p : Part) (before : Running) (id : Nat) : Part :=
  match p.record? id with
  | none => p
  | some r =>
    let p := p.triggerWithdrawals before r
    match p.record? id with
    | none => p
    | some r => p.triggerRequests before r

/-! ## The Change Tracker (R75 to R84) -/

/-- How a change of the effective platform is classified (R75). -/
inductive PlatformClass where
  | reversal (original : Nat)
  | allocation
  | withdrawal (old : Nat)
  | change (old new : Nat)
  | same
deriving DecidableEq, Repr

/-- The first line of R75 that fits. -/
def classify (mark : Option Mark) (before after : Option Nat) : PlatformClass :=
  if before == after then .same
  else
    match after, mark.map (·.original) with
    | some q, some o =>
      if q == o then .reversal o
      else
        match before with
        | none => .allocation
        | some b => .change b q
    | some q, none =>
      match before with
      | none => .allocation
      | some b => .change b q
    | none, _ =>
      match before with
      | none => .same
      | some b => .withdrawal b

/-- NORMAL, BOARDING or CLOSED (R77). -/
def Status.running (s : Status) : Bool := s == .normal || s == .boarding || s == .closed

/-- Steps 1 and 2 of R77: the original platform is kept or recorded, and the mark is ACTIVE with a fresh expiry. -/
def Part.startMark (p : Part) (id old : Nat) : Part :=
  p.modRecord id fun r =>
    let m : Mark := { original := (r.mark.map (·.original)).getD old, expiry := p.elapsed + p.markTime,
                      announced := (r.mark.map (·.announced)).getD false }
    { r with mark := some m }

/-- Step 3 of R77: a CHANGE notice by the effective status after the event. -/
def Part.changeNotice (p : Part) (r : Record) : Part :=
  if r.running.status.running then p.askNotice .change (some r.id) else p.withdrawNotice .change (some r.id)

/-- Step 4 of R77: queued BOARDING cues made by an earlier event are removed (log 14). -/
def Part.dropEarlierBoarding (p : Part) (id : Nat) : Part :=
  p.removeQueued fun c => c.isAutoOf id [.boarding] && countLower c.arrival p.ev.arrivalMark

/-- The mark ends (R80, R81, R83). -/
def Part.endMark (p : Part) (id : Nat) : Part := p.modRecord id fun r => { r with mark := none }

/-- A change of the effective platform from `old` to `new` (R77, R78). -/
def Part.platformChanged (p : Part) (r : Record) (old new : Nat) : Part :=
  let original := (r.mark.map (·.original)).getD old
  let p := ((p.startMark r.id old).changeNotice r).dropEarlierBoarding r.id
  let p :=
    if r.autoCue && r.running.status.running then
      p.askCue .change r.id new [p.zoneOfPlatform original, p.zoneOfPlatform old, p.zoneOfPlatform new]
    else p
  p.latchNat .platformChanged r.id

/-- A withdrawal of the platform `old` (R79). -/
def Part.platformWithdrawn (p : Part) (r : Record) (old : Nat) : Part :=
  let p := ((p.startMark r.id old).changeNotice r).dropEarlierBoarding r.id
  (p.removeAuto r.id [.change]).latchNat .platformChanged r.id

/-- An allocation (R80): it ends an ACTIVE mark and asks for nothing. -/
def Part.platformAllocated (p : Part) (r : Record) : Part :=
  if r.mark.isSome then (p.endMark r.id).withdrawNotice .change (some r.id) else p

/-- A reversal to the original platform (R81), announced only when a CHANGE cue of the mark was sent. -/
def Part.platformReversed (p : Part) (r : Record) (before : Option Nat) (original : Nat) : Part :=
  let p := (p.withdrawNotice .change (some r.id)).removeAuto r.id [.change]
  let p :=
    if (r.mark.map (·.announced)).getD false && r.autoCue && r.running.status.running then
      p.askCue .change r.id original (p.zoneOfPlatform original :: (before.map p.zoneOfPlatform).toList)
    else p
  (p.endMark r.id).latchNat .platformChanged r.id

/-- The Change Tracker's processing of the effective platform (R75). -/
def Part.trackPlatform (p : Part) (before : Running) (r : Record) : Part :=
  match classify r.mark before.platform r.running.platform with
  | .same => p
  | .reversal o => p.platformReversed r before.platform o
  | .allocation => p.platformAllocated r
  | .withdrawal old => p.platformWithdrawn r old
  | .change old new => p.platformChanged r old new

/-- Marks of services cancelled, departed or reinstated (R84; log 13). `r` is the record as it was handed to the tracker. A status
that passes from CANCELLED to DEPARTED only withdraws: the notice is asked for again at a reinstatement to NORMAL, BOARDING or
CLOSED alone, the model's choice (log 48). -/
def Part.trackStatus (p : Part) (before : Running) (r : Record) : Part :=
  let now := r.running
  let markAfter := ((p.record? r.id).bind (·.mark)).isSome
  let p :=
    if (becomes before now .cancelled || becomes before now .departed) && (r.mark.isSome || markAfter) then
      (p.withdrawNotice .change (some r.id)).removeAuto r.id [.change]
    else p
  if before.status == .cancelled && now.status.running && before.platform == now.platform && markAfter then
    p.askNotice .change (some r.id)
  else p

/-- The Change Tracker on a record handed on. -/
def Part.track (p : Part) (before : Running) (id : Nat) : Part :=
  match p.record? id with
  | none => p
  | some r => (p.trackPlatform before r).trackStatus before r

/-! ## Handing on (R23) -/

/-- The record moved to its place in the table order (R36). -/
def placeRecord (id : Nat) (l : List Record) : List Record :=
  match l.find? (·.id == id) with
  | none => l
  | some r => insertBy recordBefore r (l.filter (·.id != id))

/-- The whole table put in order (R36). -/
def sortRecords (l : List Record) : List Record := sortBy recordBefore l

/-- A record handed on within an event (R23): computation and triggers, the Change Tracker, its place, the Composer told. The
retirement check is made when the event closes (R38; log 12). -/
def Part.handOn (p : Part) (before : Running) (id : Nat) : Part :=
  let p := p.modRecord id p.computed
  let p := (p.triggers before id).track before id
  let p := (p.mapRecords (placeRecord id)).tellWall
  { p with ev := { p.ev with handedOn := p.ev.handedOn ++ [id] } }

/-- The effective fields a new record is compared with (R28, R49). -/
def creationBaseline : Running := { platform := none, expected := none, unknown := false, status := .normal }

/-- The tracking fields the Departure Table keeps, after a change of the effective fields from `before` (R22). -/
def Part.tracked (p : Part) (before : Running) (origin : ChangeOrigin) (r : Record) : Record :=
  { r with
    origin := if r.running == before then r.origin else origin
    departedAt :=
      if r.running.status == .departed then
        (if before.status == .departed then r.departedAt else some (p.tableNow.getD 0))
      else none }

/-! ## Retirement (R37, R38) and rollover (R39) -/

/-- The retire instant, in service seconds (R37). -/
def Part.retireInstant (p : Part) (r : Record) : Int :=
  match r.running.status with
  | .departed => r.departedAt.getD 0 + p.departedDwell
  | .cancelled => r.sched + p.cancelHold
  | .normal | .boarding | .closed => if r.running.unknown then r.sched + 21600 else r.eff + p.graceG

/-- Whether a record's retire instant is at or before now (R38). -/
def Part.retireDue (p : Part) (r : Record) : Bool :=
  match p.tableNow with
  | none => false
  | some now => p.retireInstant r ≤ now

/-- A record deleted: its automatic notices are withdrawn, its queued cues removed, the Composer told (R32, R38). -/
def Part.deleteRecord (p : Part) (id : Nat) : Part :=
  (((p.mapRecords (·.filter (·.id != id))).withdrawAll id).removeAuto id allTemplates).tellWall

/-- A record retired (R38). -/
def Part.retire (p : Part) (id : Nat) : Part := (p.deleteRecord id).latchNat .serviceRetired id

/-- The retirement check over the records `sel` picks, in table order (R38). -/
def Part.retireCheck (p : Part) (sel : Record → Bool) : Part :=
  ((p.table.records.filter fun r => sel r && p.retireDue r).map (·.id)).foldl Part.retire p

/-- The end of an event that may have handed records on: the retirement check of those records, then the end of the event
(R23, R38; log 12). -/
def Part.settle (p : Part) : Part := (p.retireCheck fun r => p.ev.handedOn.contains r.id).finish

/-- Whether a record leaves at a rollover (R39 step 1). -/
def Record.oldDay (r : Record) : Bool := r.eff < 86400 || (r.running.unknown && r.sched < 86400)

/-- A copy shifted into the new service day (R39 step 2). -/
def Running.shift (c : Running) : Running := { c with expected := c.expected.map (· - 86400) }

/-- A record shifted into the new service day (R39 step 2). -/
def Record.shift (r : Record) : Record :=
  { r with sched := r.sched - 86400, info := r.info.shift, ctl := r.ctl.map Running.shift,
           departedAt := r.departedAt.map (· - 86400) }

/-- The Departure Table's part of a rollover (R39, R57). The retirement check that R39 ends with is the one of the second boundary or
of the step announcement that follows (log 45). -/
def Part.tableRollover (p : Part) : Part :=
  let p := ((p.table.records.filter Record.oldDay).map (·.id)).foldl Part.retire p
  (p.mapRecords fun l => sortRecords (l.map fun r => p.computed r.shift)).tellWall

/-- One rollover (R16): the service date advances by one day, the table performs its part, ROLLOVER_DONE latches. -/
def Part.rollover (p : Part) : Part :=
  match p.time.serviceDay with
  | none => p
  | some d =>
    let p := { p with time := { p.time with serviceDay := some (d + 1) } }
    p.tableRollover.latch .rolloverDone (BitVec.ofInt 16 (d + 1))

/-- Every record computed with new thresholds, in the table order as it stood, then the order re-established and the
retirement check made for every record (R56). -/
def Part.recomputeAll (p : Part) : Part :=
  let p := p.table.records.foldl (fun p r => (p.modRecord r.id p.computed).triggers r.running r.id) p
  ((p.mapRecords sortRecords).tellWall).retireCheck fun _ => true

end Sys2Proof.Machine
end

