-- ==== Sys2Proof/Machine/Control.lean ====
section
/-! DEFINITION. The meanings of ASSIGN, OWNERSHIP_READ (04_shared_control_of_platforms_and_resources), HEARTBEAT and the feed's
timers (11, R193, R194). -/

namespace Sys2Proof.Machine

/-! ## ASSIGN (R59, R61 to R68, R73) -/

/-- A resource of the Ownership Table (R59). -/
inductive Resource where
  | platform (n : Nat)
  | zone (n : Nat)
  | banner
  | time
  | clockLines
  | wall
deriving DecidableEq, Repr

/-- The resource a code names (R59). -/
def resourceOf (code : Nat) : Option Resource :=
  if code == 0 then none
  else if code ≤ 32 then some (.platform code)
  else if code ≤ 40 then some (.zone (code - 32))
  else if code == 41 then some .banner
  else if code == 42 then some .time
  else if code == 43 then some .clockLines
  else if code == 44 then some .wall
  else none

/-- Whether a value is defined for a resource (R61 check 2). -/
def Resource.allows (r : Resource) (v : Nat) : Bool :=
  match r with
  | .zone _ => v ≤ 2
  | .platform _ | .banner | .time | .clockLines | .wall => v ≤ 1

/-- The value a resource holds, as it is coded (R59). -/
def Part.holds (p : Part) : Resource → Nat
  | .platform n => linkCode (p.own.platforms.getD (n - 1) .information)
  | .zone n => zoneModeCode (p.zoneMode n)
  | .banner => linkCode p.own.banner
  | .time => linkCode p.own.time
  | .clockLines => linkCode p.own.clockLines
  | .wall => linkCode p.own.wall

/-- Whether a link may ask for a value of a resource in a feed state (R62, R63). -/
def assignPermitted (l : Link) (feed : FeedState) (r : Resource) (v : Nat) : Bool :=
  match l with
  | .information => true
  | .control =>
    v == 0 ||
      (match r with
       | .platform _ | .zone _ => feed != .live
       | .banner | .time | .clockLines | .wall => false)

/-- The owner a value codes (R59). -/
def ownerOf (v : Nat) : Link := if v == 0 then .information else .control

/-- The zone mode a value codes (R59). -/
def zoneModeOf (v : Nat) : ZoneMode := if v == 0 then .infoOnly else if v == 1 then .controlOnly else .shared

/-- The Ownership Table with a resource's new value. -/
def Ownership.put (o : Ownership) (r : Resource) (v : Nat) : Ownership :=
  match r with
  | .platform n => { o with platforms := updateAt o.platforms (n - 1) fun _ => ownerOf v }
  | .zone n => { o with zones := updateAt o.zones (n - 1) fun _ => zoneModeOf v }
  | .banner => { o with banner := ownerOf v }
  | .time => { o with time := ownerOf v }
  | .clockLines => { o with clockLines := ownerOf v }
  | .wall => { o with wall := ownerOf v }

/-- A record gains a Control copy equal to its Information copy (R66, R67 step 3). -/
def Record.gainCopy (r : Record) : Record := { r with ctl := some r.info }

/-- PLATFORM n passes to the Control link (R66). -/
def Part.seizePlatform (p : Part) (n : Nat) : Part :=
  p.mapRecords (·.map fun r => if r.ctl.isNone && r.running.platform == some n then r.gainCopy else r)

/-- A record's Control copy is dropped (R67 steps 1 and 2): it is handed on if an effective item differs. -/
def Part.dropCopy (p : Part) (r : Record) : Part :=
  let bare : Record := { r with ctl := none }
  let q := p.modRecord r.id fun _ => p.tracked r.running .returned bare
  if bare.running == r.running then q else q.handOn r.running r.id

/-- Step 3 of R67, for the record with an id: a new Control copy if its Information copy's platform is Control-owned. -/
def Part.regainCopy (p : Part) (id : Nat) : Part :=
  p.modRecord id fun r => if r.info.platform.any p.controlOwned then r.gainCopy else r

/-- A record whose Control copy stands on a returned platform (R67). -/
def Part.returnRecord (p : Part) (id : Nat) : Part :=
  match p.record? id with
  | none => p
  | some r => (p.dropCopy r).regainCopy id

/-- The ids of the records whose Control copy has a given platform, in table order. -/
def Part.copiesOn (p : Part) (platform : Option Nat) : List Nat :=
  (p.table.records.filter fun r => r.ctl.any fun c => c.platform == platform).map (·.id)

/-- Whether the Control link owns a platform. -/
def Part.controlOwnsAny (p : Part) : Bool := p.own.platforms.contains .control

/-- Whether one of some records holds no Control copy. -/
def Part.lostCopy (p : Part) (ids : List Nat) : Bool := ids.any fun id => (p.record? id).any (·.ctl.isNone)

/-- PLATFORM n returns to the Information link (R67, R68). -/
def Part.releasePlatform (p : Part) (n : Nat) : Part :=
  let on := p.copiesOn (some n)
  let p := on.foldl Part.returnRecord p
  let absent := if p.controlOwnsAny then [] else p.copiesOn none
  let p := absent.foldl Part.returnRecord p
  if p.lostCopy (on ++ absent) && p.feed.state != .live then p.purgeAuto else p

/-- The effect of a change of a resource (R64). -/
def Part.assignEffect (p : Part) (r : Resource) (v : Nat) : Part :=
  match r with
  | .platform n => if v == 0 then p.releasePlatform n else p.seizePlatform n
  | .banner => p.tellWall
  | .wall => p.tellWall
  | .zone _ => p
  | .time => p
  | .clockLines => p

/-- ASSIGN (R61). -/
def assign (l : Link) (a : Nat × Nat) (p : Part) : Answer :=
  match resourceOf a.1 with
  | none => refuse p .invalidField
  | some r =>
    if !r.allows a.2 then refuse p .invalidField
    else if p.holds r == a.2 then .reply p .ok []
    else if !assignPermitted l p.feed.state r a.2 then refuse p .notPermitted
    else
      let q := { p.begin with own := p.own.put r a.2 }
      .reply ((q.assignEffect r a.2).latchNat .ownershipChanged a.1).settle .ok []

/-- ASSIGN. -/
def execAssign (rq : Req) (s : State) : Host.Outcome State Fault Refusal :=
  act (runRequest 0x06 (readTwo 1 1) assign rq) s

/-! ## OWNERSHIP_READ (R74) -/

/-- OWNERSHIP_READ (R74). -/
def ownershipRead (l : Link) (p : Part) : Answer :=
  let o := p.own
  let held := p.table.records.filter (·.ctl.isSome)
  let absent := held.filter fun r => r.running.platform.isNone
  readOk p (o.platforms.flatMap (fun w => be 1 (linkCode w)) ++ o.zones.flatMap (fun m => be 1 (zoneModeCode m))
    ++ [o.banner, o.time, o.clockLines, o.wall].flatMap (fun w => be 1 (linkCode w)) ++ [feedCode p.feed.state]
    ++ be 1 held.length ++ be 1 absent.length ++ p.shadowBytes (o.bannerOf l) ++ be 1 (o.brightOf l))

/-- OWNERSHIP_READ. -/
def execOwnershipRead (rq : Req) (s : State) : Host.Outcome State Fault Refusal :=
  act (runRequest 0x07 readEmpty (fun l _ => ownershipRead l) rq) s

/-! ## The feed (R193, R194) -/

/-- The feed replaced by its image. -/
def Part.modFeed (p : Part) (f : Feed → Feed) : Part := { p with feed := f p.feed }

/-- The feed returns to LIVE, with the subject of FEED_RESTORED (R194). -/
def Part.feedRestored (p : Part) (subject : Nat) : Part :=
  ((p.modFeed fun f => { f with state := .live, staleAt := none }).tellWall).latchNat .feedRestored subject

/-- A heartbeat taken (R193, R194). -/
def Part.takeHeartbeat (p : Part) (toggle : Nat) : Part :=
  let p := p.modFeed fun f => { f with lastToggle := some toggle, heartbeatAt := some (p.elapsed + p.heartbeatPeriod) }
  match p.feed.state with
  | .live => p
  | .stale => (p.withdrawNotice .stale none).feedRestored 1
  | .lost => p.feedRestored 2

/-- The body of a HEARTBEAT answer: the feed state and the last taken toggle (R193). The toggle has its presence byte, though it is never
absent there: the model's choice (log 72). -/
def Feed.body (f : Feed) : List Byte := feedCode f.state :: optBe 1 f.lastToggle

/-- HEARTBEAT (R193). -/
def heartbeat (toggle : Nat) (p : Part) : Answer :=
  if 1 < toggle then refuse p .invalidField
  else if p.feed.lastToggle == some toggle then .reply p .sequence p.feed.body
  else
    let p := (p.begin.takeHeartbeat toggle).finish
    .reply p .ok p.feed.body

/-- HEARTBEAT. -/
def execHeartbeat (rq : Req) (s : State) : Host.Outcome State Fault Refusal :=
  act (runRequest 0x04 (readOne 1) (fun _ => heartbeat) rq) s

/-- The heartbeat timer expires: the feed is STALE (R93, R150, R194). -/
def Part.heartbeatExpiry (p : Part) : Part :=
  match p.feed.heartbeatAt with
  | none => p
  | some t =>
    let p := (p.advanceTo t).begin
    let p := p.modFeed fun f => { f with state := .stale, heartbeatAt := none, staleAt := some (p.elapsed + p.staleLimit) }
    ((((p.askNotice .stale none).purgeAuto).tellWall).latchNat .feedStale 0).finish

/-- HEARTBEAT_TIMER_EXPIRY. -/
def execHeartbeatTimerExpiry (s : State) : Host.Outcome State Fault Refusal := act Part.heartbeatExpiry s

/-- The stale timer expires: the feed is LOST (R93, R194). -/
def Part.staleExpiry (p : Part) : Part :=
  match p.feed.staleAt with
  | none => p
  | some t =>
    let p := (p.advanceTo t).begin.modFeed fun f => { f with state := .lost, staleAt := none }
    ((((p.withdrawNotice .stale none)).tellWall).latchNat .feedLost 0).finish

/-- STALE_TIMER_EXPIRY. -/
def execStaleTimerExpiry (s : State) : Host.Outcome State Fault Refusal := act Part.staleExpiry s

end Sys2Proof.Machine
end

