-- ==== Sys2Proof/Machine/Inputs.lean ====
section
/-! DEFINITION. The Wall Input Monitor (12_wall_inputs_and_stored_settings, 12.1): levels, qualification, actions, and the
meanings of its commands. An input is named here by its number less one. -/

namespace Sys2Proof.Machine

/-- One input replaced by its image. -/
def Part.modInput (p : Part) (i : Nat) (f : WallInput → WallInput) : Part := { p with inputs := updateAt p.inputs i f }

/-- The movement of an input at a change of level, its mode not being OFF (R198). -/
def WallInput.levelMove (w : WallInput) (now qualify : Nat) : WallInput :=
  match w.state, w.asserted with
  | .idle, true => { w with state := .qualifying, timer := some (now + qualify) }
  | .qualifying, false => { w with state := .idle, timer := none }
  | .active, false => { w with state := .releasing, timer := some (now + qualify) }
  | .releasing, true => { w with state := .active, timer := none }
  | .idle, false | .qualifying, true | .active, true | .releasing, false => w

/-- The actions of an input begin: the Composer is told, and the input's cue starts (R199). -/
def Part.actionsBegin (p : Part) (i : Nat) : Part := p.tellWall.inputStart i

/-- The actions of an input end: the Composer is told, and the Cue Scheduler is given the input end (R199). -/
def Part.actionsEnd (p : Part) (i : Nat) : Part := p.tellWall.inputEnd i

/-- The timer has reached the qualify time (R198, R199). -/
def Part.qualified (p : Part) (i : Nat) : Part :=
  let isAct := (p.inputConfig i).mode == .act
  match (p.input i).state with
  | .qualifying =>
    let p := (p.modInput i fun w => { w with state := .active, timer := none, acting := isAct }).latchNat .inputChanged (i + 1)
    if isAct then p.actionsBegin i else p
  | .releasing =>
    let p := (p.modInput i fun w => { w with state := .idle, timer := none, acting := false }).latchNat .inputChanged (i + 1)
    if isAct then p.actionsEnd i else p
  | .idle | .active => p

/-- The qualification timer of an input runs out (R198). -/
def Part.qualificationExpiry (p : Part) (i : Nat) : Part :=
  match (p.input i).timer with
  | none => p
  | some t => ((p.advanceTo t).begin.qualified i).finish

/-- QUALIFICATION_TIMER_EXPIRY. -/
def execQualificationTimerExpiry (input : Fin 4) (s : State) : Host.Outcome State Fault Refusal :=
  act (fun p => p.qualificationExpiry input) s

/-- Whether the qualification timer of an input that QUALIFIES or RELEASES has passed the qualify time without its command. -/
def Part.inputOverdue (p : Part) (i : Nat) : Bool :=
  let w := p.input i
  (w.state == .qualifying || w.state == .releasing) && w.timer.any (· < p.elapsed)

/-- A qualification timer that has passed the qualify time is taken before a change of level that comes after it, in an event of its
own (R198; log 2). -/
def Part.inputLapse (p : Part) (i : Nat) : Part := if p.inputOverdue i then p.qualificationExpiry i else p

/-- An input's level changes (R198); the same level again is no change. -/
def Part.inputLevel (p : Part) (i : Nat) (asserted : Bool) : Part :=
  if (p.input i).asserted == asserted then p
  else
    let p := p.inputLapse i
    let cfg := p.inputConfig i
    p.modInput i fun w =>
      let w := { w with asserted := asserted }
      if cfg.mode == .off then w else w.levelMove p.elapsed cfg.qualify

/-- INPUT_LEVEL_CHANGE. The level is the contact's own: it changes without power too, and then nothing else does (log 19). -/
def execInputLevelChange (input : Fin 4) (asserted : Bool) (s : State) : Host.Outcome State Fault Refusal :=
  if s.part.powered then act (fun p => p.inputLevel input asserted) s
  else .next { s with part := s.part.modInput input fun w => { w with asserted := asserted } }

/-! ## Changes of configuration (R198, R199, R200) -/

/-- ACTIVE or RELEASING. -/
def WallInput.isOn (w : WallInput) : Bool := w.state == .active || w.state == .releasing

/-- Whether an input's actions have begun and not ended, after a change of its configuration from `old` to `new`: they begin at a
change to ACT while it is ACTIVE, and with its first cue tokens while it is in ACT mode; they end at a change from ACT (R199;
log 26). -/
def WallInput.actingUnder (w : WallInput) (old new : InputConfig) : Bool :=
  new.mode == .act &&
    (w.acting || (old.mode != .act && w.state == .active)
      || (old.mode == .act && w.isOn && old.tokens.isEmpty && !new.tokens.isEmpty))

/-- An input under a change of its configuration from `old` to `new` (R198, R199). -/
def WallInput.configMove (w : WallInput) (old new : InputConfig) (now : Nat) : WallInput :=
  if new.mode == .off then { w with state := .idle, timer := none, acting := false }
  else if old.mode == .off && w.asserted then
    { w with state := .qualifying, timer := some (now + new.qualify), acting := false }
  else { w with acting := w.actingUnder old new }

/-- What a change of an input's configuration gives the other blocks (R198, R199), for an input that stood as `w` before it:
INPUT_CHANGED at a change to OFF, the beginning or end of its actions, and the changes while they are in force. -/
def Part.configConsequences (p : Part) (i : Nat) (w : WallInput) (old new : InputConfig) : Part :=
  let p := if new.mode == .off && old.mode != .off && w.isOn then p.latchNat .inputChanged (i + 1) else p
  if !w.isOn then p
  else if old.mode == .act && new.mode != .act then p.actionsEnd i
  else if old.mode != .act && new.mode == .act then (if w.state == .active then p.actionsBegin i else p.tellWall)
  else if old.mode == .act then
    let p := if old != new then p.tellWall else p
    if !old.tokens.isEmpty && new.tokens.isEmpty then p.inputEnd i
    else if old.tokens.isEmpty && !new.tokens.isEmpty then p.inputStart i
    else p
  else p

/-- A change of one input's configuration within a SETTINGS_WRITE (R198, R199); `old` is its configuration before the write. -/
def Part.inputConfigured (p : Part) (old : InputConfig) (i : Nat) : Part :=
  let w := p.input i
  let new := p.inputConfig i
  (p.modInput i fun w => w.configMove old new p.elapsed).configConsequences i w old new

/-- The change of every input's configuration, `rows` being the working copy before it; the inputs are taken in ascending order, the
model's choice (log 76). -/
def Part.inputsConfigured (p : Part) (rows : List (List Byte)) : Part :=
  (List.range 4).foldl (fun p i => p.inputConfigured (inputConfigIn rows i) i) p

/-- The change of configuration a soft reset makes: the states move, and nothing latches (R200). -/
def Part.inputsReloaded (p : Part) (rows : List (List Byte)) : Part :=
  (List.range 4).foldl
    (fun p i => p.modInput i fun w => w.configMove (inputConfigIn rows i) (p.inputConfig i) p.elapsed) p

/-- Whether the cue action of an input is in force: its actions have begun and not ended, and it has cue tokens (R199, R200). -/
def Part.cueInForce (p : Part) (i : Nat) : Bool :=
  p.actionsInForce i && (p.input i).acting && !(p.inputConfig i).tokens.isEmpty

/-- After a soft reset each input whose cue action is in force gives a new input start (R200), in ascending order, the model's
choice (log 76). -/
def Part.inputRestarts (p : Part) : Part :=
  (List.range 4).foldl (fun p i => if p.cueInForce i then p.inputStart i else p) p

/-! ## INPUT_STATUS -/

/-- An input as INPUT_STATUS gives it (R200): level, state, mode, remaining tenths or none, banner, blanking and cue actions. The
tenths are rounded down (log 61), and the level is coded as a flag (log 71): the model's choices. -/
def Part.inputBytes (p : Part) (i : Nat) : List Byte :=
  let w := p.input i
  let cfg := p.inputConfig i
  let on := p.actionsInForce i
  [flagByte w.asserted, inputStateCode w.state, inputModeCode cfg.mode]
    ++ optBe 1 (w.timer.map fun t => (t - p.elapsed) / 100)
    ++ [flagByte (on && cfg.banner != .noChoice), flagByte (on && cfg.blank), flagByte (p.cueInForce i)]

/-- INPUT_STATUS (R200). -/
def inputStatus (p : Part) : Answer := readOk p ((List.range 4).flatMap p.inputBytes)

/-- INPUT_STATUS. -/
def execInputStatus (rq : Req) (s : State) : Host.Outcome State Fault Refusal :=
  act (runRequest 0x38 readEmpty (fun _ _ => inputStatus) rq) s

end Sys2Proof.Machine
end

