-- ==== Sys2Proof/Machine/PanelChain.lean ====
section
/-! DEFINITION. The Panel Chain Controller (08_the_panel_chain): polls, panel states, the spare, the link test, and the meanings
of their commands. -/

namespace Sys2Proof.Machine

/-! ## Panels and the spare -/

/-- The chain replaced by its image. -/
def Part.modChain (p : Part) (f : Chain → Chain) : Part := { p with chain := f p.chain }

/-- The panel record at a chain address replaced by its image. -/
def Part.modPanel (p : Part) (addr : Nat) (f : Panel → Panel) : Part :=
  p.modChain fun c => { c with panels := updateAt c.panels (addr - 1) f }

/-- The number of a role in a position's importance (R132). -/
def roleNumber : Role → Nat
  | .banner => 0
  | .departure k => k
  | .detail k => k
  | .clock => 50
  | .blank => 99

/-- The importance of a position: the smallest number of its lines (R132). -/
def Image.importance (i : Image) (n : Nat) : Nat :=
  (i.linesOf n).foldl (fun m l => min m (roleNumber l.content.role)) 99

/-- The spare's choice (R132): the candidate of smallest importance, the lower position number between equals. -/
def Part.spareChoice (p : Part) : Option Nat :=
  if !(p.chain.panel 13).isUp then none
  else
    ((numbersFrom 1 p.chain.positions).filter fun n => (p.chain.panel n).isFaulted).foldl
      (fun best n =>
        match best with
        | none => some n
        | some b => if p.image.importance n < p.image.importance b then some n else some b)
      none

/-- The poll in progress has been overtaken, when it goes to an address that `sel` picks: what its panel shows is set anew, so its
reply acknowledges nothing (R133, R142; log 53). -/
def Chain.supersede (c : Chain) (sel : Nat → Bool) : Chain :=
  { c with poll := c.poll.map fun q => { q with superseded := q.superseded || sel q.frame.address } }

/-- The spare's duty is set (R133); an outcome equal to the duty held, and a spare that is not fitted, change nothing. A poll of the
spare in progress was sent under the old duty and is superseded. -/
def Part.setDuty (p : Part) (d : Duty) : Part :=
  if p.chain.duty == d || p.chain.duty == .notFitted then p
  else
    let p := p.modChain fun c => { c.supersede (· == 13) with duty := d, clearDue := true }
    (p.modPanel 13 fun n => { n with ack := 0, refresh := true }).latchNat .spareChanged (d.covers.getD 0)

/-- The choice is made while the spare mode is AUTOMATIC, and applied (R132). -/
def Part.chooseSpare (p : Part) : Part :=
  if p.chain.mode == .automatic then
    p.setDuty (match p.spareChoice with
      | some n => .engaged n
      | none => .standby)
  else p

/-- A panel enters FAULTED (R129, R134). -/
def Part.enterFault (p : Part) (addr : Nat) (why : FaultReason) : Part :=
  let p := p.modPanel addr fun n => { n with state := .faulted why, misses := 0, recovery := 0, ack := 0, refresh := true }
  let p := p.latchNat .panelFault addr
  (if addr == 13 then p.setDuty .standby else p).chooseSpare

/-- A panel enters ACTIVE or WARM; a spare that comes so from STARTING makes the choice (R128, R132). -/
def Part.enterUp (p : Part) (addr : Nat) (st : PanelState) : Part :=
  let starting := (p.chain.panel addr).state == .starting
  let p := p.modPanel addr fun n => { n with state := st }
  let p := if st == .warm then p.latchNat .thermalWarning addr else p
  if addr == 13 && starting then p.chooseSpare else p

/-- A good reply judged from STARTING, ACTIVE or WARM (R128). -/
def Part.judge (p : Part) (addr : Nat) (temp : Int) (driver : Bool) : Part :=
  let st := (p.chain.panel addr).state
  if 85 ≤ temp then p.enterFault addr .thermal
  else if driver then p.enterFault addr .driver
  else if 70 ≤ temp then (if st == .warm then p else p.enterUp addr .warm)
  else if 65 ≤ temp then (if st == .starting then p.enterUp addr .active else p)
  else if st == .active then p
  else p.enterUp addr .active

/-- A position's own panel has left FAULTED: the spare leaves the position, and a pin there ends (R131, R136). -/
def Part.leaveRecovered (p : Part) (addr : Nat) : Part :=
  let p := if p.chain.duty == .engaged addr then p.setDuty .standby else p
  if p.chain.mode == .pinned addr then p.modChain fun c => { c with mode := .automatic } else p

/-- What the spare does when it recovers in PINNED mode: it is engaged at the pinned position again (R136). -/
def Part.repin (p : Part) : Part :=
  match p.chain.mode with
  | .pinned n => p.setDuty (.engaged n)
  | .automatic => p
  | .released => p

/-- A panel recovers (R130, R134, R136). Its recovery count stays at 8 until its next entry to FAULTED: the model's choice
(log 49). -/
def Part.recover (p : Part) (addr : Nat) (temp : Int) : Part :=
  let p := p.modPanel addr fun n => { n with state := .active, misses := 0, refresh := true }
  let p := (p.latchNat .panelRecovered addr).judge addr temp false
  (if addr == 13 then p.repin else p.leaveRecovered addr).chooseSpare

/-- The recovery count after a reply (R130). -/
def Part.setRecovery (p : Part) (addr k : Nat) : Part := p.modPanel addr fun n => { n with recovery := k }

/-- A good reply to a FAULTED panel (R130). -/
def Part.faultedReply (p : Part) (addr : Nat) (why : FaultReason) (temp : Int) (driver : Bool) : Part :=
  let reason (w : FaultReason) : Part := p.modPanel addr fun n => { n with state := .faulted w, recovery := 0 }
  if 85 ≤ temp then reason .thermal
  else if driver then reason (if why == .thermal then .thermal else .driver)
  else if why == .thermal && 65 ≤ temp then p.setRecovery addr 0
  else
    let k := (p.chain.panel addr).recovery + 1
    let p := p.setRecovery addr k
    if 8 ≤ k then p.recover addr temp else p

/-- What a good reply writes into its panel's record (R126); the reply to a superseded poll leaves the acknowledged generation and
refresh pending (R133, R142; log 53). -/
def Panel.heard (n : Panel) (poll : Poll) (temp : Int) (driver : Bool) : Panel :=
  { n with
    ack := if poll.superseded then n.ack else poll.frame.generation
    refresh := poll.superseded && n.refresh
    temperature := some temp
    driver := driver }

/-- A good reply (R126, R128, R130). -/
def Part.goodReply (p : Part) (poll : Poll) (temp : Int) (driver : Bool) : Part :=
  let addr := poll.frame.address
  let p := p.modPanel addr fun n => n.heard poll temp driver
  match (p.chain.panel addr).state with
  | .faulted why => p.faultedReply addr why temp driver
  | .starting | .active | .warm => (p.modPanel addr fun n => { n with misses := 0 }).judge addr temp driver

/-- A miss or an invalid reply (R126, R129, R130). -/
def Part.badReply (p : Part) (addr : Nat) : Part :=
  let p := p.modPanel addr fun n => { n with refresh := true }
  match (p.chain.panel addr).state with
  | .faulted _ => p.setRecovery addr 0
  | .starting | .active | .warm =>
    let k := (p.chain.panel addr).misses + 1
    if 3 ≤ k then p.enterFault addr .silent else p.modPanel addr fun n => { n with misses := k }

/-! ## Polls (R124, R125) -/

/-- The level of a panel (R120). -/
def panelLevel (global : Nat) (st : PanelState) : Nat :=
  match st with
  | .warm => global / 2
  | .faulted .thermal => 0
  | .faulted .silent | .faulted .driver | .starting | .active => global

/-- The four lines of a position with their wall line numbers (R104, R125). -/
def Image.pollLines (i : Image) (n : Nat) : List (PollLine × Nat) :=
  ((i.linesOf n).zip (numbersFrom (4 * (n - 1) + 1) 4)).map fun ln =>
    ({ number := ln.2, text := ln.1.content.text, blink := ln.1.content.blink, highlight := ln.1.content.highlight },
      ln.1.generation)

/-- The four blank lines of a spare that is not engaged (R125); they stand on no wall line, and carry number 0 (log 39). -/
def blankPollLines : List PollLine := List.replicate 4 { number := 0, text := blankText, blink := 0, highlight := 0 }

/-- The position whose lines the panel at an address shows (R125). -/
def Chain.shownPosition (c : Chain) (addr : Nat) : Option Nat := if addr == 13 then c.duty.covers else some addr

/-- The four lines a panel shows (R125). -/
def Part.panelShows (p : Part) (addr : Nat) : List PollLine :=
  match p.chain.shownPosition addr with
  | some n => (p.image.pollLines n).map (·.1)
  | none => blankPollLines

/-- The lines a poll carries (R125): all four when refresh is pending or nothing is acknowledged, else the newer ones. -/
def Part.pollCarries (p : Part) (addr : Nat) : List PollLine :=
  let n := p.chain.panel addr
  if n.refresh || n.ack == 0 then p.panelShows addr
  else
    match p.chain.shownPosition addr with
    | some k => ((p.image.pollLines k).filter fun l => !notOlder n.ack l.2).map (·.1)
    | none => []

/-- The poll of a panel composed from the image and the panel record as they stand (R125). -/
def Part.pollFrame (p : Part) (addr : Nat) : PollFrame :=
  { address := addr
    generation := p.image.generation
    level := panelLevel p.globalLevel (p.chain.panel addr).state
    clear := addr == 13 && p.chain.clearDue
    testStart := false
    testEnd := false
    lines := p.pollCarries addr }

/-- A poll is sent; the addresses `rest` follow in its cycle (R124). -/
def Part.sendPoll (p : Part) (addr : Nat) (rest : List Nat) : Part :=
  let f := p.pollFrame addr
  let shows := p.panelShows addr
  p.modChain fun c =>
    { c with
      poll := some { frame := f, shows := shows, sentAt := p.elapsed, superseded := false }
      cycleRest := rest
      clearDue := c.clearDue && addr != 13
      lastSent := some f }

/-- A cycle begins (R124): not before its instant, not while a poll or a link test is in progress or a reset incomplete. -/
def Part.startCycle (p : Part) : Part :=
  if p.chain.poll.isSome || !p.chain.cycleRest.isEmpty || p.chain.test.isRunning || p.chain.reset != .complete then p
  else
    let p := p.advanceTo p.chain.nextCycleAt
    let p := p.modChain fun c => { c with nextCycleAt := p.elapsed + 250 }
    match p.chain.polled with
    | a :: rest => p.sendPoll a rest
    | [] => p

/-- POLL_CYCLE_START. -/
def execPollCycleStart (s : State) : Host.Outcome State Fault Refusal := act Part.startCycle s

/-- The poll has been processed: the next of its cycle is sent (R124). -/
def Part.nextPoll (p : Part) : Part :=
  match p.chain.cycleRest with
  | a :: rest => p.sendPoll a rest
  | [] => p

/-- Whether a reply is good (R126). -/
def goodPanelReply (poll : Poll) (r : PanelReplyFrame) : Bool :=
  r.checkOk && r.address.toNat == poll.frame.address && r.generation.toNat == poll.frame.generation
    && decide (-40 ≤ r.temperature.toInt) && decide (r.temperature.toInt ≤ 125) && r.lineCheck == lineCheck poll.shows

/-- The end of a poll: outside a reset `f` processes it and the next poll follows; a reset's awaited reply is discarded (R143). -/
def Part.endPoll (p : Part) (f : Poll → Part → Part) : Part :=
  match p.chain.poll with
  | none => p
  | some poll =>
    let p := p.modChain fun c => { c with poll := none }
    match p.chain.reset with
    | .complete => (f poll p.begin).nextPoll.finish
    | .awaitingReply => p.modChain fun c => { c with reset := .discarded }
    | .discarded => p

/-- A reply has been gathered: it is good or invalid (R126). It is taken as one that began within the 5 ms, whenever it is commanded: the
model's choice (log 85). -/
def Part.panelReply (p : Part) (r : PanelReplyFrame) : Part :=
  p.endPoll fun poll p =>
    if goodPanelReply poll r then p.goodReply poll r.temperature.toInt (r.flags.getLsbD 0)
    else p.badReply poll.frame.address

/-- PANEL_REPLY. -/
def execPanelReply (reply : PanelReplyFrame) (s : State) : Host.Outcome State Fault Refusal :=
  act (fun p => p.panelReply reply) s

/-- No reply has begun within 5 ms, or it was broken by a gap: a miss (R126). The row does not say which, so elapsed time is left as
it is: the model's choice (log 75). -/
def Part.panelMiss (p : Part) : Part := p.endPoll fun poll p => p.badReply poll.frame.address

/-- PANEL_REPLY_MISS. -/
def execPanelReplyMiss (s : State) : Host.Outcome State Fault Refusal := act Part.panelMiss s

/-! ## PANEL_SPARE (R135) -/

/-- The spare state, with its position (R131; log 24). -/
def Chain.spareStateBytes (c : Chain) : List Byte :=
  match c.duty with
  | .notFitted => [0]
  | .standby => if (c.panel 13).isFaulted then [1] else [2]
  | .engaged n => if (c.panel 13).isFaulted then [1] else 3 :: be 1 n

/-- The body of a PANEL_SPARE answer (R135). -/
def Chain.spareBody (c : Chain) : List Byte := spareModeBytes c.mode ++ c.spareStateBytes

/-- Checks 1 to 6 of R135: the refusal, if there is one. -/
def Part.spareBarred (p : Part) (l : Link) (action position : Nat) : Option Result :=
  let pin := action == 0
  if p.own.wall != l then some .notOwner
  else if 2 < action || (pin && (position == 0 || 12 < position)) then some .invalidField
  else if p.chain.test.isRunning then some .testRunning
  else if p.chain.duty == .notFitted then some .notReady
  else if pin && (!p.chain.inUse position || !(p.chain.panel position).isFaulted) then some .invalidField
  else if pin && !(p.chain.panel 13).isUp then some .notReady
  else none

/-- The action of a PANEL_SPARE that passes its checks (R135). -/
def Part.spareAction (p : Part) (action position : Nat) : Part :=
  if action == 0 then (p.modChain fun c => { c with mode := .pinned position }).setDuty (.engaged position)
  else if action == 1 then (p.modChain fun c => { c with mode := .released }).setDuty .standby
  else (p.modChain fun c => { c with mode := .automatic }).chooseSpare

/-- PANEL_SPARE (R135). -/
def panelSpare (l : Link) (a : Nat × Nat) (p : Part) : Answer :=
  match p.spareBarred l a.1 a.2 with
  | some r => refuse p r
  | none =>
    let p := (p.begin.spareAction a.1 a.2).finish
    .reply p .ok p.chain.spareBody

/-- PANEL_SPARE_PIN; a body of another row's action is no such command (log 5). -/
def execPanelSparePin (rq : Req) (s : State) : Host.Outcome State Fault Refusal :=
  act (fun p => if isSparePin rq.body then runRequest 0x23 (readTwo 1 1) panelSpare rq p else p) s

/-- PANEL_SPARE_RELEASE; a body of another row's action is no such command (log 5). -/
def execPanelSpareRelease (rq : Req) (s : State) : Host.Outcome State Fault Refusal :=
  act (fun p => if actionIs 2 1 rq.body then runRequest 0x23 (readTwo 1 1) panelSpare rq p else p) s

/-- PANEL_SPARE_AUTOMATIC; a body of another row's action is no such command (log 5). -/
def execPanelSpareAutomatic (rq : Req) (s : State) : Host.Outcome State Fault Refusal :=
  act (fun p => if actionIs 2 2 rq.body then runRequest 0x23 (readTwo 1 1) panelSpare rq p else p) s

/-! ## The link test (R138 to R142) -/

/-- The link test replaced by its image. -/
def Part.modTest (p : Part) (f : LinkTest → LinkTest) : Part := p.modChain fun c => { c with test := f c.test }

/-- The report replaced by its image. -/
def LinkTest.modReport (t : LinkTest) (f : Report → Report) : LinkTest := { t with report := t.report.map f }

/-- Whether the pattern is being sent. -/
def LinkTest.isSending (t : LinkTest) : Bool :=
  match t.phase with
  | .running _ _ => true
  | .accepted _ => false
  | .idle => false

/-- Whether the test runs in CHAIN_ECHO mode. -/
def LinkTest.isEcho (t : LinkTest) : Bool := t.report.any (·.mode == .chainEcho)

/-- A test command to chain address 0, with the image generation and the global level of this moment (R139, R142; log 40). -/
def Part.testCommand (p : Part) (isStart : Bool) : Part :=
  let f : PollFrame := { address := 0, generation := p.image.generation, level := p.globalLevel, clear := false,
                         testStart := isStart, testEnd := !isStart, lines := [] }
  p.modChain fun c => { c with lastSent := some f }

/-- The report of a new test: every count 0, the detector SEEKING (R139, R141). -/
def newReport (mode : TestMode) : Report :=
  { mode := mode, seconds := 0, ended := none, locked := false, compared := 0, errors := 0, losses := 0, inserted := 0 }

/-- A START is accepted (R139; log 21): the test runs from here, the cycle goes no further than the poll in progress. -/
def Part.acceptTest (p : Part) (mode : TestMode) (seconds : Nat) : Part :=
  p.modChain fun c =>
    { c with
      cycleRest := []
      test := { resetTest with phase := .accepted seconds, report := some (newReport mode) } }

/-- Once the poll in progress has been processed the test begins: the pattern's transmission and the duration run (R139). -/
def Part.linkTestBegin (p : Part) : Part :=
  match p.chain.test.phase, p.chain.poll with
  | .accepted seconds, none =>
    let p := if p.chain.test.isEcho then p.testCommand true else p
    p.modTest fun t => { t with phase := .running p.elapsed (p.elapsed + seconds * 1000) }
  | _, _ => p

/-- LINK_TEST_BEGIN. -/
def execLinkTestBegin (s : State) : Host.Outcome State Fault Refusal := act Part.linkTestBegin s

/-- The whole seconds a test has run by now (R142). -/
def Part.testSeconds (p : Part) : Nat :=
  match p.chain.test.phase with
  | .running began _ => (p.elapsed - began) / 1000
  | .accepted _ => 0
  | .idle => 0

/-- The end of a link test, by its duration or by a STOP (R142; log 22). A poll still in progress, when the test had not begun, is
superseded. -/
def Part.endTest (p : Part) (how : TestEnd) : Part :=
  let seconds := p.testSeconds
  let p := if p.chain.test.isSending && p.chain.test.isEcho then p.testCommand false else p
  let p := p.modTest fun t =>
    { t.modReport fun r => { r with seconds := seconds, ended := some how } with phase := .idle, pending := 0 }
  let p := p.modChain fun c =>
    { c.supersede (fun _ => true) with
      panels := c.panels.map fun n => { n with ack := 0, refresh := true }
      cycleRest := []
      nextCycleAt := p.elapsed }
  p.chooseSpare.latchNat .linkTestState 0

/-- A link test as WALL_STATUS and WALL_TEST give its report (R137, R138, R142). -/
def Part.reportBytes (p : Part) (r : Report) : List Byte :=
  [testModeCode r.mode] ++ be 1 (if p.chain.test.isRunning then p.testSeconds else r.seconds)
    ++ optBytes 1 (fun e => [if e == TestEnd.duration then 0 else 1]) r.ended ++ [flagByte r.locked]
    ++ be 4 r.compared ++ be 4 r.errors ++ be 2 r.losses ++ be 4 r.inserted

/-- The seconds a test still has to run (R137). -/
def Part.testRemaining (p : Part) : Option Nat :=
  match p.chain.test.phase with
  | .running _ ends => some (p.secondsUntil ends)
  | .accepted seconds => some seconds
  | .idle => none

/-- The test's state and report (R137, R138). -/
def Part.testBytes (p : Part) : List Byte :=
  let t := p.chain.test
  [flagByte t.isRunning]
    ++ optBytes 1 (fun r : Report => [testModeCode r.mode]) (if t.isRunning then t.report else none)
    ++ optBe 4 p.testRemaining ++ optBytes 19 p.reportBytes t.report

/-- The mode a code names (section 11.6). -/
def testModeOf : Nat → Option TestMode
  | 0 => some .chainEcho
  | 1 => some .partLoop
  | _ => none

/-- A WALL_TEST that has passed check 1 of R138. -/
def Part.wallTestAction (p : Part) (action mode seconds : Nat) : Answer :=
  let done (q : Part) : Answer := .reply q .ok q.testBytes
  match action with
  | 0 =>
    match testModeOf mode with
    | none => refuse p .invalidField
    | some m =>
      if seconds == 0 || 120 < seconds then refuse p .invalidField
      else if p.chain.test.isRunning then refuse p .testRunning
      else done (p.acceptTest m seconds)
  | 1 => if p.chain.test.isRunning then done (p.begin.endTest .stop).finish else refuse p .notReady
  | 2 =>
    if p.chain.test.isRunning then done (p.modTest fun t => { t with pending := min 255 (t.pending + 1) })
    else refuse p .notReady
  | _ => refuse p .invalidField

/-- A WALL_TEST body: action, mode, duration. -/
def readWallTest (b : List Byte) : Option (Nat × Nat × Nat) :=
  match readFields [1, 1, 1] b with
  | some [a, m, d] => some (a, m, d)
  | _ => none

/-- WALL_TEST (R138). -/
def wallTest (l : Link) (a : Nat × Nat × Nat) (p : Part) : Answer :=
  if p.own.wall != l then refuse p .notOwner else p.wallTestAction a.1 a.2.1 a.2.2

/-- WALL_TEST_START; a body of another row's action is no such command (log 5). -/
def execWallTestStart (rq : Req) (s : State) : Host.Outcome State Fault Refusal :=
  act (fun p => if isTestStart rq.body then runRequest 0x24 readWallTest wallTest rq p else p) s

/-- WALL_TEST_STOP; a body of another row's action is no such command (log 5). -/
def execWallTestStop (rq : Req) (s : State) : Host.Outcome State Fault Refusal :=
  act (fun p => if actionIs 3 1 rq.body then runRequest 0x24 readWallTest wallTest rq p else p) s

/-- WALL_TEST_INSERT_ERROR; a body of another row's action is no such command (log 5). -/
def execWallTestInsertError (rq : Req) (s : State) : Host.Outcome State Fault Refusal :=
  act (fun p => if actionIs 3 2 rq.body then runRequest 0x24 readWallTest wallTest rq p else p) s

/-- The duration runs out (R142). -/
def Part.testDurationEnd (p : Part) : Part :=
  match p.chain.test.phase with
  | .running _ ends => ((p.advanceTo ends).begin.endTest .duration).finish
  | .accepted _ => p
  | .idle => p

/-- LINK_TEST_DURATION_END. -/
def execLinkTestDurationEnd (s : State) : Host.Outcome State Fault Refusal := act Part.testDurationEnd s

/-! ## Pattern and detector (R140, R141) -/

/-- The largest value of a 32-bit count of the report (R141). -/
def reportMax : Nat := 4294967295

/-- The generator one bit on: bit n + 11 is the exclusive-or of bits n + 2 and n; the oldest bit is bit 0 (R140). -/
def patternNext (g : BitVec 11) : BitVec 11 :=
  (g >>> 1) ||| (if (g.getLsbD 2 ^^ g.getLsbD 0) then 0x400#11 else 0#11)

/-- A bit of the pattern is transmitted, inverted while insertions are pending (R140). -/
def LinkTest.transmitBit (t : LinkTest) : LinkTest :=
  let inverted := 0 < t.pending
  let t := if inverted then t.modReport fun r => { r with inserted := min reportMax (r.inserted + 1) } else t
  { t with
    pattern := patternNext t.pattern
    pending := t.pending - 1
    lastBit := some (t.pattern.getLsbD 0 ^^ inverted) }

/-- The pattern is sent only while the test sends it. -/
def Part.patternBit (p : Part) : Part := if p.chain.test.isSending then p.modTest LinkTest.transmitBit else p

/-- TEST_PATTERN_BIT_TRANSMITTED. -/
def execTestPatternBitTransmitted (s : State) : Host.Outcome State Fault Refusal := act Part.patternBit s

/-- Eleven bits received while seeding, the first in bit 0: a seed of zeros is not taken (R141). A window begins with the next
bit. -/
def Part.detectorSeed (p : Part) (bits : BitVec 11) : Part :=
  if p.chain.test.isSending && p.chain.test.detector.isNone && bits != 0#11 then
    p.modTest fun t => { t with detector := some bits, window := { bits := 0, errors := 0 } }
  else p

/-- DETECTOR_SEEDED. -/
def execDetectorSeeded (bits : BitVec 11) (s : State) : Host.Outcome State Fault Refusal :=
  act (fun p => p.detectorSeed bits) s

/-- The bit a detector predicts next (R141). -/
def predicted (g : BitVec 11) : Bool := g.getLsbD 2 ^^ g.getLsbD 0

/-- A bit compared: while LOCKED it is counted, with its error (R141). -/
def Report.countBit (r : Report) (errors : Nat) : Report :=
  if r.locked then { r with compared := min reportMax (r.compared + 1), errors := min reportMax (r.errors + errors) } else r

/-- A received bit compared with the prediction of the detector `g`, in the window under way (R141). -/
def LinkTest.compareBit (t : LinkTest) (g : BitVec 11) (b : Bool) : LinkTest :=
  let errors := if b == predicted g then 0 else 1
  { t with
    detector := some (patternNext g)
    window := { bits := t.window.bits + 1, errors := t.window.errors + errors }
    report := t.report.map fun r => r.countBit errors }

/-- A window of 256 compared bits with `errors` errors is judged, and the next begins (R141). -/
def Part.judgeWindow (p : Part) (locked : Bool) (errors : Nat) : Part :=
  let p := p.modTest fun t => { t with window := { bits := 0, errors := 0 } }
  if locked then
    if errors ≤ 16 then p
    else
      (p.modTest fun t =>
        { t.modReport fun r => { r with locked := false, losses := min 65535 (r.losses + 1) } with detector := none }).latchNat
        .linkTestState 2
  else if errors ≤ 2 then
    (p.modTest fun t => t.modReport fun r => { r with locked := true }).latchNat .linkTestState 1
  else p.modTest fun t => { t with detector := none }

/-- A bit after the seed has been received (R141); while the detector seeds afresh there is none. -/
def Part.comparedBit (p : Part) (b : Bool) : Part :=
  match p.chain.test.detector, p.chain.test.report with
  | some g, some r =>
    let p := p.modTest fun t => t.compareBit g b
    if p.chain.test.window.bits < 256 then p else p.judgeWindow r.locked p.chain.test.window.errors
  | _, _ => p

/-- Bits of the window under way received after the seed, up to the end of the window, at which it is judged (R141; log 56). -/
def Part.detectorWindow (p : Part) (bits : List Bool) : Part :=
  if p.chain.test.isSending then bits.foldl Part.comparedBit p else p

/-- DETECTOR_WINDOW. -/
def execDetectorWindow (bits : List Bool) (s : State) : Host.Outcome State Fault Refusal :=
  act (fun p => p.detectorWindow bits) s

end Sys2Proof.Machine
end

