-- ==== Sys2Proof/Machine/Settings.lean ====
section
/-! DEFINITION. The Settings Store (12_wall_inputs_and_stored_settings, 12.2 and 12.3): the fields of the rows and their
clamping, store writes, and the meanings of the settings commands. -/

namespace Sys2Proof.Machine

/-! ## Fields (R201) and clamping (R202) -/

/-- How a field is clamped. -/
inductive FieldKind where
  | range (lo hi : Nat)
  | repeatGap
  | token
  | inputFlags
deriving DecidableEq, Repr

/-- A field of a row: its offset, its size in bytes, its kind. -/
structure Field where
  off : Nat
  size : Nat
  kind : FieldKind
deriving DecidableEq, Repr

/-- A two-bit field in which 3 is clamped to 2 (R201). -/
def clampTwoBits (v : Nat) : Nat := min 2 v

/-- A value clamped to the nearest bound of its field's range (R202). -/
def clampValue : FieldKind → Nat → Nat
  | .range lo hi, v => max lo (min hi v)
  | .repeatGap, v => if v ≤ 1 then 0 else if v == 2 then 3 else min 60 v
  | .token, v => if 32768 ≤ v then v else min 4095 v
  | .inputFlags, v => clampTwoBits (v % 4) + 4 * clampTwoBits (v / 4 % 4) + 16 * (v / 16)

/-- `n` fields of one kind, one after another from an offset on. -/
def fieldRun (off size n : Nat) (kind : FieldKind) : List Field :=
  (List.range n).map fun i => { off := off + size * i, size := size, kind := kind }

/-- A byte field with a range. -/
def byteRange (off lo hi : Nat) : Field := { off := off, size := 1, kind := .range lo hi }

/-- A two-byte field with a range. -/
def wordRange (off lo hi : Nat) : Field := { off := off, size := 2, kind := .range lo hi }

/-- The fields of a clock line in row 5 that have a range: width, gap, hold window (R170, R201). -/
def clockFields (i : Nat) : List Field :=
  [byteRange (4 * i + 1) 2 20, byteRange (4 * i + 2) 5 30, byteRange (4 * i + 3) 0 120]

/-- The fields of an input in row 5 that are clamped: mode and banner choice, qualify time, repeat interval (R201). -/
def inputFields (i : Nat) : List Field :=
  [{ off := 16 + 4 * i, size := 1, kind := .inputFlags }, byteRange (17 + 4 * i) 1 50,
    { off := 19 + 4 * i, size := 1, kind := .repeatGap }]

/-- The fields of each row that have a range (R201, R42). -/
def rowFields : Nat → List Field
  | 0 => [byteRange 0 0 23, byteRange 1 0 4, byteRange 2 5 60, wordRange 3 60 3600, byteRange 5 1 12, byteRange 7 0 15,
      byteRange 8 1 8]
  | 1 => [byteRange 0 0 9, byteRange 1 0 3, byteRange 2 1 60, byteRange 3 1 30, byteRange 4 0 120, wordRange 5 60 1800,
      wordRange 7 0 3600, wordRange 9 0 300, wordRange 11 30 600, byteRange 13 2 30]
  | 2 => fieldRun 0 1 32 (.range 0 82)
  | 3 => fieldRun 0 1 16 (.range 0 82) ++ fieldRun 16 1 32 (.range 1 8)
  | 4 => fieldRun 0 2 11 (.range 0 4095) ++ fieldRun 22 2 4 (.range 10 3600) ++ fieldRun 30 2 16 .token
  | 5 => (List.range 4).flatMap clockFields ++ (List.range 4).flatMap inputFields ++ fieldRun 32 2 16 .token
  | 6 => [byteRange 0 0 63]
  | 7 => [byteRange 0 0 63]
  | 8 => [byteRange 0 0 63]
  | 9 => [byteRange 0 0 63]
  | 10 => [byteRange 0 0 1, byteRange 3 0 1, byteRange 6 0 1, byteRange 9 0 1, byteRange 12 0 1]
  | _ => []

/-- A field of a row clamped (R202). -/
def clampField (row : List Byte) (f : Field) : List Byte :=
  let old := (row.drop f.off).take f.size
  row.take f.off ++ be f.size (clampValue f.kind (ofBe old)) ++ row.drop (f.off + f.size)

/-- Whether any byte of a field lies in `n` bytes from `off` on (R202). -/
def Field.touched (f : Field) (off n : Nat) : Bool := f.off < off + n && off < f.off + f.size

/-- The fields of a row that were written, clamped (R202). -/
def clampWritten (r off n : Nat) (row : List Byte) : List Byte :=
  ((rowFields r).filter fun f => f.touched off n).foldl clampField row

/-- Every field of a row clamped, at a load (R201). -/
def clampRow (r : Nat) (row : List Byte) : List Byte := (rowFields r).foldl clampField row

/-! ## SETTINGS_READ and SETTINGS_WRITE (R202) -/

/-- The settings replaced by their image. -/
def Part.modStore (p : Part) (f : Store → Store) : Part := { p with store := f p.store }

/-- A stored row without content, for a number that names none. -/
def noStoredRow : StoredRow := { bytes := zeros 64, check := 0, saves := 0, failed := false, worn := false }

/-- The stored copy of a row. -/
def Store.storedRow (st : Store) (r : Nat) : StoredRow := st.stored.getD r noStoredRow

/-- Whether a stored row matches its check byte (R201). -/
def StoredRow.passes (r : StoredRow) : Bool := crc8 r.bytes == r.check

/-- SETTINGS_READ (R202). -/
def settingsRead (a : Nat × Nat) (p : Part) : Answer :=
  if 10 < a.1 || 1 < a.2 then refuse p .invalidField
  else
    let st := p.store.storedRow a.1
    readOk p ((if a.2 == 0 then p.row a.1 else st.bytes) ++ [st.check, flagByte st.passes, flagByte st.failed]
      ++ be 2 st.saves)

/-- SETTINGS_READ. -/
def execSettingsRead (rq : Req) (s : State) : Host.Outcome State Fault Refusal :=
  act (runRequest 0x40 (readTwo 1 1) (fun _ => settingsRead) rq) s

/-- The five thresholds of R56. -/
def Part.thresholds (p : Part) : List Nat := [p.lateL, p.hystH, p.noticeN, p.stepP, p.reseqQ]

/-- The Composer is told of a write to row 0, 2, 3, 6, 7, 8 or 9 (R115). -/
def Part.tellOfRow (p : Part) (r : Nat) : Part := if [0, 2, 3, 6, 7, 8, 9].contains r then p.tellWall else p

/-- The blocks that act at once on a write (R56, R115, R199): `old` is the part before it. -/
def Part.afterWrite (p : Part) (old : Part) (r : Nat) : Part :=
  let p := if p.thresholds == old.thresholds then p else p.recomputeAll
  (p.tellOfRow r).inputsConfigured old.store.working

/-- A row of the working copy with bytes placed, and the same row after clamping (R202). -/
def Part.rowWritten (p : Part) (r off : Nat) (bytes : List Byte) : List Byte × List Byte :=
  let row := p.row r
  let placed := row.take off ++ bytes ++ row.drop (off + bytes.length)
  (placed, clampWritten r off bytes.length placed)

/-- SETTINGS_WRITE (R202). -/
def settingsWrite (a : Nat × Nat × List Byte) (p : Part) : Answer :=
  if p.store.frozen then refuse p .frozen
  else if 10 < a.1 || 64 < a.2.1 + a.2.2.length then refuse p .invalidField
  else if a.1 == 10 then refuse p .notPermitted
  else
    let w := p.rowWritten a.1 a.2.1 a.2.2
    let q := p.begin.modStore fun st => { st with working := updateAt st.working a.1 fun _ => w.2 }
    .reply (q.afterWrite p a.1).finish (if w.1 == w.2 then .ok else .okClamped) w.2

/-- SETTINGS_WRITE. -/
def execSettingsWrite (rq : Req) (s : State) : Host.Outcome State Fault Refusal :=
  act (runRequest 0x41 readSettingsWrite (fun _ => settingsWrite) rq) s

/-! ## Store writes (R203) -/

/-- SETTINGS_SAVE: a save that passes waits for its write (R203). -/
def settingsSave (tag : Byte) (r : Nat) (p : Part) : Answer :=
  if p.store.frozen then refuse p .frozen
  else if 10 < r then refuse p .invalidField
  else if r == 10 then refuse p .notPermitted
  else if 20000 ≤ (p.store.storedRow r).saves then refuse p .worn
  else .wait (p.askWrite (.save r)) (.save tag r)

/-- SETTINGS_SAVE. -/
def execSettingsSave (rq : Req) (s : State) : Host.Outcome State Fault Refusal :=
  act (runRequest 0x42 (readOne 1) (fun _ => settingsSave rq.tag) rq) s

/-- A stored row written: its check byte, its save count, its failed mark; beyond 20000 times it is worn (R203). -/
def StoredRow.write (r : StoredRow) (bytes : List Byte) : StoredRow :=
  { bytes := bytes, check := crc8 bytes, saves := min 20000 (r.saves + 1), failed := false,
    worn := r.worn || 20000 ≤ r.saves }

/-- The row a store write writes. -/
def StoreWrite.row : StoreWrite → Nat
  | .save r => r
  | .park _ => 10
  | .invalidate => 10

/-- The bytes a store write leaves in its row (R180, R181, R203). -/
def Part.writtenBytes (p : Part) (w : StoreWrite) : List Byte :=
  let old := (p.store.storedRow w.row).bytes
  match w with
  | .save r => p.row r
  | .park entry => entry ++ old.drop entry.length
  | .invalidate => 0 :: old.drop 1

/-- The write under way sets its stored row, and the next one that waits begins (R203). -/
def Part.performWrite (p : Part) (w : StoreWrite) : Part :=
  let bytes := p.writtenBytes w
  p.modStore fun st =>
    { st with
      stored := updateAt st.stored w.row fun r => r.write bytes
      writes := st.writes.drop 1
      writeBegan := p.elapsed }

/-- The park write is complete: the record is held valid and CLOCKS_PARKED latches (R180). -/
def Part.parkDone (p : Part) : Part :=
  match p.clocks.park with
  | some k =>
    (p.modClocks fun c => { c with park := none, recordValid := true }).latchNat .clocksParked k.lines.length
  | none => p

/-- The TAG and row of a SETTINGS_SAVE that waits on the Information link. -/
def Part.saveWait (p : Part) (r : Nat) : Option Byte :=
  match p.info.waiting with
  | some (.save tag row) => if row == r then some tag else none
  | some (.edge _ _) => none
  | some (.check _) => none
  | none => none

/-- Whether the stored row 10 gives a valid park record: its check did not fail and its valid mark is set (R181, R183). -/
def Store.recordValid (st : Store) : Bool := !(st.storedRow 10).failed && byteField (st.storedRow 10).bytes 0 != 0

/-- The part holds the park record as the stored row gives it (R181, R183). -/
def Part.readRecord (p : Part) : Part := p.modClocks fun c => { c with recordValid := p.store.recordValid }

/-- What the end of a store write gives: a save's reply, or the park's end (R180, R203). -/
def Part.reportWrite (p : Part) (w : StoreWrite) : Part :=
  match w with
  | .save r =>
    match p.saveWait r with
    | some tag => p.answerWaiting .information 0xC2 tag .ok (be 2 (p.store.storedRow r).saves)
    | none => p
  | .park _ => p.parkDone
  | .invalidate => p

/-! ## SETTINGS_CHECK (R204) -/

/-- One stored row checked: a row that fails is marked, and SETTINGS_FAULT latches if its mark was clear (R204). -/
def Part.checkRow (p : Part) (r : Nat) : Part :=
  let st := p.store.storedRow r
  if st.passes then p
  else
    let p := p.modStore fun s => { s with stored := updateAt s.stored r fun x => { x with failed := true } }
    if st.failed then p else p.latchNat .settingsFault r

/-- Every stored row checked, in row order (R204). -/
def Part.checkRows (p : Part) : Part := (List.range 11).foldl Part.checkRow p

/-- The body of a SETTINGS_CHECK answer (R204). -/
def Store.checkBody (st : Store) : List Byte := st.stored.flatMap fun r => flagByte r.passes :: be 2 r.saves

/-- SETTINGS_CHECK: it waits until no store write is under way (R204). -/
def settingsCheck (tag : Byte) (p : Part) : Answer :=
  if p.store.writes.isEmpty then
    let p := p.checkRows
    .reply p .ok p.store.checkBody
  else .wait p (.check tag)

/-- SETTINGS_CHECK. -/
def execSettingsCheck (rq : Req) (s : State) : Host.Outcome State Fault Refusal :=
  act (runRequest 0x43 readEmpty (fun _ _ => settingsCheck rq.tag) rq) s

/-- A SETTINGS_CHECK that waited is carried out once no store write is under way (R204). -/
def Part.waitingCheck (p : Part) : Part :=
  match p.info.waiting with
  | some (.check tag) =>
    if p.store.writes.isEmpty then
      let p := p.checkRows
      p.answerWaiting .information 0xC3 tag .ok p.store.checkBody
    else p
  | some (.edge _ _) => p
  | some (.save _ _) => p
  | none => p

/-- A store write finishes (R203). -/
def Part.writeComplete (p : Part) : Part :=
  match p.store.writes with
  | [] => p
  | w :: _ => ((p.performWrite w).reportWrite w).waitingCheck

/-- STORE_WRITE_COMPLETE. -/
def execStoreWriteComplete (s : State) : Host.Outcome State Fault Refusal := act Part.writeComplete s

/-! ## SETTINGS_FREEZE (R205) -/

/-- SETTINGS_FREEZE (R205). -/
def settingsFreeze (p : Part) : Answer := .reply (p.modStore fun st => { st with frozen := true }) .ok []

/-- SETTINGS_FREEZE. -/
def execSettingsFreeze (rq : Req) (s : State) : Host.Outcome State Fault Refusal :=
  act (runRequest 0x44 readEmpty (fun _ _ => settingsFreeze) rq) s

end Sys2Proof.Machine
end

