-- ==== Sys2Proof/Machine/Links.lean ====
section
/-! DEFINITION. The meanings of the Link Ports' own commands (11_message_links_and_reporting): frames received and discarded,
unknown kinds, notice frames, IDENTIFY, the event set, RESET_PART. -/

namespace Sys2Proof.Machine

/-- REQUEST_FRAME_RECEIVED (R186). -/
def execRequestFrameReceived (link : Link) (frame : RequestFrame) (s : State) : Host.Outcome State Fault Refusal :=
  act (fun p => p.receive link frame) s

/-- Whether the byte after a frame error begins a new frame: only the byte that ended a gap can, if it is SYNC (R185). -/
def startsFrame : FrameErrorCause → Bool
  | .gap next => next == 0xC5#8
  | .badLength _ => false
  | .missingStop => false
  | .badCheck => false

/-- FRAME_ERROR (R185). -/
def execFrameError (link : Link) (cause : FrameErrorCause) (s : State) : Host.Outcome State Fault Refusal :=
  act (fun p => p.frameErrorOn link (startsFrame cause)) s

/-- A request whose KIND names no request (R187 check 1). -/
def Part.unknownKind (p : Part) (l : Link) (f : RequestFrame) : Part :=
  if knownKind f.kind then p
  else if p.canExecute l f then (p.freePlace l).answer l 0xFF f.tag .unknownKind []
  else p.receive l f

/-- UNKNOWN_KIND_REQUEST. -/
def execUnknownKindRequest (link : Link) (frame : RequestFrame) (s : State) : Host.Outcome State Fault Refusal :=
  act (fun p => p.unknownKind link frame) s

/-! ## Notice frames (R186, R190) -/

/-- The notice frame that waits begins as soon as the frame being sent has ended, with the SUMMARY and the EVENT SET of that
moment (R186). -/
def Part.sendNotice (p : Part) (l : Link) : Part :=
  if (p.port l).noticeDue then
    let p := p.advanceTo ((p.port l).lineEnd.getD p.elapsed)
    if (p.port l).noticeDue then p.modPort l (·.beginNotice (p.summary l) p.elapsed) else p
  else p

/-- NOTICE_FRAME_SEND. -/
def execNoticeFrameSend (link : Link) (s : State) : Host.Outcome State Fault Refusal := act (fun p => p.sendNotice link) s

/-! ## IDENTIFY (R195) -/

/-- The capacities of the part, in the order of R195, with the bytes each takes (R197; log 24). -/
def capacityBytes : List Byte :=
  be 1 96 ++ be 1 12 ++ be 2 256 ++ be 1 20 ++ be 1 16 ++ be 1 120 ++ be 1 48 ++ be 1 48 ++ be 1 48 ++ be 1 40 ++ be 1 12
    ++ be 1 1 ++ be 1 32 ++ be 1 24 ++ be 1 4 ++ be 1 4 ++ be 1 8 ++ be 1 6 ++ be 1 24 ++ be 1 4 ++ be 1 4 ++ be 1 4
    ++ be 2 1020 ++ be 1 29 ++ be 1 11 ++ be 1 64

/-- IDENTIFY (R195). After the items that R195 lists comes the spare state, which R131 has IDENTIFY report: that it stands last is the
model's choice (log 50). -/
def identify (l : Link) (p : Part) : Answer :=
  readOk p (be 1 3 ++ capacityBytes ++ be 1 8 ++ be 1 16 ++ p.store.stored.flatMap (fun r => be 2 r.saves)
    ++ [flagByte p.store.frozen] ++ be 1 (p.port l).rate ++ be 1 p.chain.positions ++ [flagByte p.chain.fitted]
    ++ p.chain.spareStateBytes)

/-- IDENTIFY. -/
def execIdentify (rq : Req) (s : State) : Host.Outcome State Fault Refusal :=
  act (runRequest 0x01 readEmpty (fun l _ => identify l) rq) s

/-! ## The event set (R191, R192) -/

/-- The event set as EVENTS_READ_CLEAR gives it (R191). -/
def Port.eventBytes (q : Port) : List Byte :=
  setBytes q.latched ++ setBytes q.mask ++ be 2 q.frameErrors ++ q.subjects.flatMap (fun x => be 2 x.toNat)

/-- The kinds named in a clear set cleared, with their subjects, and LINK_ERROR with them (R191). -/
def Port.clearEvents (q : Port) (clear : BitVec 32) : Port :=
  { q with
    subjects := (q.subjects.zip (List.range 29)).map fun xn => if (q.latched &&& clear).getLsbD xn.2 then 0 else xn.1
    latched := q.latched &&& ~~~clear
    linkError := false }

/-- EVENTS_READ_CLEAR (R191): bits 29..31 of the clear set are not looked at. -/
def eventsReadClear (l : Link) (clear : Nat) (p : Part) : Answer :=
  .reply (p.modPort l (·.clearEvents (BitVec.ofNat 32 clear &&& 0x1FFFFFFF#32))) .ok (p.port l).eventBytes

/-- EVENTS_READ_CLEAR. -/
def execEventsReadClear (rq : Req) (s : State) : Host.Outcome State Fault Refusal :=
  act (runRequest 0x02 (readOne 4) eventsReadClear rq) s

/-- A new mask: a latched kind that it unmasks makes a notice frame due (R190, R192). -/
def Port.setMask (q : Port) (mask : BitVec 32) : Port :=
  { q with mask := mask, noticeDue := q.noticeDue || (q.latched &&& q.mask &&& ~~~mask) != 0#32 }

/-- EVENTS_MASK_SET (R192). -/
def eventsMaskSet (l : Link) (mask : Nat) (p : Part) : Answer :=
  if 0x1FFFFFFF < mask then refuse p .invalidField
  else .reply (p.modPort l (·.setMask (BitVec.ofNat 32 mask))) .ok (be 4 mask)

/-- EVENTS_MASK_SET. -/
def execEventsMaskSet (rq : Req) (s : State) : Host.Outcome State Fault Refusal :=
  act (runRequest 0x03 (readOne 4) eventsMaskSet rq) s

/-! ## RESET_PART (R196) -/

/-- RESET_PART (R196): the soft reset follows once the reply has been sent. -/
def resetPart (p : Part) : Answer := .reply { p with resetDue := true } .ok []

/-- RESET_PART. -/
def execResetPart (rq : Req) (s : State) : Host.Outcome State Fault Refusal :=
  act (runRequest 0x05 readEmpty (fun _ _ => resetPart) rq) s

end Sys2Proof.Machine
end

