-- ==== Sys2Proof/Machine/Timebase.lean ====
section
/-! DEFINITION. The Timebase and the Reference Input (01_station_time): steps, slews, the running of station time, the
reference, the source of seconds, and the meanings of their commands. -/

namespace Sys2Proof.Machine

/-- The Timebase replaced by its image. -/
def Part.modTime (p : Part) (f : Timebase → Timebase) : Part := { p with time := f p.time }

/-! ## Steps (R11, R14, R17) -/

/-- Station time set to `ms` milliseconds after a whole second; a slew is cancelled and TIME_VALID becomes true (R11). The service
date is computed directly only when time becomes valid (R14). -/
def Timebase.setTo (t : Timebase) (secs ms : Nat) : Timebase :=
  let u : Timebase :=
    { t with day := secs / 86400, second := secs % 86400, sourceMs := ms, secondLength := 1000, slew := none, valid := true }
  if t.valid then u else { u with serviceDay := some u.directDay }

/-- The rollovers a forward step performs: one for each start instant reached after that of the service date (R17). -/
def Timebase.rolloversDue (t : Timebase) (secs : Nat) : Nat :=
  match t.serviceDay with
  | none => 0
  | some d => (((secs : Int) - t.startOf d) / 86400).toNat

/-- The subject of TIME_STEPPED: the step in whole seconds, truncated toward zero and clamped (R11). -/
def stepSubject (size : Int) : BitVec 16 := BitVec.ofInt 16 (max (-32767) (min 32767 (size.tdiv 1000)))

/-- A step of station time to `ms` milliseconds after the second `secs` (R11, R17): rollovers first, then the announcement to the
Departure Table, the Clock Line Drivers and the Wall Composer, then TIME_STEPPED. The retirement check is made once, at the
announcement (R38), after all the rollovers: the model's choice (log 45). The size of a telegram's step is taken at the end of its
gap, when the step is made: the model's choice (log 66). -/
def Part.stepTime (p : Part) (secs ms : Nat) : Part :=
  let t := p.time
  let size : Int := (secs : Int) * 1000 + ms - t.instant
  let n := if t.valid && 0 < size then t.rolloversDue secs else 0
  let p := times n Part.rollover (p.modTime (·.setTo secs ms))
  let p := (p.retireCheck fun _ => true).evaluateAll false
  p.tellWall.latch .timeStepped (stepSubject size)

/-! ## Slews (R8, R9, R10) -/

/-- A slew with an offset as its remaining correction; one of magnitude 10 ms or less only ends a slew in progress (R9). -/
def Timebase.startSlew (t : Timebase) (offset : Int) : Timebase :=
  { t with slew := if offset.natAbs ≤ 10 then none else some offset }

/-- The length of a station second under a remaining correction (R9). -/
def slewedLength : Option Int → Nat
  | none => 1000
  | some c => if 0 < c then 990 else 1010

/-- The remaining correction at the end of a station second of length `len`: a slewed second moves it 10 ms towards 0, and at
10 ms or less the slew ends (R9; log 9). -/
def slewAfter (len : Nat) (c : Option Int) : Option Int :=
  match c with
  | none => none
  | some c =>
    let c := if len == slewedLength (some c) then (if 0 < c then c - 10 else c + 10) else c
    if c.natAbs ≤ 10 then none else some c

/-! ## The running of station time (R1, R2, R16) -/

/-- The next station second begins, with the source time that has passed beyond the end of the last one (R1). -/
def Timebase.tick (t : Timebase) : Timebase :=
  let slew := slewAfter t.secondLength t.slew
  let last := t.second == 86399
  { t with
    second := if last then 0 else t.second + 1
    day := if last then (if t.day == lastDay then 0 else t.day + 1) else t.day
    sourceMs := t.sourceMs - t.secondLength
    secondLength := slewedLength slew
    slew := slew }

/-- Whether the next station second is past the end of the date range (R1). -/
def Timebase.rangeEnds (t : Timebase) : Bool := t.day == lastDay && t.second == 86399

/-- A second boundary while TIME_VALID is true: a rollover if it is due, the retirement check, the Wall Composer, and at a
minute boundary the clock lines (R2, R16, R38, R172). -/
def Part.secondBoundary (p : Part) : Part :=
  let due := match p.time.serviceSeconds with
    | some s => decide (86400 ≤ s)
    | none => false
  let p := if due then p.rollover else p
  let p := (p.retireCheck fun _ => true).tellWall
  if p.time.second % 60 == 0 then p.evaluateAll true else p

/-- The end of the date range: time is no longer valid; the Wall Composer and the Clock Line Drivers are told (R1, R172). -/
def Part.rangeEnd (p : Part) : Part :=
  ((p.modTime fun t => { t with valid := false, serviceDay := none }).tellWall).evaluateAll false

/-- A station second ends and the next begins (R1, R2). -/
def Part.stationSecond (p : Part) : Part :=
  let ends := p.time.rangeEnds
  let p := ((p.advanceTo (p.elapsed + (p.time.secondLength - p.time.sourceMs))).modTime Timebase.tick).begin
  if ends then p.rangeEnd.finish
  else if p.time.valid then p.secondBoundary.finish
  else p.finish

/-- The station seconds that are over and have not been commanded end, each in an event of its own (R1, R2; log 8). None that has
begun is shorter than 990 ms, so the repetitions suffice for all that can be owed. -/
def Part.owedSeconds (p : Part) : Part :=
  times (p.time.sourceMs / 990 + 1) (fun q => if q.time.secondLength ≤ q.time.sourceMs then q.stationSecond else q) p

/-- STATION_SECOND. -/
def execStationSecond (s : State) : Host.Outcome State Fault Refusal := act Part.stationSecond s

/-! ## The reference (R5 to R10) -/

/-- The announced time of a telegram in seconds from 2000-01-01, if the telegram is valid (R5, section 11.6). -/
def telegramSeconds (bytes : List Byte) : Option Nat :=
  match bytes.map (·.toNat) with
  | [y, mo, d, h, mi, s, c] =>
    if (y + mo + d + h + mi + s + c) % 256 == 0 && y ≤ 99 && h ≤ 23 && mi ≤ 59 && s ≤ 59 then
      (dayOfDate (2000 + y) mo d).map fun n => n * 86400 + h * 3600 + mi * 60 + s
    else none
  | _ => none

/-- Whether a valid telegram that arrives now is in step (R5). An announced 2000-01-01 00:00:00 after an announced
2099-12-31 23:59:59 is not one second after it, and so out of step: the model's choice (log 44). -/
def Part.inStep (p : Part) (announced : Nat) : Bool :=
  match p.time.lastValid with
  | none => false
  | some v => v.arrival + 980 ≤ p.elapsed && p.elapsed ≤ v.arrival + 1020 && announced == v.announced + 1

/-- Entries of the large-offset run counted as glitches (R10). -/
def Timebase.addGlitches (t : Timebase) (n : Nat) : Timebase := { t with glitches := min 65535 (t.glitches + n) }

/-- The large-offset run discarded, its entries counted as glitches (R7, R10, R12). -/
def Timebase.discardRun (t : Timebase) : Timebase :=
  match t.ref with
  | .locked n run => { t.addGlitches run.length with ref := .locked n [] }
  | .absent => t
  | .qualifying _ => t
  | .holdover _ => t

/-- The elapsed time from a telegram's arrival instant to the end of the gap that ends it: more than 20 ms (R5; log 7). -/
def telegramGap : Nat := 21

/-- The correction on entry to LOCKED (R8): a step puts station time at the announced time as of the arrival instant. -/
def Part.correct (p : Part) (announced : Nat) (offset : Int) : Part :=
  if !p.time.valid then p.stepTime announced telegramGap
  else if offset.natAbs ≤ 2000 then p.modTime (·.startSlew offset)
  else p.stepTime announced telegramGap

/-- A large offset against the run (R10): it joins it, or starts a new one after the old is counted as glitches. -/
def Timebase.joinRun (t : Timebase) (n : Nat) (run : List Int) (offset : Int) : Timebase :=
  if run.all fun o => (o - offset).natAbs ≤ 1000 then { t with ref := .locked n (run ++ [offset]) }
  else { t.addGlitches run.length with ref := .locked n [offset] }

/-- A valid telegram's offset while LOCKED (R10). -/
def Part.lockedOffset (p : Part) (n : Nat) (run : List Int) (announced : Nat) (offset : Int) : Part :=
  if !p.time.valid then (p.modTime fun t => { t with ref := .locked n [] }).stepTime announced telegramGap
  else if offset.natAbs ≤ 2000 then p.modTime fun t => t.discardRun.startSlew offset
  else
    let p := p.modTime fun t => t.joinRun n run offset
    match p.time.ref with
    | .locked n [_, _, _] => (p.modTime fun t => { t with ref := .locked n [] }).stepTime announced telegramGap
    | _ => p

/-- HOLDOVER is entered (R7). -/
def Part.enterHoldover (p : Part) : Part :=
  (p.modTime fun t => { t.discardRun with ref := .holdover p.elapsed }).latchNat .timeLockChanged 3

/-- The out-of-step count of LOCKED, after the offset has been processed (R7; log 11). -/
def Part.countStep (p : Part) (ok : Bool) : Part :=
  match p.time.ref with
  | .locked n run =>
    if ok then p.modTime fun t => { t with ref := .locked 0 run }
    else if 4 ≤ n then p.enterHoldover
    else p.modTime fun t => { t with ref := .locked (n + 1) run }
  | _ => p

/-- The reference state taken on by a valid telegram (R6, R7). -/
def Part.refAdvance (p : Part) (ok : Bool) (announced : Nat) (offset : Int) : Part :=
  match p.time.ref with
  | .absent => p.modTime fun t => { t with ref := .qualifying 1 }
  | .holdover _ => p.modTime fun t => { t with ref := .qualifying 1 }
  | .qualifying n =>
    if !ok then p.modTime fun t => { t with ref := .qualifying 1 }
    else if n < 4 then p.modTime fun t => { t with ref := .qualifying (n + 1) }
    else ((p.modTime fun t => { t with ref := .locked 0 [] }).correct announced offset).latchNat .timeLockChanged 2
  | .locked n run => (p.lockedOffset n run announced offset).countStep ok

/-- 3 s after the last valid telegram LOCKED is left for HOLDOVER (R7). -/
def Part.referenceTimeout (p : Part) : Part :=
  match p.time.ref, p.time.lastValid with
  | .locked _ _, some v => (p.advanceTo (v.arrival + 3000)).enterHoldover
  | _, _ => p

/-- The timeout of LOCKED, when its 3 s have passed without its command: it comes before a valid telegram, which would begin the 3 s
anew (R7; log 2). A HOLDOVER of more than 30 s needs no such event: a telegram leads to the same run of 1 from ABSENT. -/
def Part.referenceLapse (p : Part) : Part :=
  match p.time.ref, p.time.lastValid with
  | .locked _ _, some v => if v.arrival + 3000 < p.elapsed then p.referenceTimeout else p
  | _, _ => p

/-- A telegram (R5 to R10; log 7). The station seconds that are over end first, with their slews and the end of the range, and local
station time is captured at the arrival instant, which is now (R1, R5; log 8). The gap that ends the telegram follows, with the station
seconds that end in it (R2): only then is it judged, and a valid one acted on. An invalid one is ignored. A valid one finds HOLDOVER
if more than 3 s have passed before its arrival, and is in time if its gap alone reaches beyond the 3 s or the 30 s of R7: the model's
choice (log 59). -/
def Part.telegram (p : Part) (bytes : List Byte) : Part :=
  let ended (p : Part) : Part := (p.advanceTo (p.elapsed + telegramGap)).owedSeconds
  match telegramSeconds bytes with
  | none => ended p.owedSeconds
  | some a =>
    let p := p.referenceLapse.owedSeconds
    let offset : Int := (a : Int) * 1000 - p.time.instant
    let q := (ended p).begin.modTime fun t =>
      { t with lastValid := some { arrival := p.elapsed, announced := a }, lastOffset := some offset }
    (q.refAdvance (p.inStep a) a offset).finish

/-- REFERENCE_TELEGRAM. -/
def execReferenceTelegram (bytes : List Byte) (s : State) : Host.Outcome State Fault Refusal :=
  act (fun p => p.telegram bytes) s

/-- REFERENCE_TIMEOUT. -/
def execReferenceTimeout (s : State) : Host.Outcome State Fault Refusal := act Part.referenceTimeout s

/-- 30 s after its entry HOLDOVER is left for ABSENT (R7). -/
def Part.holdoverExpiry (p : Part) : Part :=
  match p.time.ref with
  | .holdover since => (p.advanceTo (since + 30000)).modTime fun t => { t with ref := .absent }
  | _ => p

/-- HOLDOVER_EXPIRY. -/
def execHoldoverExpiry (s : State) : Host.Outcome State Fault Refusal := act Part.holdoverExpiry s

/-! ## TIME_SET and TIME_READ -/

/-- A TIME_SET body: year, month, day, second of day, force flag. -/
def readTimeSet (b : List Byte) : Option (Nat × Nat × Nat × Nat × Bool) :=
  match readFields [2, 1, 1, 4, 1] b with
  | some [y, m, d, s, f] => some (y, m, d, s, f % 2 == 1)
  | _ => none

/-- TIME_SET (R12). The station seconds that are over end before the step (R2; log 8). -/
def timeSet (l : Link) (a : Nat × Nat × Nat × Nat × Bool) (p : Part) : Answer :=
  if p.own.time != l then refuse p .notOwner
  else
    match dayOfDate a.1 a.2.1 a.2.2.1 with
    | none => refuse p .invalidField
    | some day =>
      if 86399 < a.2.2.2.1 then refuse p .invalidField
      else if p.time.ref.isLocked && !a.2.2.2.2 then refuse p .notPermitted
      else .reply (((p.owedSeconds.begin.modTime Timebase.discardRun).stepTime (day * 86400 + a.2.2.2.1) 0).finish) .ok []

/-- TIME_SET. -/
def execTimeSet (rq : Req) (s : State) : Host.Outcome State Fault Refusal :=
  act (runRequest 0x09 readTimeSet timeSet rq) s

/-- The last offset as TIME_READ reports it (R5). -/
def clampOffset (o : Int) : Int := max (-2147483648) (min 2147483647 o)

/-- TIME_READ (R13). -/
def timeRead (p : Part) : Answer :=
  let t := p.time
  readOk p (dateBytes t.day ++ be 4 t.second ++ be 2 t.millis ++ [flagByte t.valid] ++ be 1 (refCode t.ref)
    ++ [sourceCode t.source] ++ optInt 4 (t.lastOffset.map clampOffset) ++ optInt 4 t.slew ++ be 2 t.glitches
    ++ optBytes 4 dateBytes (if t.valid then t.serviceDay else none) ++ optInt 4 t.handedSeconds ++ be 1 t.startHour)

/-- TIME_READ. -/
def execTimeRead (rq : Req) (s : State) : Host.Outcome State Fault Refusal :=
  act (runRequest 0x08 readEmpty (fun _ _ => timeRead) rq) s

/-! ## The source of seconds (R3, R4) -/

/-- TIMEBASE_SELECT (R4). -/
def timebaseSelect (l : Link) (tag : Byte) (p : Part) : Answer :=
  if p.own.time != l then refuse p .notOwner
  else
    match p.time.source with
    | .oscillator => .reply p .ok []
    | .derived => if 10000 ≤ p.runningTime then .wait p (.edge tag (p.elapsed + 2)) else refuse p .notReady

/-- TIMEBASE_SELECT. -/
def execTimebaseSelect (rq : Req) (s : State) : Host.Outcome State Fault Refusal :=
  act (runRequest 0x0A readEmpty (fun l _ => timebaseSelect l rq.tag) rq) s

/-- The TAG and the limit of a TIMEBASE_SELECT that waits for an edge on a link. -/
def Part.edgeWait (p : Part) (l : Link) : Option (Byte × Nat) :=
  match (p.port l).waiting with
  | some (.edge tag limit) => some (tag, limit)
  | some (.save _ _) => none
  | some (.check _) => none
  | none => none

/-- The instant at which a wait for an edge on a link meets its limit (R4). -/
def Part.edgeLimit (p : Part) (l : Link) : Option Nat := (p.edgeWait l).map (·.2)

/-- A TIMEBASE_SELECT that waits on a link is answered (R4). -/
def Part.answerEdge (p : Part) (l : Link) (r : Result) : Part :=
  match p.edgeWait l with
  | some wait => p.answerWaiting l 0x8A wait.1 r []
  | none => p

/-- A gap of 2 ms: the running time is 0; the oscillator in use is stuck and the derived source takes over; a TIMEBASE_SELECT
that waits is refused (R3, R4), also by a gap less than 2 ms after its execution: the model's choice (log 58). -/
def Part.oscillatorGap (p : Part) : Part :=
  let stuck := p.time.source == .oscillator
  let p := p.modTime fun t => { t with edgesSince := none, source := .derived }
  let p := if stuck then p.latchNat .oscillatorSwitched 1 else p
  (p.answerEdge .information .notReady).answerEdge .control .notReady

/-- Whether the limit of a TIMEBASE_SELECT that waits has passed: no edge has come within 2 ms of its execution (R4). -/
def Part.edgeOverdue (p : Part) : Bool :=
  (p.edgeLimit .information).any (· < p.elapsed) || (p.edgeLimit .control).any (· < p.elapsed)

/-- An edge of the timekeeping oscillator: it restarts the running time if there was a gap, and completes a TIMEBASE_SELECT
that waits for it, unless its limit has passed and the gap came first (R3, R4; log 10, log 52). -/
def Part.oscillatorEdge (p : Part) : Part :=
  let p := if p.edgeOverdue then p.oscillatorGap else p
  let p := p.modTime fun t => { t with edgesSince := some (t.edgesSince.getD p.elapsed) }
  if (p.edgeWait .information).isSome || (p.edgeWait .control).isSome then
    let p := (p.modTime fun t => { t with source := .oscillator }).latchNat .oscillatorSwitched 0
    (p.answerEdge .information .ok).answerEdge .control .ok
  else p

/-- TIMEBASE_SELECT_EDGE. -/
def execTimebaseSelectEdge (s : State) : Host.Outcome State Fault Refusal := act Part.oscillatorEdge s

/-- OSCILLATOR_GAP. -/
def execOscillatorGap (s : State) : Host.Outcome State Fault Refusal := act Part.oscillatorGap s

end Sys2Proof.Machine
end

