-- ==== Sys2Proof/Machine/Resets.lean ====
section
/-! DEFINITION. Power-on reset, soft reset, the completion of the chain's reset, and the loss of power: the state each block
takes (R18, R40, R59, R72, R103, R121, R143, R169, R182, R183, R196, R200, R201). -/

namespace Sys2Proof.Machine

/-! ## The Settings Store (R201, R203) -/

/-- A stored row of free bytes and a free check byte, drawn for the free value `k` (R203; log 17, log 18). -/
def freeRow (k : Nat) (r : StoredRow) : StoredRow :=
  { r with bytes := (List.range 64).map (Config.storeByte k), check := Config.storeByte k 64 }

/-- A row as a store write cut off by a loss of power leaves it: its contents and whether its save count had risen are free
(R203; log 17). Such a write does not count as one beyond 20000: the model's choice (log 77). -/
def tornRow (k : Nat) (r : StoredRow) : StoredRow :=
  { freeRow k r with saves := if Config.countRaised k then min 20000 (r.saves + 1) else r.saves }

/-- The store write under way is cut off, and the writes that wait are lost (R203; log 17). -/
def Part.tearWrite (p : Part) : Part :=
  match p.store.writes with
  | [] => p
  | w :: _ =>
    { p.modStore (fun st =>
        { st with stored := updateAt st.stored w.row (tornRow p.free), writes := [] }) with
      free := p.free + 1 }

/-- Row `r` at a power-on: a row written beyond 20000 times may fail its check, which is free (R203; log 18). -/
def decayRow (k r : Nat) (x : StoredRow) : StoredRow := if x.worn && Config.rowDecays k r then freeRow (k + r) x else x

/-- The start-up decay of worn rows; rows that are not worn draw no free value (R203; log 18). -/
def Part.decayRows (p : Part) : Part :=
  if p.store.stored.any (·.worn) then
    { p.modStore (fun st => { st with stored := (st.stored.zip (List.range 11)).map fun xr => decayRow p.free xr.2 xr.1 }) with
      free := p.free + 11 }
  else p

/-- The start-up check: every stored row is judged by its check byte (R201). -/
def Part.startUpCheck (p : Part) : Part :=
  p.modStore fun st => { st with stored := st.stored.map fun x => { x with failed := !x.passes } }

/-- The working row a load gives: the stored bytes, or the defaults of a failed row, every field in range (R201). -/
def loadedRow (r : Nat) (x : StoredRow) : List Byte := clampRow r (if x.failed then defaultRow r else x.bytes)

/-- The working copy loaded, and the freeze flag cleared (R201). -/
def Part.loadRows (p : Part) : Part :=
  p.modStore fun st =>
    { st with working := (st.stored.zip (List.range 11)).map fun xr => loadedRow xr.2 xr.1, frozen := false }

/-- SETTINGS_FAULT for each row whose failed mark is set, in row order (R201). -/
def Part.latchFailed (p : Part) : Part :=
  (List.range 11).foldl (fun p r => if (p.store.storedRow r).failed then p.latchNat .settingsFault r else p) p

/-! ## The other blocks -/

/-- The ports and the feed after a reset (R196). -/
def Part.resetLinks (p : Part) (subject : BitVec 16) : Part :=
  { p with
    info := resetPort subject (p.cfg 0 1)
    ctl := resetPort subject (p.cfg 0 1)
    feed := { state := .live, lastToggle := none, heartbeatAt := some (p.elapsed + p.heartbeatPeriod), staleAt := none }
    resetDue := false }

/-- The tables, the shadows and the notices after a reset (R40, R59, R72, R103). -/
def Part.resetTables (p : Part) : Part :=
  { p with table := resetTable, own := resetOwnership (p.cfg 0 7), notices := resetNotices }

/-- The cue ids in flight, ascending: the order of the STOP frames of a reset, the model's choice (log 65). -/
def CueSched.inFlight (q : CueSched) : List Nat :=
  (sortBy (fun a b => a.id < b.id) (q.pool.filter (!·.isQueued))).map (·.id)

/-- The Cue Scheduler after a reset (R169): STOP for every record in flight, whose id is reserved for 5 s, then its reset state
with the next cue id `next`. A probe reply wait that runs ends with it and raises no silence count: the model's choice (log 78). The PROBE that goes out when the reset
is complete (R159) is no part of the reset's event: it is the first PROBE_TIMER, due at the reset's instant, the model's choice
(log 82). -/
def Part.resetCues (p : Part) (next : Nat) : Part :=
  let ids := p.cues.inFlight
  let fresh : CueSched :=
    { pool := [], queues := List.replicate 8 [], zones := List.replicate 8 .idle, announcer := .lost, silence := 0,
      lastReject := none, nextId := next, nextArrival := 1,
      reserved := p.cues.reserved ++ ids.map fun id => (id, p.elapsed + 5000),
      repeats := List.replicate 4 none, probeAt := p.elapsed, probeWait := none, tx := p.cues.tx, tag := 0 }
  { p with cues := ids.foldl (fun q id => q.transmit fun t => .stop t id) fresh }

/-- The Panel Chain Controller after a reset (R122, R143): a poll in progress keeps its place until its reply is discarded. -/
def Part.resetChain (p : Part) : Part :=
  let fitted := p.cfg 0 6 % 2 == 1
  p.modChain fun c =>
    { c with
      positions := p.cfg 0 5
      fitted := fitted
      panels := List.replicate 13 resetPanel
      duty := if fitted then .standby else .notFitted
      mode := if p.cfg 0 6 / 2 % 2 == 1 then .automatic else .released
      clearDue := false
      cycleRest := []
      nextCycleAt := p.elapsed
      reset := if c.poll.isSome then .awaitingReply else .complete
      test := resetTest }

/-- A position of the park record, if it gives one below the dial size (R182). -/
def parkedPosition (row : List Byte) (i dial : Nat) : Option Nat :=
  let n := wordField row (1 + 3 * i)
  if n < dial then some n else none

/-- A clock line at power-on (R182); `record` says that the part holds the park record valid. -/
def Part.freshLine (p : Part) (record : Bool) (i : Nat) : ClockLine :=
  let cfg := p.clockConfig i
  { state := if cfg.enabled then .stopped else .disabled
    dial := cfg.dial
    position := if record then parkedPosition (p.row 10) i cfg.dial else none
    uncertain := false
    polarity := if record && byteField (p.row 10) (3 + 3 * i) == 1 then .minus else .plus
    impulse := none
    retryImpulse := false
    retryAt := none
    faults := 0 }

/-- The clock lines at power-on (R181, R182). -/
def Part.freshClocks (p : Part) : Part :=
  let record := p.store.recordValid
  { p with clocks := { lines := (List.range 4).map (p.freshLine record), park := none, recordValid := record } }

/-- The clock lines at a soft reset (R183): a park ends, a PARKED line becomes STOPPED, the record is held as row 10 gives it,
and each line without an impulse is evaluated. -/
def Part.keptClocks (p : Part) : Part :=
  let p := p.modClocks fun c =>
    { c with
      lines := c.lines.map fun k => if k.state == .parked then { k with state := .stopped } else k
      park := none }
  p.readRecord.evaluateAll false

/-- An input at power-on: IDLE, and QUALIFYING at once where its mode and its level call for it (R200). -/
def Part.freshInput (p : Part) (i : Nat) (w : WallInput) : WallInput :=
  let cfg := p.inputConfig i
  if cfg.mode != .off && w.asserted then
    { w with state := .qualifying, timer := some (p.elapsed + cfg.qualify), acting := false }
  else { w with state := .idle, timer := none, acting := false }

/-- The inputs at power-on (R200). -/
def Part.freshInputs (p : Part) : Part :=
  { p with inputs := (p.inputs.zip (List.range 4)).map fun wi => p.freshInput wi.2 wi.1 }

/-! ## The resets -/

/-- Power-on reset with the working copy loaded: every block takes its power-on state (R18, R121, R143, R169, R182, R196). -/
def Part.powerOnBlocks (p : Part) : Part :=
  let p := (p.resetLinks 0).latchFailed
  let p := { p with powered := true, time := resetTimebase p.elapsed (p.cfg 0 0) }
  let p := p.resetTables.freshInputs
  let p := (p.modCues fun q => { q with tx := [] }).resetCues 1
  let p := (p.modChain fun c => { c with poll := none, lastSent := none }).resetChain
  { p.freshClocks.composeFresh 1 with ev := noEvent }

/-- POWER_ON_RESET (R18, R201). On a part with power a store write under way is cut off (log 20). -/
def Part.powerOn (p : Part) : Part := p.tearWrite.decayRows.startUpCheck.loadRows.powerOnBlocks

/-- POWER_ON_RESET. -/
def execPowerOnReset (s : State) : Host.Outcome State Fault Refusal := .next { s with part := s.part.powerOn }

/-- The Timebase at a soft reset: the start hour is taken, and the service date computed directly if time is valid (R18). -/
def Part.softTime (p : Part) : Part :=
  p.modTime fun t =>
    let t := { t with startHour := p.cfg 0 0 }
    { t with serviceDay := if t.valid then some t.directDay else none }

/-- The store writes at a soft reset: the one under way finishes and reports to no block, the others are discarded (R203;
log 57). -/
def Part.softWrites (p : Part) : Part :=
  match p.store.writes with
  | [] => p
  | w :: _ => (p.performWrite w).modStore fun st => { st with writes := [] }

/-- Whether a frame is the reply to a RESET_PART that was carried out: a refusal of another RESET_PART is not (R196). -/
def OutFrame.isResetReply : OutFrame → Bool
  | .reply kind _ _ result _ => kind == 0x85#8 && result == 0#8
  | .notice _ _ => false

/-- The instant at which the last byte of the reply to a RESET_PART has been sent: after the frame being sent come a notice frame that
waits, the frames composed before the reply, and the reply (R186, R196). -/
def Port.resetReplySent (q : Port) (now : Nat) : Nat :=
  let upTo := q.tx.take (q.tx.findIdx OutFrame.isResetReply + 1)
  let unsent := if q.lineEnd.isSome then upTo.drop 1 else upTo
  let ahead := if q.noticeDue && !unsent.isEmpty then [OutFrame.notice 0 q.latched] else []
  max now (q.lineEnd.getD now) + ((ahead ++ unsent).map (·.duration q.rate)).sum

/-- The soft reset that RESET_PART asked for begins when the last byte of its reply has been sent (R196): elapsed time is carried
there. -/
def Part.sendResetReply (p : Part) : Part :=
  if p.resetDue && p.info.tx.any OutFrame.isResetReply then p.advanceTo (p.info.resetReplySent p.elapsed) else p

/-- A request in execution on the Control link at a soft reset is completed first (R196): a TIMEBASE_SELECT whose edge has not
come meets the gap at its limit (R4; log 42). -/
def Part.completeControl (p : Part) : Part :=
  match p.edgeLimit .control with
  | some limit => (p.advanceTo limit).oscillatorGap
  | none => p

/-- SOFT_RESET (R196, and the rules of each block). -/
def Part.softReset (p : Part) : Part :=
  let p := p.sendResetReply.completeControl
  let rows := p.store.working
  let p := p.begin.softWrites.loadRows
  let p := ((p.resetLinks 1).softTime).resetTables.resetCues p.cues.nextId
  let p := (p.inputsReloaded rows).resetChain.keptClocks
  let p := p.composeFresh (countNext p.image.generation)
  p.inputRestarts.finish

/-- SOFT_RESET (log 27). -/
def execSoftReset (s : State) : Host.Outcome State Fault Refusal := act Part.softReset s

/-- The chain's reset is complete once the awaited reply has been discarded, and the first cycle begins (R143). -/
def Part.chainResetComplete (p : Part) : Part :=
  match p.chain.reset with
  | .discarded => (p.modChain fun c => { c with reset := .complete, nextCycleAt := p.elapsed }).startCycle
  | .awaitingReply => p
  | .complete => p

/-- CHAIN_RESET_COMPLETE. -/
def execChainResetComplete (s : State) : Host.Outcome State Fault Refusal := act Part.chainResetComplete s

/-- A port that sends and executes nothing more. -/
def Port.dark (q : Port) : Port :=
  { q with inFrame := false, buffer := [], waiting := none, noticeDue := false, tx := [], lineEnd := none }

/-- POWER_LOSS: all activity ends, and a store write under way is left as it stood (R203; log 17, log 19). -/
def Part.losePower (p : Part) : Part :=
  let p := p.tearWrite
  let p := p.modClocks fun c =>
    { c with lines := c.lines.map fun k => { k with impulse := none, retryImpulse := false, retryAt := none }, park := none }
  let p := p.modChain fun c => { c with poll := none, cycleRest := [], lastSent := none, reset := .complete, test := resetTest }
  let p := p.modCues fun q =>
    { q with pool := [], queues := List.replicate 8 [], zones := List.replicate 8 .idle, reserved := [],
             repeats := List.replicate 4 none, probeWait := none, tx := [] }
  { p with powered := false, info := p.info.dark, ctl := p.ctl.dark, resetDue := false, ev := noEvent }

/-- POWER_LOSS. -/
def execPowerLoss (s : State) : Host.Outcome State Fault Refusal := act Part.losePower s

end Sys2Proof.Machine
end

