-- ==== Sys2Proof/Machine/Table.lean ====
section
/-! DEFINITION. The meanings of the Departure Table's commands: SERVICE_PUT, SERVICE_UPDATE, SERVICE_REMOVE, SERVICE_READ,
TABLE_READ, NAME_LOAD (02) and CHANGE_MARK_EXPIRY (05). -/

namespace Sys2Proof.Machine

/-- The permitted changes of status (R24); a copy at DEPARTED keeps it. -/
def statusPermitted : Status → Status → Bool
  | .normal, st => st != .closed
  | .boarding, _ => true
  | .closed, st => st != .normal
  | .departed, _ => false
  | .cancelled, st => st == .normal || st == .cancelled

/-! ## SERVICE_PUT -/

/-- Whether some element stands twice in a list. -/
def hasTwice : List Nat → Bool
  | [] => false
  | a :: l => l.contains a || hasTwice l

/-- The conditions of R26 that the record alone decides. -/
def PutRecord.malformed (r : PutRecord) : Bool :=
  r.id == 0 || 8 < r.label.length || 107999 < r.sched || r.expected.any (107999 < ·) || r.platform.any (32 < ·)
    || (statusOfCode r.status).isNone || 12 < r.calls.length || hasTwice r.calls || r.calls.contains r.dest

/-- The Information copy a record asks for, under a status. -/
def PutRecord.copy (r : PutRecord) (st : Status) : Running :=
  { platform := r.platform, expected := r.expected.map Int.ofNat, unknown := r.unknown, status := st }

/-- The conditions of R26 that the table decides, for a record asking for status `st`. -/
def putBarred (old : Option Record) (st : Status) : Bool :=
  match old with
  | none => st == .departed
  | some o => o.running.status == .departed || o.info.status == .departed || !statusPermitted o.info.status st

/-- The ownership check of R27. -/
def Part.putNotOwner (p : Part) (r : PutRecord) (old : Option Record) : Bool :=
  r.platform.any p.controlOwned && (old.bind (·.ctl)).isNone

/-- A record before the Running Status Unit has run (R28). -/
def PutRecord.fresh (r : PutRecord) (st : Status) : Record :=
  { id := r.id, label := r.label, sched := r.sched, dest := r.dest, calls := r.calls, autoCue := r.autoCue, info := r.copy st,
    ctl := none, minutes := none, late := false, key := r.sched, eff := r.sched, display := .onTime, announcedDelay := none,
    mark := none, departedAt := none, origin := .noChange }

/-- A record created and handed on (R28). -/
def Part.putCreate (p : Part) (r : PutRecord) (st : Status) : Part :=
  (p.mapRecords (· ++ [r.fresh st])).handOn creationBaseline r.id

/-- The record as a SERVICE_PUT replaces it (R29). -/
def PutRecord.replace (r : PutRecord) (st : Status) (o : Record) : Record :=
  { o with label := r.label, sched := r.sched, dest := r.dest, calls := r.calls, autoCue := r.autoCue, info := r.copy st }

/-- A held record changed to `new` by an event of origin `origin`: R22's tracking fields, and handing on if S or any effective
item changed (R23, R29, R31). -/
def Part.change (p : Part) (old new : Record) (origin : ChangeOrigin) : Part :=
  let q := p.modRecord old.id fun _ => p.tracked old.running origin new
  if new.sched == old.sched && new.running == old.running then q else q.handOn old.running old.id

/-- One record of a SERVICE_PUT checked and applied (R26 to R29). -/
def Part.putOne (p : Part) (r : PutRecord) : Part × Result :=
  let old := p.record? r.id
  match statusOfCode r.status with
  | none => (p, .invalidField)
  | some st =>
    if r.malformed || putBarred old st then (p, .invalidField)
    else if p.putNotOwner r old then (p, .notOwner)
    else
      match old with
      | some o => (p.change o (r.replace st o) .put, .ok)
      | none => if 96 ≤ p.table.records.length then (p, .tableFull) else (p.putCreate r st, .ok)

/-- Items taken one after another, each with a result of its own (R25, R32). -/
def takeEach {α : Type} (one : Part → α → Part × Result) : List α → Part → Part × List Result
  | [], p => (p, [])
  | a :: l, p =>
    let pr := one p a
    let rest := takeEach one l pr.1
    (rest.1, pr.2 :: rest.2)

/-- The results of several items as a body (R25, R32, R197). -/
def resultBytes (rs : List Result) : List Byte := counted (fun r => [r.code]) rs

/-- SERVICE_PUT (R25). -/
def servicePut (rs : List PutRecord) (p : Part) : Answer :=
  if rs.length == 0 || 8 < rs.length then refuse p .invalidField
  else
    let pr := takeEach Part.putOne rs p.begin
    .reply pr.1.settle .ok (resultBytes pr.2)

/-- SERVICE_PUT. -/
def execServicePut (rq : Req) (s : State) : Host.Outcome State Fault Refusal :=
  act (runRequest 0x10 readServicePut (fun _ => servicePut) rq) s

/-! ## SERVICE_UPDATE -/

/-- Check 2 of R30. -/
def UpdateBody.malformed (u : UpdateBody) : Bool :=
  u.platformAction == .both || u.expectedAction == .both || u.unknownAction == .both
    || (u.platformAction == .set && !(1 ≤ u.platform && u.platform ≤ 32))
    || (u.expectedAction == .set && 107999 < u.expected)
    || (u.setStatus && (statusOfCode u.status).isNone)

/-- The status the update leaves in a copy. -/
def UpdateBody.statusAfter (u : UpdateBody) (c : Running) : Status :=
  if u.setStatus then (statusOfCode u.status).getD c.status else c.status

/-- All the actions of the mask applied together (R31). -/
def UpdateBody.apply (u : UpdateBody) (c : Running) : Running :=
  { platform :=
      match u.platformAction with
      | .set => some u.platform
      | .clear => none
      | .leave => c.platform
      | .both => c.platform
    expected :=
      match u.expectedAction with
      | .set => some u.expected
      | .clear => none
      | .leave => c.expected
      | .both => c.expected
    unknown :=
      match u.unknownAction with
      | .set => true
      | .clear => false
      | .leave => c.unknown
      | .both => c.unknown
    status := u.statusAfter c }

/-- Check 6 of R30 (R69, R70). -/
def Part.updateNotOwner (p : Part) (l : Link) (u : UpdateBody) (r : Record) : Bool :=
  u.platformAction == .set &&
    (match l with
     | .information => r.ctl.isNone && p.controlOwned u.platform
     | .control => !p.controlOwned u.platform)

/-- The boarding lock, check 7 of R30 (R85). R86 has an Information move that meets a desk's setting NORMAL processed as a change or
refused LOCKED by the order taken, but a desk's update needs a Control copy (R30 check 3), and then R85 and R69 let the move pass into the
Information copy in either order: the model follows R85, its choice (log 84). -/
def boardingLocked (l : Link) (u : UpdateBody) (r : Record) : Bool :=
  l == .information && r.ctl.isNone && (r.running.status == .boarding || r.running.status == .closed) &&
    ((u.platformAction == .set && r.running.platform != some u.platform)
      || (u.platformAction == .clear && r.running.platform.isSome))

/-- The copy a link may change (R30). -/
def Record.copyOf (r : Record) : Link → Option Running
  | .information => some r.info
  | .control => r.ctl

/-- The record with the copy of a link replaced (R31). -/
def Record.setCopy (r : Record) (l : Link) (c : Running) : Record :=
  match l with
  | .information => { r with info := c }
  | .control => { r with ctl := some c }

/-- The origin of a SERVICE_UPDATE's change (R22). -/
def updateOrigin : Link → ChangeOrigin
  | .information => .information
  | .control => .control

/-- SERVICE_UPDATE (R30, R31). A mask that leaves every item is answered OK only where the record passes the checks: on a record that
fails one, the first failing check decides, the model's choice (log 73). -/
def serviceUpdate (l : Link) (u : UpdateBody) (p : Part) : Answer :=
  match p.record? u.id with
  | none => refuse p .notFound
  | some r =>
    if u.malformed then refuse p .invalidField
    else
      match r.copyOf l with
      | none => refuse p .notOwner
      | some c =>
        if r.running.status == .departed || c.status == .departed then refuse p .invalidField
        else if !statusPermitted c.status (u.statusAfter c) then refuse p .invalidField
        else if p.updateNotOwner l u r then refuse p .notOwner
        else if boardingLocked l u r then refuse p .locked
        else .reply (p.begin.change r (r.setCopy l (u.apply c)) (updateOrigin l)).settle .ok []

/-- SERVICE_UPDATE. -/
def execServiceUpdate (rq : Req) (s : State) : Host.Outcome State Fault Refusal :=
  act (runRequest 0x11 readServiceUpdate serviceUpdate rq) s

/-! ## SERVICE_REMOVE -/

/-- One id of a SERVICE_REMOVE (R32). -/
def Part.removeOne (p : Part) (id : Nat) : Part × Result :=
  match p.record? id with
  | none => (p, .notFound)
  | some r => if r.ctl.isSome then (p, .notOwner) else (p.deleteRecord id, .ok)

/-- SERVICE_REMOVE (R32). -/
def serviceRemove (ids : List Nat) (p : Part) : Answer :=
  if ids.length == 0 || 16 < ids.length then refuse p .invalidField
  else
    let pr := takeEach Part.removeOne ids p.begin
    .reply pr.1.finish .ok (resultBytes pr.2)

/-- SERVICE_REMOVE. -/
def execServiceRemove (rq : Req) (s : State) : Host.Outcome State Fault Refusal :=
  act (runRequest 0x12 readServiceRemove (fun _ => serviceRemove) rq) s

/-! ## Reading -/

/-- The position of a record in the table order, from 1 (R33, R36). -/
def positionOf (id : Nat) : List Record → Nat
  | [] => 1
  | r :: l => if r.id == id then 1 else positionOf id l + 1

/-- A change mark as SERVICE_READ gives it (R33). Its state is coded as a flag: the model's choice (log 71). -/
def Part.markBytes (p : Part) (m : Option Mark) : List Byte :=
  [flagByte m.isSome] ++ optBe 1 (m.map (·.original)) ++ be 4 ((m.map fun m => p.secondsUntil m.expiry).getD 0)
    ++ [flagByte ((m.map (·.announced)).getD false)]

/-- The body of a SERVICE_READ reply (R33). -/
def Part.recordBytes (p : Part) (r : Record) : List Byte :=
  be 1 (positionOf r.id p.table.records)
    ++ be 2 r.id ++ textBytes r.label ++ beInt 4 r.sched ++ be 1 r.dest ++ counted (be 1) r.calls ++ [flagByte r.autoCue]
    ++ runningBytes r.info ++ optBytes 9 runningBytes r.ctl
    ++ optBe 2 r.minutes ++ [flagByte r.late] ++ beInt 4 r.key ++ beInt 4 r.eff ++ displayBytes r.display
    ++ optBe 2 r.announcedDelay ++ p.markBytes r.mark ++ optInt 4 r.departedAt ++ [changeOriginCode r.origin]
    ++ beInt 4 (p.retireInstant r)

/-- SERVICE_READ (R33). -/
def serviceRead (id : Nat) (p : Part) : Answer :=
  match p.record? id with
  | none => refuse p .notFound
  | some r => readOk p (p.recordBytes r)

/-- SERVICE_READ. -/
def execServiceRead (rq : Req) (s : State) : Host.Outcome State Fault Refusal :=
  act (runRequest 0x13 (readOne 2) (fun _ => serviceRead) rq) s

/-- An entry of a TABLE_READ reply (R34). -/
def entryBytes (r : Record) : List Byte :=
  be 2 r.id ++ beInt 4 r.key ++ optBe 1 r.running.platform ++ displayBytes r.display

/-- TABLE_READ (R34). -/
def tableRead (kn : Nat × Nat) (p : Part) : Answer :=
  if kn.1 == 0 || kn.2 == 0 || 16 < kn.2 then refuse p .invalidField
  else
    readOk p (be 1 p.table.records.length ++ counted entryBytes ((p.table.records.drop (kn.1 - 1)).take kn.2))

/-- TABLE_READ. -/
def execTableRead (rq : Req) (s : State) : Host.Outcome State Fault Refusal :=
  act (runRequest 0x14 (readTwo 1 1) (fun _ => tableRead) rq) s

/-! ## Names -/

/-- `new` written over a list from index `i` on. -/
def overwriteFrom {α : Type} (i : Nat) (new l : List α) : List α := l.take i ++ new ++ l.drop (i + new.length)

/-- NAME_LOAD (R35). -/
def nameLoad (load : Nat × List Text) (p : Part) : Answer :=
  let n := load.2.length
  if n == 0 || 8 < n || load.2.any (20 < ·.length) || 256 < load.1 + n then refuse p .invalidField
  else
    let q := p.begin
    .reply ({ q with table := { q.table with names := overwriteFrom load.1 load.2 q.table.names } }.tellWall.finish) .ok []

/-- NAME_LOAD. -/
def execNameLoad (rq : Req) (s : State) : Host.Outcome State Fault Refusal :=
  act (runRequest 0x15 readNameLoad (fun _ => nameLoad) rq) s

/-! ## The end of a change mark -/

/-- The elapsed time reaches an ACTIVE mark's expiry: the mark ends (R83). Each that expires has an event of its own with its own
recomposition, also when several expire at one instant: the model's choice (log 67). -/
def Part.markExpiry (p : Part) (id : Nat) : Part :=
  match (p.record? id).bind (·.mark) with
  | none => p
  | some m =>
    let q := (p.advanceTo m.expiry).begin
    (((q.endMark id).withdrawNotice .change (some id)).tellWall).finish

/-- CHANGE_MARK_EXPIRY. -/
def execChangeMarkExpiry (service : Nat) (s : State) : Host.Outcome State Fault Refusal :=
  act (fun p => p.markExpiry service) s

end Sys2Proof.Machine
end

