-- ==== Sys2Proof/Machine/Wall.lean ====
section
/-! DEFINITION. The meanings of WALL_READ, BRIGHTNESS_SET (07_composing_the_wall) and WALL_STATUS (08_the_panel_chain). -/

namespace Sys2Proof.Machine

/-- A wall line as WALL_READ gives it (section 11.6). -/
def wallLineBytes (nl : Nat × WallLine) : List Byte :=
  let c := nl.2.content
  be 1 nl.1 ++ roleBytes c.role ++ be 2 (c.service.getD 0) ++ be 4 nl.2.generation ++ c.text ++ be 6 c.blink.toNat
    ++ be 6 c.highlight.toNat

/-- WALL_READ (R118). -/
def wallRead (nc : Nat × Nat) (p : Part) : Answer :=
  if nc.1 == 0 || 48 < nc.1 || nc.2 == 0 || 8 < nc.2 || 48 < nc.1 + nc.2 - 1 then refuse p .invalidField
  else
    let lines := (numbersFrom nc.1 nc.2).zip ((p.image.lines.drop (nc.1 - 1)).take nc.2)
    readOk p (be 4 p.image.generation ++ be 1 p.globalLevel ++ lines.flatMap wallLineBytes)

/-- WALL_READ. -/
def execWallRead (rq : Req) (s : State) : Host.Outcome State Fault Refusal :=
  act (runRequest 0x20 (readTwo 1 1) (fun _ => wallRead) rq) s

/-- BRIGHTNESS_SET (R119). -/
def brightnessSet (l : Link) (level : Nat) (p : Part) : Answer :=
  let taken := min 15 level
  let p := { p.begin with own := p.own.setBright l taken }
  let p := (if p.own.wall == l then p.tellWall else p).finish
  .reply p (if level ≤ 15 then .ok else .okClamped) (be 1 taken)

/-- BRIGHTNESS_SET. -/
def execBrightnessSet (rq : Req) (s : State) : Host.Outcome State Fault Refusal :=
  act (runRequest 0x22 (readOne 1) brightnessSet rq) s

/-- The carrying panel as WALL_STATUS gives it: own 0 or spare 1, or none (R137, R197). -/
def carrierBytes (c : Carrier) : List Byte :=
  optBytes 1 (fun code : Byte => [code])
    (match c with
     | .own => some 0
     | .spare => some 1
     | .uncovered => none)

/-- The temperature of a panel: one signed byte that may be absent (R137, R197). -/
def temperatureBytes (t : Option Int) : List Byte := optBytes 1 (beInt 1) t

/-- The condition of a panel as WALL_STATUS gives it (R137). -/
def Part.panelBytes (p : Part) (n : Panel) : List Byte :=
  panelStateBytes n.state ++ be 1 n.misses ++ be 1 n.recovery ++ temperatureBytes n.temperature ++ [flagByte n.driver]
    ++ be 4 n.ack ++ be 1 (panelLevel p.globalLevel n.state)

/-- A position in use as WALL_STATUS gives it (R137). -/
def Part.positionBytes (p : Part) (n : Nat) : List Byte :=
  p.panelBytes (p.chain.panel n) ++ carrierBytes (p.chain.carrier n) ++ [flagByte (p.chain.showing n)]
    ++ be 4 (p.chain.delivered n) ++ be 1 (p.image.importance n)

/-- WALL_STATUS (R137). -/
def wallStatus (p : Part) : Answer :=
  let c := p.chain
  readOk p (be 1 c.positions ++ be 4 p.image.generation ++ be 1 p.globalLevel
    ++ (numbersFrom 1 12).flatMap (fun n => optBytes 19 p.positionBytes (if c.inUse n then some n else none))
    ++ [flagByte c.fitted] ++ c.spareStateBytes ++ spareModeBytes c.mode
    ++ optBytes 11 p.panelBytes (if c.fitted then some (c.panel 13) else none)
    ++ p.testBytes)

/-- WALL_STATUS. -/
def execWallStatus (rq : Req) (s : State) : Host.Outcome State Fault Refusal :=
  act (runRequest 0x21 readEmpty (fun _ _ => wallStatus) rq) s

end Sys2Proof.Machine
end

