-- ==== Sys2Proof/Machine/Dispatch.lean ====
section
/-! DEFINITION. The dispatch of a command to its meaning. -/

namespace Sys2Proof.Machine

def exec (i : Instr) (s : State) : Host.Outcome State Fault Refusal :=
  match i with
    -- resets and power
    | .powerOnReset => Sys2Proof.Machine.execPowerOnReset s
    | .softReset => Sys2Proof.Machine.execSoftReset s
    | .chainResetComplete => Sys2Proof.Machine.execChainResetComplete s
    | .powerLoss => Sys2Proof.Machine.execPowerLoss s
    -- link ports
    | .requestFrameReceived link frame => Sys2Proof.Machine.execRequestFrameReceived link frame s
    | .frameError link cause => Sys2Proof.Machine.execFrameError link cause s
    | .unknownKindRequest link frame => Sys2Proof.Machine.execUnknownKindRequest link frame s
    | .noticeFrameSend link => Sys2Proof.Machine.execNoticeFrameSend link s
    | .identify rq => Sys2Proof.Machine.execIdentify rq s
    | .eventsReadClear rq => Sys2Proof.Machine.execEventsReadClear rq s
    | .eventsMaskSet rq => Sys2Proof.Machine.execEventsMaskSet rq s
    | .resetPart rq => Sys2Proof.Machine.execResetPart rq s
    -- heartbeat and feed
    | .heartbeat rq => Sys2Proof.Machine.execHeartbeat rq s
    | .heartbeatTimerExpiry => Sys2Proof.Machine.execHeartbeatTimerExpiry s
    | .staleTimerExpiry => Sys2Proof.Machine.execStaleTimerExpiry s
    -- ownership
    | .assign rq => Sys2Proof.Machine.execAssign rq s
    | .ownershipRead rq => Sys2Proof.Machine.execOwnershipRead rq s
    -- timebase
    | .timeRead rq => Sys2Proof.Machine.execTimeRead rq s
    | .timeSet rq => Sys2Proof.Machine.execTimeSet rq s
    | .timebaseSelect rq => Sys2Proof.Machine.execTimebaseSelect rq s
    | .timebaseSelectEdge => Sys2Proof.Machine.execTimebaseSelectEdge s
    | .oscillatorGap => Sys2Proof.Machine.execOscillatorGap s
    | .referenceTelegram bytes => Sys2Proof.Machine.execReferenceTelegram bytes s
    | .referenceTimeout => Sys2Proof.Machine.execReferenceTimeout s
    | .holdoverExpiry => Sys2Proof.Machine.execHoldoverExpiry s
    | .stationSecond => Sys2Proof.Machine.execStationSecond s
    -- departure table
    | .servicePut rq => Sys2Proof.Machine.execServicePut rq s
    | .serviceUpdate rq => Sys2Proof.Machine.execServiceUpdate rq s
    | .serviceRemove rq => Sys2Proof.Machine.execServiceRemove rq s
    | .serviceRead rq => Sys2Proof.Machine.execServiceRead rq s
    | .tableRead rq => Sys2Proof.Machine.execTableRead rq s
    | .nameLoad rq => Sys2Proof.Machine.execNameLoad rq s
    | .changeMarkExpiry service => Sys2Proof.Machine.execChangeMarkExpiry service s
    -- notices and banner
    | .noticePost rq => Sys2Proof.Machine.execNoticePost rq s
    | .noticeWithdraw rq => Sys2Proof.Machine.execNoticeWithdraw rq s
    | .noticeList rq => Sys2Proof.Machine.execNoticeList rq s
    | .noticeExpiry notice => Sys2Proof.Machine.execNoticeExpiry notice s
    | .rotationDwellEnd => Sys2Proof.Machine.execRotationDwellEnd s
    | .bannerSet rq => Sys2Proof.Machine.execBannerSet rq s
    | .bannerShadowExpiry link => Sys2Proof.Machine.execBannerShadowExpiry link s
    -- wall
    | .wallRead rq => Sys2Proof.Machine.execWallRead rq s
    | .brightnessSet rq => Sys2Proof.Machine.execBrightnessSet rq s
    | .wallStatus rq => Sys2Proof.Machine.execWallStatus rq s
    -- panel chain
    | .panelSparePin rq => Sys2Proof.Machine.execPanelSparePin rq s
    | .panelSpareRelease rq => Sys2Proof.Machine.execPanelSpareRelease rq s
    | .panelSpareAutomatic rq => Sys2Proof.Machine.execPanelSpareAutomatic rq s
    | .pollCycleStart => Sys2Proof.Machine.execPollCycleStart s
    | .panelReply reply => Sys2Proof.Machine.execPanelReply reply s
    | .panelReplyMiss => Sys2Proof.Machine.execPanelReplyMiss s
    -- link test
    | .wallTestStart rq => Sys2Proof.Machine.execWallTestStart rq s
    | .linkTestBegin => Sys2Proof.Machine.execLinkTestBegin s
    | .wallTestStop rq => Sys2Proof.Machine.execWallTestStop rq s
    | .wallTestInsertError rq => Sys2Proof.Machine.execWallTestInsertError rq s
    | .testPatternBitTransmitted => Sys2Proof.Machine.execTestPatternBitTransmitted s
    | .detectorSeeded bits => Sys2Proof.Machine.execDetectorSeeded bits s
    | .detectorWindow bits => Sys2Proof.Machine.execDetectorWindow bits s
    | .linkTestDurationEnd => Sys2Proof.Machine.execLinkTestDurationEnd s
    -- announcement cues
    | .cuePost rq => Sys2Proof.Machine.execCuePost rq s
    | .cueCancel rq => Sys2Proof.Machine.execCueCancel rq s
    | .cueStatus rq => Sys2Proof.Machine.execCueStatus rq s
    | .cueAgeOut cue => Sys2Proof.Machine.execCueAgeOut cue s
    | .cuePortAccept cue => Sys2Proof.Machine.execCuePortAccept cue s
    | .cuePortReject cue reason => Sys2Proof.Machine.execCuePortReject cue reason s
    | .cuePortEnded cue outcome => Sys2Proof.Machine.execCuePortEnded cue outcome s
    | .cuePortProbeReply => Sys2Proof.Machine.execCuePortProbeReply s
    | .cuePortZoneState zone report => Sys2Proof.Machine.execCuePortZoneState zone report s
    | .cuePortFrameDiscarded why => Sys2Proof.Machine.execCuePortFrameDiscarded why s
    | .probeTimer => Sys2Proof.Machine.execProbeTimer s
    | .acceptWaitExpiry cue => Sys2Proof.Machine.execAcceptWaitExpiry cue s
    | .endedWaitExpiry cue => Sys2Proof.Machine.execEndedWaitExpiry cue s
    | .stopWaitExpiry cue => Sys2Proof.Machine.execStopWaitExpiry cue s
    | .probeWaitExpiry => Sys2Proof.Machine.execProbeWaitExpiry s
    | .reservedIdRelease cue => Sys2Proof.Machine.execReservedIdRelease cue s
    | .inputCueRepeat input => Sys2Proof.Machine.execInputCueRepeat input s
    -- slave clock lines
    | .clockLineStatus rq => Sys2Proof.Machine.execClockLineStatus rq s
    | .clockLineSet rq => Sys2Proof.Machine.execClockLineSet rq s
    | .clockLineRetry rq => Sys2Proof.Machine.execClockLineRetry rq s
    | .parkClocks rq => Sys2Proof.Machine.execParkClocks rq s
    | .impulseOpenCheck line currentFlows => Sys2Proof.Machine.execImpulseOpenCheck line currentFlows s
    | .impulseOverloadTrip line => Sys2Proof.Machine.execImpulseOverloadTrip line s
    | .impulseDriveEnd line => Sys2Proof.Machine.execImpulseDriveEnd line s
    | .impulseGapEnd line => Sys2Proof.Machine.execImpulseGapEnd line s
    | .clockRetryTimerExpiry line => Sys2Proof.Machine.execClockRetryTimerExpiry line s
    -- wall inputs
    | .inputLevelChange input asserted => Sys2Proof.Machine.execInputLevelChange input asserted s
    | .qualificationTimerExpiry input => Sys2Proof.Machine.execQualificationTimerExpiry input s
    | .inputStatus rq => Sys2Proof.Machine.execInputStatus rq s
    -- settings
    | .settingsRead rq => Sys2Proof.Machine.execSettingsRead rq s
    | .settingsWrite rq => Sys2Proof.Machine.execSettingsWrite rq s
    | .settingsSave rq => Sys2Proof.Machine.execSettingsSave rq s
    | .storeWriteComplete => Sys2Proof.Machine.execStoreWriteComplete s
    | .settingsCheck rq => Sys2Proof.Machine.execSettingsCheck rq s
    | .settingsFreeze rq => Sys2Proof.Machine.execSettingsFreeze rq s

end Sys2Proof.Machine
end

