-- ==== Sys2Proof/Machine/Idle.lean ====
section
/-! DEFINITION. What the part does of itself when no command waits: the first event that is due, in a fixed order, or the
passing of one millisecond (log 1, log 29). -/

namespace Sys2Proof.Machine

/-- The command that executes a PANEL_SPARE frame, by its action byte (log 5). -/
def spareCommand (rq : Req) : Instr :=
  if actionIs 2 1 rq.body then .panelSpareRelease rq
  else if actionIs 2 2 rq.body then .panelSpareAutomatic rq
  else .panelSparePin rq

/-- The command that executes a WALL_TEST frame, by its action byte (log 5). -/
def testCommandOf (rq : Req) : Instr :=
  if actionIs 3 1 rq.body then .wallTestStop rq
  else if actionIs 3 2 rq.body then .wallTestInsertError rq
  else .wallTestStart rq

/-- The command that executes a request of the general kinds 0x01 to 0x0A, if the KIND is one of them (section 11.6). -/
def commandLow (k : Nat) (rq : Req) : Option Instr :=
  match k with
  | 0x01 => some (.identify rq)
  | 0x02 => some (.eventsReadClear rq)
  | 0x03 => some (.eventsMaskSet rq)
  | 0x04 => some (.heartbeat rq)
  | 0x05 => some (.resetPart rq)
  | 0x06 => some (.assign rq)
  | 0x07 => some (.ownershipRead rq)
  | 0x08 => some (.timeRead rq)
  | 0x09 => some (.timeSet rq)
  | 0x0A => some (.timebaseSelect rq)
  | _ => none

/-- The command that executes a request of the table, notice and wall kinds 0x10 to 0x24 (section 11.6). -/
def commandMiddle (k : Nat) (rq : Req) : Option Instr :=
  match k with
  | 0x10 => some (.servicePut rq)
  | 0x11 => some (.serviceUpdate rq)
  | 0x12 => some (.serviceRemove rq)
  | 0x13 => some (.serviceRead rq)
  | 0x14 => some (.tableRead rq)
  | 0x15 => some (.nameLoad rq)
  | 0x18 => some (.noticePost rq)
  | 0x19 => some (.noticeWithdraw rq)
  | 0x1A => some (.noticeList rq)
  | 0x1B => some (.bannerSet rq)
  | 0x20 => some (.wallRead rq)
  | 0x21 => some (.wallStatus rq)
  | 0x22 => some (.brightnessSet rq)
  | 0x23 => some (spareCommand rq)
  | 0x24 => some (testCommandOf rq)
  | _ => none

/-- The command that executes a request of the cue, clock, input and settings kinds 0x28 to 0x44 (section 11.6). -/
def commandHigh (k : Nat) (rq : Req) : Option Instr :=
  match k with
  | 0x28 => some (.cuePost rq)
  | 0x29 => some (.cueCancel rq)
  | 0x2A => some (.cueStatus rq)
  | 0x30 => some (.clockLineStatus rq)
  | 0x31 => some (.clockLineSet rq)
  | 0x32 => some (.clockLineRetry rq)
  | 0x33 => some (.parkClocks rq)
  | 0x38 => some (.inputStatus rq)
  | 0x40 => some (.settingsRead rq)
  | 0x41 => some (.settingsWrite rq)
  | 0x42 => some (.settingsSave rq)
  | 0x43 => some (.settingsCheck rq)
  | 0x44 => some (.settingsFreeze rq)
  | _ => none

/-- The command that executes a request frame of a link (R186, R187). -/
def commandOf (l : Link) (f : RequestFrame) : Instr :=
  let rq : Req := { link := l, tag := f.tag, body := f.body }
  let k := f.kind.toNat
  (commandLow k rq <|> commandMiddle k rq <|> commandHigh k rq).getD (.unknownKindRequest l f)

/-- The request a link executes next: the first in its buffer, while the port executes (R186, R196). -/
def Part.nextRequest (p : Part) (l : Link) : Option Instr :=
  if (p.port l).waiting.isSome || (p.resetDue && l == .information) then none
  else (p.port l).buffer.head?.map (commandOf l)

/-- A command that is due when its instant has come. -/
def Part.at (p : Part) (t : Option Nat) (c : Instr) : Option Instr :=
  match t with
  | some t => if t ≤ p.elapsed then some c else none
  | none => none

/-- The first of some numbered commands that is due, by the instant each number has. -/
def Part.firstAt (p : Part) (ns : List Nat) (t : Nat → Option Nat) (c : Nat → Instr) : Option Instr :=
  ns.findSome? fun n => p.at (t n) (c n)

/-- The first of the four lines or inputs whose instant has come. -/
def Part.firstOfFour (p : Part) (t : Nat → Option Nat) (c : Fin 4 → Instr) : Option Instr :=
  [0, 1, 2, 3].findSome? fun i : Fin 4 => p.at (t i) (c i)

/-- The end of the reset's waiting, and the requests and notice frames of the links (R139, R143, R186, R196). -/
def Part.dueOnLinks (p : Part) : List (Option Instr) :=
  [if p.resetDue && !p.info.tx.any OutFrame.isResetReply && p.ctl.waiting.isNone then some .softReset else none,
    if p.chain.reset == .discarded then some .chainResetComplete else none,
    match p.chain.test.phase, p.chain.poll with
      | .accepted _, none => some .linkTestBegin
      | _, _ => none,
    p.nextRequest .information,
    p.nextRequest .control,
    if p.info.noticeDue && p.info.lineEnd.isNone then some (.noticeFrameSend .information) else none,
    if p.ctl.noticeDue && p.ctl.lineEnd.isNone then some (.noticeFrameSend .control) else none]

/-- The Timebase's and the feed's events (R1, R4, R7, R194). A TIMEBASE_SELECT whose edge has not come within its limit meets the
gap (R4; log 52). -/
def Part.dueInTime (p : Part) : List (Option Instr) :=
  [if p.time.secondLength ≤ p.time.sourceMs then some .stationSecond else none,
    p.at (p.edgeLimit .information) .oscillatorGap,
    p.at (p.edgeLimit .control) .oscillatorGap,
    match p.time.ref, p.time.lastValid with
      | .locked _ _, some v => p.at (some (v.arrival + 3000)) .referenceTimeout
      | _, _ => none,
    match p.time.ref with
      | .holdover since => p.at (some (since + 30000)) .holdoverExpiry
      | _ => none,
    p.at p.feed.heartbeatAt .heartbeatTimerExpiry,
    p.at p.feed.staleAt .staleTimerExpiry]

/-- The events of inputs, marks, shadows, notices and the store (R83, R72, R95, R98, R198, R203). -/
def Part.dueInTables (p : Part) : List (Option Instr) :=
  [p.firstOfFour (fun i => (p.input i).timer) .qualificationTimerExpiry,
    p.table.records.findSome? fun r => p.at (r.mark.map (·.expiry)) (.changeMarkExpiry r.id),
    p.at p.own.bannerInfo.expiry (.bannerShadowExpiry .information),
    p.at p.own.bannerCtl.expiry (.bannerShadowExpiry .control),
    p.notices.notices.findSome? fun n => p.at n.expiry (.noticeExpiry n.id),
    p.at (p.notices.shown.map (·.dwellEnd)) .rotationDwellEnd,
    if p.store.writes.isEmpty then none else p.at (some (p.store.writeBegan + 60)) .storeWriteComplete]

/-- The events of the clock lines (R174, R175). -/
def Part.dueOnLines (p : Part) : List (Option Instr) :=
  let phase (driving : Bool) (i : Nat) : Option Nat :=
    (p.clocks.line i).impulse.bind fun m => if m.driving == driving then some m.phaseEnd else none
  [p.firstOfFour (phase true) .impulseDriveEnd,
    p.firstOfFour (phase false) .impulseGapEnd,
    p.firstOfFour (fun i => (p.clocks.line i).retryAt) .clockRetryTimerExpiry]

/-- The wait of a record in flight that has run out (R164). -/
def Part.waitDue (p : Part) (c : Cue) : Option Instr :=
  match c.flight with
  | .queued => none
  | .sent t => p.at (some t) (.acceptWaitExpiry c.id)
  | .accepted t => p.at (some t) (.endedWaitExpiry c.id)
  | .stopping _ t => p.at (some t) (.stopWaitExpiry c.id)

/-- The queued record that ages out next: of those due, that of the lowest arrival number (R155). -/
def Part.ageDue (p : Part) : Option Instr :=
  ((sortBy (fun a b => countLower a.arrival b.arrival) (p.cues.pool.filter fun c => (p.ageOutAt c).any (· ≤ p.elapsed))).head?).map
    fun c => .cueAgeOut c.id

/-- The events of the Cue Scheduler (R155, R159, R164, R167, R169). -/
def Part.dueOfCues (p : Part) : List (Option Instr) :=
  [p.at p.cues.probeWait .probeWaitExpiry,
    p.at (some p.cues.probeAt) .probeTimer,
    p.cues.pool.findSome? p.waitDue,
    p.cues.reserved.findSome? fun r => p.at (some r.2) (.reservedIdRelease r.1),
    p.firstOfFour (fun i => p.cues.repeats.getD i none) .inputCueRepeat,
    p.ageDue]

/-- The events of the chain (R124, R126, R142). The pattern bits of a link test and the bits of its detector are none of them: they come
by commands alone (R140, R141), the model's choice (log 86). -/
def Part.dueOnChain (p : Part) : List (Option Instr) :=
  let c := p.chain
  [match c.test.phase with
      | .running _ ends => p.at (some ends) .linkTestDurationEnd
      | _ => none,
    p.at (c.poll.map (·.sentAt + 5)) .panelReplyMiss,
    if c.poll.isNone && c.cycleRest.isEmpty && !c.test.isRunning && c.reset == .complete then
      p.at (some c.nextCycleAt) .pollCycleStart
    else none]

/-- The first event that is due, in a fixed order (log 29). -/
def Part.due (p : Part) : Option Instr :=
  (p.dueOnLinks ++ p.dueInTime ++ p.dueInTables ++ p.dueOnLines ++ p.dueOfCues ++ p.dueOnChain).findSome? id

/-- One millisecond passes: the links go on sending, and one frame leaves for the announcer (log 1, log 16). -/
def Part.tick (p : Part) : Part := (p.advanceTo (p.elapsed + 1)).modCues fun q => { q with tx := q.tx.drop 1 }

end Sys2Proof.Machine
end

