-- ==== Sys2Proof/Machine/Step.lean ====
section
/-! DEFINITION. One step: the command at the front of the queue, or with no command waiting what the part does of itself. -/

namespace Sys2Proof.Machine

/-- What the part does with no command waiting (log 1): without power nothing, else the first event that is due, else one
millisecond passes. -/
def idle (s : State) : Host.Outcome State Fault Refusal :=
  if s.part.powered then
    match s.part.due with
    | some c => exec c s
    | none => .next { s with part := s.part.tick }
  else .next s

/-- One step. -/
def step (s : State) : Host.Outcome State Fault Refusal :=
  match s.pending with
  | c :: rest => exec c { s with pending := rest }
  | [] => idle s

/-- The state with the command a table word spells put at the front of its queue; no word spells one (log 31). -/
def State.withFetchWord (s : State) (nbits w : Nat) : State :=
  match decodeTableWord nbits w with
  | some c => { s with pending := c :: s.pending }
  | none => s

end Sys2Proof.Machine
end

