-- ==== Sys2Proof/Safety.lean ====
section
/-! DEFINITION. The words the statements are written in: when a port executes a request, the state a reply leaves, the end of
an event, what a telegram says and a wall line shows, what a request for an automatic cue leaves, and the invariants of the tables. -/

namespace Sys2Proof.Machine

/-! ## Requests and events -/

/-- The frame a request command stands for. -/
def requestFrame (rq : Req) (kind : Nat) : RequestFrame := { kind := BitVec.ofNat 8 kind, tag := rq.tag, body := rq.body }

/-- A request of kind `kind` is executed now (R186, R187, R196): the part has power, the port waits for nothing and is not
stopping for a reset, the buffer is empty or the request is its first, and the kind may come on its link. -/
abbrev Executes (s : State) (kind : Nat) (rq : Req) : Prop :=
  s.part.powered = true ∧ (s.part.port rq.link).waiting = none ∧ ¬(s.part.resetDue = true ∧ rq.link = .information) ∧
    ((s.part.port rq.link).buffer = [] ∨ (s.part.port rq.link).buffer.head? = some (requestFrame rq kind)) ∧
    (rq.link = .control → kind ∉ informationKinds)

/-- The state in which the reply to a request has been composed, `p` being the part as the request leaves it. -/
def answered (s : State) (p : Part) (kind : Nat) (rq : Req) (r : Result) (body : List Byte) : State :=
  { s with part := (p.freePlace rq.link).answer rq.link (BitVec.ofNat 8 (kind + 0x80)) rq.tag r body }

/-- The command ends with this reply, the part being left as `p`. -/
def Answers (c : Instr) (s : State) (kind : Nat) (rq : Req) (p : Part) (r : Result) (body : List Byte) : Prop :=
  exec c s = .next (answered s p kind rq r body)

/-- The command leaves the part as `p` and the queue as it was. -/
def Leaves (c : Instr) (s : State) (p : Part) : Prop := exec c s = .next { s with part := p }

/-- The length of a request body, for the kinds whose length is fixed (section 11.6). -/
def fixedLength (kind : Nat) : Option Nat :=
  if [0x01, 0x05, 0x07, 0x08, 0x0A, 0x21, 0x30, 0x33, 0x38, 0x43, 0x44].contains kind then some 0
  else if [0x04, 0x19, 0x22, 0x32, 0x42].contains kind then some 1
  else if [0x06, 0x13, 0x14, 0x1A, 0x20, 0x23, 0x29, 0x2A, 0x40].contains kind then some 2
  else if kind = 0x24 then some 3
  else if [0x02, 0x03, 0x31].contains kind then some 4
  else if [0x09, 0x11].contains kind then some 9
  else none

/-- The part at the end of an event in which the Wall Composer has been told or not (R115, R117, R157). -/
def Part.ended (p : Part) (told : Bool) : Part := ({ p with ev := { noEvent with wallTold := told } } : Part).finish

/-- A port but for what latching writes. -/
def Port.beyondEvents (q : Port) : Port := { q with latched := 0, subjects := [], noticeDue := false }

/-- A record with the announced flag of its mark left out. -/
def Record.beyondAnnounced (r : Record) : Record := { r with mark := r.mark.map fun m => { m with announced := false } }

/-! ## What a computation leaves in a record -/

/-- The delay trigger fires at a computation that leaves the record as `r` (R50). -/
def Part.delayTrigger (p : Part) (r : Record) : Prop :=
  r.running.status = .normal ∧ r.late = true ∧ p.noticeN ≤ r.minutes.getD 0 ∧
    ∀ a, r.announcedDelay = some a → a + p.stepP ≤ r.minutes.getD 0

/-- The effective status becomes `st` (R49). -/
def Becomes (before after : Running) (st : Status) : Prop := after.status = st ∧ before.status ≠ st

/-- The effective status becomes CANCELLED or DEPARTED (R53, R54). -/
def RunEnds (before after : Running) : Prop := Becomes before after .cancelled ∨ Becomes before after .departed

/-- The last announced delay A after a computation that leaves the record's other fields as `r`, the effective fields having been
`before` (R50, R51, R53, R54). -/
def Part.announcedLaw (p : Part) (before : Running) (r : Record) (a : Option Nat) : Prop :=
  (p.delayTrigger r → a = r.minutes) ∧
    (¬p.delayTrigger r → (RunEnds before r.running ∨ r.late = false) → a = none) ∧
    (¬p.delayTrigger r → ¬RunEnds before r.running → r.late = true → a = r.announcedDelay)

/-- The original platform and the expiry of the change mark of `r` after its effective platform passed from that of `before` to its
own (R75, R77 to R81). -/
def Part.markLaw (p : Part) (before : Running) (r : Record) (m : Option Mark) : Prop :=
  let seen (m : Option Mark) : Option (Nat × Nat) := m.map fun m => (m.original, m.expiry)
  let started (old : Nat) : Option (Nat × Nat) := some ((r.mark.map (·.original)).getD old, p.elapsed + p.markTime)
  (before.platform = r.running.platform → seen m = seen r.mark) ∧
    (∀ new, r.running.platform = some new → before.platform ≠ some new → r.mark.map (·.original) = some new → m = none) ∧
    (∀ new, r.running.platform = some new → before.platform = none → m = none) ∧
    (∀ old new, r.running.platform = some new → before.platform = some old → old ≠ new →
      r.mark.map (·.original) ≠ some new → seen m = started old) ∧
    (∀ old, r.running.platform = none → before.platform = some old → seen m = started old)

/-- What handing on leaves of a record that the event changed to `r`, the effective fields having been `before` (R23): the computed
fields, A and the change mark by their rules, every other field as the event set it. -/
def Part.handsOn (p : Part) (before : Running) (r after : Record) : Prop :=
  let c := p.computed r
  after = { c with announcedDelay := after.announcedDelay, mark := after.mark } ∧
    p.announcedLaw before c after.announcedDelay ∧ p.markLaw before r after.mark

/-! ## Telegrams -/

/-- The days of the twelve months of year `y` of the century from 2000, in which every fourth year is a leap year. -/
def monthLengths (y : Nat) : List Nat := [31, if y % 4 = 0 then 29 else 28, 31, 30, 31, 30, 31, 31, 30, 31, 30, 31]

/-- The seven bytes of a valid telegram that announces second `a` from 2000-01-01 00:00:00 (R5): year, month, day, hour, minute and
second in their ranges, the day in its month, and a check that makes the sum of all seven 0 modulo 256. -/
def telegramLaw (bytes : List Byte) (a : Nat) : Prop :=
  ∃ y mo d h mi sec check : Nat, bytes.map (·.toNat) = [y, mo, d, h, mi, sec, check] ∧
    (y + mo + d + h + mi + sec + check) % 256 = 0 ∧ y ≤ 99 ∧ 1 ≤ mo ∧ mo ≤ 12 ∧ 1 ≤ d ∧ d ≤ (monthLengths y).getD (mo - 1) 0 ∧
    h ≤ 23 ∧ mi ≤ 59 ∧ sec ≤ 59 ∧
    a = (365 * y + (y + 3) / 4 + ((monthLengths y).take (mo - 1)).sum + (d - 1)) * 86400 + h * 3600 + mi * 60 + sec

/-! ## What a wall line shows -/

/-- Two decimal digits, as texts of times show a number below 100. -/
def digits (n : Nat) : Text := [BitVec.ofNat 8 (48 + n / 10), BitVec.ofNat 8 (48 + n % 10)]

/-- A service time as hh:mm by the time display convention, the service day starting at hour `h` (R15). -/
def timeShown (h : Nat) (t : Int) : Text :=
  let m := ((t / 60 + 60 * h) % 1440).toNat
  digits (m / 60) ++ [58] ++ digits (m % 60)

/-- A text in `n` columns, padded with spaces. -/
def padded (n : Nat) (t : Text) : Text := (t ++ List.replicate n 32).take n

/-- A text on a wall line: 48 columns, and a character outside 0x20..0x7E is a space (section 7.3; log 62). -/
def onLine (t : Text) : Text := (padded 48 t).map fun c => if 0x20 ≤ c.toNat ∧ c.toNat ≤ 0x7E then c else 0x20

/-- The actions of input `i` are in force on the wall (R102, R107; log 26). -/
def Part.acts (p : Part) (i : Nat) : Prop :=
  (p.inputConfig i).mode = .act ∧ ((p.input i).state = .active ∨ (p.input i).state = .releasing)

/-- The text of a notice (R88, R92). -/
def Part.noticeLaw (p : Part) (n : Notice) (t : Text) : Prop :=
  (n.kind = .posted → t = n.text) ∧
    (n.kind = .stale → t = ((p.row 9).drop 1).take (byteField (p.row 9) 0)) ∧
    ∀ r, n.service.bind p.record? = some r →
      let head := timeShown p.time.startHour r.sched ++ [32] ++ p.table.names.getD r.dest []
      (n.kind = .change → ∀ q, r.running.platform = some q → t = head ++ txtNowPlatform ++ decimal q) ∧
      (n.kind = .change → r.running.platform = none → t = head ++ txtToBeConfirmed) ∧
      (n.kind = .cancel → t = head ++ txtCancelledNotice) ∧
      (n.kind = .delay → ∀ m, r.minutes = some m → t = head ++ txtDelayedNotice ++ txtAbout ++ decimal m ++ txtMin) ∧
      (n.kind = .unknown → t = head ++ txtDelayedNotice)

/-- The text of a banner line: the first source present of INPUT, FALLBACK, OVERRIDE and ROTATION, else none (R100, R102). -/
def Part.bannerLaw (p : Part) (t : Text) : Prop :=
  let speaks (i : Nat) : Prop := p.acts i ∧ (p.inputConfig i).banner ≠ .noChoice
  let textOf (r : Nat) : Text := ((p.row r).drop 1).take (byteField (p.row r) 0)
  let shadow := p.own.bannerOf p.own.banner
  (∀ i, i < 4 → speaks i → (∀ j, j < i → ¬speaks j) → t = textOf (if (p.inputConfig i).banner = .textA then 6 else 7)) ∧
    ((∀ i, i < 4 → ¬speaks i) →
      (p.feed.state = .lost → t = textOf 8) ∧
      (p.feed.state ≠ .lost → shadow.enabled = true → t = shadow.text) ∧
      (p.feed.state ≠ .lost → shadow.enabled = false →
        (p.notices.shown = none → t = []) ∧
        ∀ x n, p.notices.shown = some x → p.notices.byId x.id = some n → ∃ whole, p.noticeLaw n whole ∧
          t = (whole.drop (48 * (min x.page (max 1 ((whole.length + 47) / 48)) - 1))).take 48))

/-- The text of a departure row for `r`, field by field in its columns (R108). -/
def Part.rowText (p : Part) (r : Record) : Text :=
  let platform : Text :=
    match r.running.platform with
    | none => [32, 32, 45]
    | some n => [32, if n < 10 then 32 else BitVec.ofNat 8 (48 + n / 10), BitVec.ofNat 8 (48 + n % 10)]
  timeShown p.time.startHour r.sched ++ [32] ++ padded 24 (p.table.names.getD r.dest []) ++ [32] ++ platform ++ [32]
    ++ padded 10 (statusText p.time.startHour r) ++ [32, if r.mark.isSome then 42 else 32, 32]

/-- The text of a detail line for `r`, a longer one cut at 47 characters and ">" (R110). -/
def Part.callsText (p : Part) (r : Record) : Text :=
  let name (i : Nat) : Text := p.table.names.getD i []
  let all := txtCallingAt ++ if r.calls = [] then name r.dest ++ txtOnly else List.intercalate [44, 32] (r.calls.map name)
  if all.length ≤ 48 then all else all.take 47 ++ [62]

/-- What wall line `n`, counted from 0, shows (R104 to R112). The role code of the line stands in settings rows 2 and 3: 0 for BANNER,
1 for CLOCK, k + 1 for DEPARTURE(k), k + 41 for DETAIL(k), else BLANK. A line without a record to show keeps its role (log 74). -/
def Part.lineLaw (p : Part) (n : Nat) (x : LineContent) : Prop :=
  let bare (role : Role) (t : Text) : LineContent :=
    { text := onLine t, blink := 0, highlight := 0, role := role, service := none }
  let code (m : Nat) : Nat := if m < 32 then byteField (p.row 2) m else byteField (p.row 3) (m - 32)
  let repeated : Prop := ∃ m, m < n ∧ code m = code n
  let blanking : Prop := ∃ i, i < 4 ∧ p.acts i ∧ (p.inputConfig i).blank = true
  let visible := p.table.records.filter fun r => p.feed.state != .lost || r.ctl.isSome
  let s := p.time.second
  (code n = 0 → ∃ t, p.bannerLaw t ∧ x = bare .banner t) ∧
    (code n = 1 → x = bare .clock (List.replicate 20 32 ++
      if p.time.valid then digits (s / 3600) ++ [58] ++ digits (s / 60 % 60) ++ [58] ++ digits (s % 60)
      else [45, 45, 58, 45, 45, 58, 45, 45])) ∧
    (81 < code n ∨ (2 ≤ code n ∧ repeated) → x = bare .blank []) ∧
    ∀ k, 1 ≤ k → k ≤ 40 → ¬repeated →
      (∀ role, (code n = k + 1 ∧ role = .departure k ∨ code n = k + 41 ∧ role = .detail k) →
        (blanking ∨ visible.length < k) → x = bare role []) ∧
      (¬blanking → ∀ r, visible[k - 1]? = some r →
        (code n = k + 41 → x = { bare (.detail k) (p.callsText r) with service := some r.id }) ∧
        (code n = k + 1 → (∀ q, r.running.platform = some q → q ≤ 32) →
          x = { bare (.departure k) (p.rowText r) with blink := x.blink, highlight := x.highlight, service := some r.id } ∧
          ∀ c, 1 ≤ c → c ≤ 48 →
            x.blink.getLsbD (48 - c) = (r.mark.isSome && decide (32 ≤ c ∧ c ≤ 34)) ∧
            x.highlight.getLsbD (48 - c) = decide (r.display = .cancelled)))

/-! ## Cues at the end of an event -/

/-- A zone of a cue in which its release is still to come: its outcome is PENDING and the zone is not OFFLINE (R156). -/
def CueSched.waitsIn (q : CueSched) (c : Cue) (z : Nat) : Prop := (z, ZoneOutcome.pending) ∈ c.zones ∧ q.zone z ≠ .offline

/-- The display gate of a CHANGE cue of a service with a required generation (R156). -/
def Part.gateLaw (p : Part) (service required : Nat) : Prop :=
  p.chain.test.phase = .idle ∧
    ∀ n, 1 ≤ n → n ≤ 12 → p.chain.showing n = true → ∀ l ∈ p.image.linesOf n, l.content.service = some service →
      notOlder (p.chain.delivered n) required = true ∧ notOlder (p.chain.delivered n) l.generation = true

/-- A queued cue is eligible for release (R156). -/
def Part.mayRelease (p : Part) (c : Cue) : Prop :=
  c.flight = .queued ∧ p.cues.announcer = .up ∧ (∃ z, p.cues.waitsIn c z) ∧
    (∀ z, p.cues.waitsIn c z → p.cues.zone z = .idle ∧ (p.cues.queue z).head? = some c.id) ∧
    (c.template = some .change → ∃ g id, c.required = some g ∧ c.service = some id ∧ p.gateLaw id g)

/-! ## Automatic cues -/

/-- The part without the queued cues that `sel` picks: they have left the pool and every zone's queue, and nothing latches (R151). -/
def Part.without (p : Part) (sel : Cue → Bool) : Part :=
  let gone (c : Cue) : Bool := c.flight == .queued && sel c
  { p with cues := { p.cues with
    pool := p.cues.pool.filter fun c => !gone c
    queues := p.cues.queues.map fun l => l.filter fun id => p.cues.pool.all fun c => !(gone c && c.id == id) } }

/-- The automatic cues of a service that were made by a template (R148). -/
def autoCueOf (service : Nat) (t : Template) (c : Cue) : Bool :=
  c.origin == .auto && c.service == some service && c.template == some t

/-- The token list of an automatic cue of `r` by its template, a CHANGE or BOARDING cue announcing `platform` (R148). -/
def Part.tokenLaw (p : Part) (r : Record) (platform : Nat) (t : Template) : List Nat :=
  let phrase (i : Nat) : Nat := wordField (p.row 4) (2 * i)
  let number (n : Nat) : Nat := (phrase 10 + n) % 4096
  let minute := ((r.sched / 60 + 60 * p.time.startHour) % 1440).toNat
  let head := [number (minute / 60), number (minute % 60), phrase 1, (phrase 9 + r.dest) % 4096]
  let delay := r.minutes.getD 0
  match t with
  | .change => [phrase 0] ++ head ++ [phrase 2, number platform]
  | .delay => [phrase 0] ++ head ++ [phrase 3] ++ (if delay < 60 then [number delay, phrase 4] else [phrase 5])
  | .cancel => [phrase 0] ++ head ++ [phrase 6, phrase 7]
  | .boarding => head ++ [phrase 8, number platform]

/-- What a request for an automatic cue of the record `r` leaves (R149, R151, R153, R154): nothing where the feed rule bars it or no
zone is left; else the queued CHANGE or DELAY cues that it replaces are gone, and the new cue stands in the pool and in the queue
of every zone with room, or is dropped with subject 0. -/
def Part.cueAskedLaw (p : Part) (t : Template) (r : Record) (platform : Nat) (zones : List Nat) (after : Part) : Prop :=
  let kept := (numbersFrom 1 8).filter fun z => decide (z ∈ zones ∧ (p.zoneMode z = .controlOnly → r.ctl ≠ none))
  let barred : Prop := p.feed.state ≠ .live ∧ r.ctl = none
  let cls : CueClass := if t = .change then .change else .service
  let q := p.without fun c => (t == .change || t == .delay) && autoCueOf r.id t c
  let placed := kept.filter fun z => q.cues.hasRoom z cls
  let room : Prop := q.cues.ofOrigin .auto + q.cues.ofOrigin .information < 24 ∨
    ∃ v ∈ q.cues.pool, v.flight = .queued ∧ (v.origin = .auto ∨ v.origin = .information) ∧ cls.code < v.cls.code
  (barred ∨ kept = [] → after = p) ∧
    (¬barred → kept ≠ [] → (placed = [] ∨ ¬room) → after = q.latchNat .cueDropped 0) ∧
    (¬barred → placed ≠ [] → room →
      after = { p with cues := after.cues, info := after.info, ctl := after.ctl } ∧
      after.cues.nextArrival = countNext p.cues.nextArrival ∧
      ∃ x ∈ after.cues.pool,
        x = { id := x.id, cls := cls, origin := .auto, arrival := p.cues.nextArrival, service := some r.id, template := some t,
              input := none, zones := placed.map fun z => (z, .pending), tokens := p.tokenLaw r platform t, required := none,
              replayed := false, created := p.elapsed, flight := .queued } ∧
        1 ≤ x.id ∧ x.id ≤ 65535 ∧ (∀ c ∈ after.cues.pool, c.id = x.id → c = x) ∧ (∀ y ∈ p.cues.reserved, y.1 ≠ x.id) ∧
        (p.cues.idTaken p.cues.nextId = false → x.id = p.cues.nextId) ∧
        (∀ z ∈ placed, x.id ∈ after.cues.queue z) ∧
        (t = .change ∨ t = .delay → ∀ c ∈ after.cues.pool, c.flight = .queued → autoCueOf r.id t c = true → c = x) ∧
        ∀ c ∈ p.cues.pool, c.flight ≠ .queued → (∀ l ∈ p.cues.queues, c.id ∉ l) → c ∈ after.cues.pool)

/-! ## Invariants -/

/-- The Departure Table (R19, R35, R36): at most 96 records, ids unique, in table order; 256 names of at most 20 characters. -/
def Table.ok (t : Table) : Prop :=
  t.records.length ≤ 96 ∧ (t.records.map (·.id)).Nodup ∧ t.records.Pairwise (fun a b => recordBefore a b = true) ∧
    t.names.length = 256 ∧ ∀ n ∈ t.names, n.length ≤ 20

/-- A platform of a copy of running fields is 1..32 or absent (section 2.1). -/
def Running.onPlatforms (c : Running) : Prop := ∀ n, c.platform = some n → 1 ≤ n ∧ n ≤ 32

/-- The law of Control copies for one record (R65). -/
def Part.copyLaw (p : Part) (r : Record) : Prop :=
  match r.ctl with
  | none => ∀ n, r.info.platform = some n → p.controlOwned n = false
  | some c =>
    match c.platform with
    | some n => p.controlOwned n = true
    | none => p.controlOwnsAny = true

/-- Every record has a Control copy exactly when R65 says so; the owners of 32 platforms are held. -/
def Part.copiesOk (p : Part) : Prop :=
  p.own.platforms.length = 32 ∧
    ∀ r ∈ p.table.records, r.info.onPlatforms ∧ (∀ c, r.ctl = some c → c.onPlatforms) ∧ p.copyLaw r

/-- The Notice List (R88, R89, R98): at most 16 notices in list order, ids 1..255 unique, creation numbers below the next one,
no two automatic notices of one kind and service, and the rotation shows a held notice unless none is held. -/
def NoticeList.ok (l : NoticeList) : Prop :=
  l.notices.length ≤ 16 ∧ (l.notices.map (·.id)).Nodup ∧ l.notices.Pairwise (fun a b => keyBefore a b = true) ∧
    l.notices.Pairwise (fun a b => a.kind ≠ .posted → ¬(a.kind = b.kind ∧ a.service = b.service)) ∧
    (∀ n ∈ l.notices, 1 ≤ n.id ∧ n.id ≤ 255 ∧ n.priority ≤ 3 ∧ n.creation < l.nextCreation) ∧
    (1 ≤ l.nextId ∧ l.nextId ≤ 255) ∧
    (match l.shown with
     | none => l.notices = []
     | some s => s.id ∈ l.notices.map (·.id))

/-- The quotas of the cue pool, the zones of its records and the length of the zone queues (R144, R146). -/
def CueSched.ok (q : CueSched) : Prop :=
  q.ofOrigin .auto + q.ofOrigin .information ≤ 24 ∧ q.ofOrigin .control ≤ 4 ∧ q.ofOrigin .input ≤ 4 ∧
    (∀ c ∈ q.pool, ∀ z ∈ c.zones, 1 ≤ z.1 ∧ z.1 ≤ 8) ∧ ∀ l ∈ q.queues, l.length ≤ 6

/-- The Composed Image (R113, R116): 48 lines of 48 characters, and no generation is 0 or above 4294967295. -/
def Image.ok (i : Image) : Prop :=
  i.lines.length = 48 ∧ 1 ≤ i.generation ∧ i.generation ≤ countMax ∧
    ∀ l ∈ i.lines, l.content.text.length = 48 ∧ 1 ≤ l.generation ∧ l.generation ≤ countMax

/-- A row in which every field that has a range is in it: clamping changes nothing (R201, R202). -/
def rowInRange (r : Nat) (row : List Byte) : Prop := row.length = 64 ∧ clampRow r row = row

/-- The Settings Store (R201): eleven working rows of 64 bytes with every field in its range, eleven stored rows of 64 bytes,
and a park write holds the thirteen bytes of the record of the four clock lines. -/
def Part.settingsOk (p : Part) : Prop :=
  p.store.working.length = 11 ∧ (∀ r, r < 11 → rowInRange r (p.row r)) ∧
    p.store.stored.length = 11 ∧ (∀ x ∈ p.store.stored, x.bytes.length = 64) ∧
    p.clocks.lines.length = 4 ∧ ∀ e, StoreWrite.park e ∈ p.store.writes → e.length = 13

/-- The law of the spare (R131, R136): it covers only a position in use whose own panel is FAULTED, and only while its own state
is ACTIVE or WARM; a pinned position is in use with its own panel FAULTED. No poll goes to chain address 0. -/
def Chain.spareLaw (c : Chain) : Prop :=
  c.panels.length = 13 ∧ c.positions ≤ 12 ∧ (∀ q, c.poll = some q → 1 ≤ q.frame.address) ∧ (∀ a ∈ c.cycleRest, 1 ≤ a) ∧
    (∀ n, c.duty = .engaged n → c.inUse n = true ∧ (c.panel n).isFaulted = true ∧ (c.panel 13).isUp = true) ∧
    (∀ n, c.mode = .pinned n → c.inUse n = true ∧ (c.panel n).isFaulted = true)

end Sys2Proof.Machine
end

