-- ==== Sys2Proof/Certificates/Slice0/Obligations.lean ====
section
/-! DEFINITION. The statements for the provers, block by block. A command's statement gives the next state by its own effect; what
is written as an update of the state is also the frame: every field not named keeps its value. `Part.ended` is the end of the
event (EventEndFrame says what it does). -/

open Sys2Proof Sys2Proof.Machine

/-! ## The block as a machine -/

/-- A step takes the command at the front of the queue and runs it on the queue's rest. -/
def Obligations.StepTakesFrontCommand : Prop :=
  ∀ (c : Instr) (rest : List Instr) (s : State), step { s with pending := c :: rest } = exec c { s with pending := rest }

/-- With no command waiting the part runs the first event that is due, else one millisecond of elapsed time passes, in which the lines
go on (FramesReceivedAndNoticeFrameSent says how), and without power nothing happens. This is the model's choice (log 1), no rule of
the specification. -/
def Obligations.EmptyQueueRunsDueEventOrMillisecond : Prop :=
  ∀ s : State, s.pending = [] →
    (s.part.powered = false → step s = .next s) ∧
    (∀ c, s.part.powered = true → s.part.due = some c → step s = exec c s) ∧
    (s.part.powered = true → s.part.due = none →
      let p := s.part.advanceTo (s.part.elapsed + 1)
      step s = .next { s with part := { p with cues := { p.cues with tx := s.part.cues.tx.drop 1 } } } ∧
      p = { s.part with elapsed := s.part.elapsed + 1, info := p.info, ctl := p.ctl
                        time := { s.part.time with sourceMs := s.part.time.sourceMs + 1 } })

/-- Every command completes in a next state and leaves the commands that wait; without power nothing happens but at POWER_ON_RESET
and at a change of an input's level, whose contact only is seen (log 19, the model's reading). -/
def Obligations.EveryCommandCompletesAndKeepsTheQueue : Prop :=
  (∀ (c : Instr) (s : State), ∃ p, Leaves c s p) ∧
  (∀ (c : Instr) (s : State), s.part.powered = false → c ≠ .powerOnReset → (∀ i l, c ≠ .inputLevelChange i l) → Leaves c s s.part) ∧
  (∀ (i : Fin 4) (l : Bool) (s : State), s.part.powered = false →
    Leaves (.inputLevelChange i l) s
      { s.part with inputs := updateAt s.part.inputs i fun w => { w with asserted := l } })

/-- The end of an event recomposes the image exactly when the Composer has been told: a line that differs takes its new contents and
the new generation, the others keep theirs, and every line then shows what R102 and R104 to R112 give it, for a second within its day
(lineLaw; that the line holds a space for a character not shown is log 62, that a line without a record keeps its role log 74, the
model's choices, and the part an input's state takes log 26, the model's reading). CHANGE cues without a required generation are named that of the image as it then
stands. Then every eligible cue is released in the order of class and arrival number: PLAY is sent, its zones are PLAYING, its
references have left the queues, the ACCEPT wait runs, OFFLINE zones have FAILED, and the marks of the CHANGE cues sent are
announced. Everything else is left alone. -/
def Obligations.EventEndFrame : Prop :=
  ∀ (p : Part) (told : Bool),
    let q := p.ended told
    let named (c : Cue) : Cue :=
      if c.template = some .change ∧ c.required = none then { c with required := some q.image.generation } else c
    let seen : Part := { p with image := q.image, cues := { p.cues with pool := p.cues.pool.map named } }
    let out := sortBy cueBefore (seen.cues.pool.filter seen.eligibleCue)
    let offline (c : Cue) : List Nat := c.pendingZones.filter fun z => p.cues.zone z == .offline
    let playing (c : Cue) : List Nat := c.pendingZones.filter fun z => p.cues.zone z != .offline
    q = { p with image := q.image, table := q.table, cues := q.cues, info := q.info, ctl := q.ctl, ev := noEvent } ∧
    (told = false → q.image = p.image) ∧
    (told = true → p.image.lines.length = 48 →
      (p.image.lines.map (·.content) = p.composeAll → q.image = p.image) ∧
      (p.image.lines.map (·.content) ≠ p.composeAll →
        q.image.generation = countNext p.image.generation ∧
        q.image.lines.map (·.content) = p.composeAll ∧
        ∀ (k : Nat) (old new : WallLine), p.image.lines[k]? = some old → q.image.lines[k]? = some new →
          new.generation = if new.content = old.content then old.generation else q.image.generation) ∧
      (p.time.second < 86400 → ∀ (n : Nat) (line : WallLine), q.image.lines[n]? = some line → p.lineLaw n line.content)) ∧
    (∀ c ∈ seen.cues.pool, seen.eligibleCue c = true ↔ seen.mayRelease c) ∧
    (∀ c, c ∈ out ↔ c ∈ seen.cues.pool ∧ seen.eligibleCue c = true) ∧
    q.cues.tx = p.cues.tx ++ (out.zip (List.range out.length)).map (fun ck =>
      .play (times ck.2 (fun t => (t + 1) % 256) p.cues.tag) ck.1.id (playing ck.1) ck.1.tokens) ∧
    q.cues.queues = p.cues.queues.map (fun l => l.filter fun id => out.all fun c => id != c.id) ∧
    (∀ z, 1 ≤ z → z ≤ p.cues.zones.length → (∀ c ∈ p.cues.pool, ∀ y ∈ c.zones, 1 ≤ y.1 ∧ y.1 ≤ 8) →
      (∀ c ∈ out, z ∈ playing c → q.cues.zone z = .playing c.id) ∧
      ((∀ c ∈ out, z ∉ playing c) → q.cues.zone z = p.cues.zone z)) ∧
    ((p.cues.pool.map (·.id)).Nodup → q.cues.pool = seen.cues.pool.map fun c =>
      if c ∈ out then { c.setOutcome (offline c).contains .failed with flight := .sent (p.elapsed + 2000) } else c) ∧
    q.cues = { p.cues with pool := q.cues.pool, queues := q.cues.queues, zones := q.cues.zones, tx := q.cues.tx,
                           tag := q.cues.tag } ∧
    q.table.names = p.table.names ∧
    q.table.records = p.table.records.map (fun r =>
      if ∃ c ∈ out, c.template = some .change ∧ c.service = some r.id
      then { r with mark := r.mark.map fun m => { m with announced := true } } else r) ∧
    q.info.beyondEvents = p.info.beyondEvents ∧ q.ctl.beyondEvents = p.ctl.beyondEvents ∧
    ∀ l, (q.port l).isLatched .cueFailed = ((p.port l).isLatched .cueFailed || out.any fun c => !(offline c).isEmpty) ∧
      ∀ k, k ≠ .cueFailed → (q.port l).isLatched k = (p.port l).isLatched k ∧ (q.port l).subject k = (p.port l).subject k

/-- Latching sets the kind's flag and subject on both links and no other kind's, and makes a notice frame due exactly when an
unmasked kind passes from not latched to latched. -/
def Obligations.LatchingSetsFlagAndSubject : Prop :=
  ∀ (p : Part) (k : EventKind) (x : BitVec 16) (l : Link),
    let q := (p.latch k x).port l
    let q₀ := p.port l
    q.isLatched k = true ∧ (q₀.subjects.length = 29 → q.subject k = x) ∧
    (∀ j, j ≠ k → q.isLatched j = q₀.isLatched j ∧ q.subject j = q₀.subject j) ∧
    (q.noticeDue = true ↔ q₀.noticeDue = true ∨ (q₀.isLatched k = false ∧ q₀.mask.getLsbD k.code = false)) ∧
    q.beyondEvents = q₀.beyondEvents ∧
    p.latch k x = { p with info := p.info.latch k x, ctl := p.ctl.latch k x }

/-! ## Resets -/

/-- The state right after power-on reset, as the rules of each block list it. -/
def Obligations.StateResetHoldsTheListedValues : Prop :=
  let p := State.reset.part
  State.reset.pending = [] ∧
  (p.time.day = 0 ∧ p.time.second = 0 ∧ p.time.sourceMs = 0 ∧ p.time.valid = false ∧ p.time.source = .oscillator ∧
    p.runningTime = 0 ∧ p.time.slew = none ∧ p.time.ref = .absent ∧ p.time.lastOffset = none ∧ p.time.glitches = 0 ∧
    p.time.startHour = 3 ∧ p.time.serviceDay = none) ∧
  (p.table.records = [] ∧ p.table.names = List.replicate 256 []) ∧
  ((∀ n, n < 32 → p.controlOwned (n + 1) = false) ∧ (∀ z, z < 8 → p.zoneMode (z + 1) = .infoOnly) ∧
    [p.own.banner, p.own.time, p.own.clockLines, p.own.wall] = List.replicate 4 .information ∧
    (∀ l, p.own.bannerOf l = emptyShadow ∧ p.own.brightOf l = 12)) ∧
  (p.notices.notices = [] ∧ p.notices.nextId = 1 ∧ p.notices.nextCreation = 1 ∧ p.notices.shown = none) ∧
  (p.image.generation = 1 ∧ p.image.lines.length = 48 ∧
    p.image.lines.all (fun l => l.generation == 1 && l.content.service == none) = true ∧ p.globalLevel = 12) ∧
  (p.chain.positions = 12 ∧ p.chain.fitted = true ∧ p.chain.panels = List.replicate 13 resetPanel ∧ p.chain.duty = .standby ∧
    p.chain.mode = .automatic ∧ p.chain.test.phase = .idle ∧ p.chain.test.report = none) ∧
  (p.cues.pool = [] ∧ p.cues.queues = List.replicate 8 [] ∧ p.cues.zones = List.replicate 8 .idle ∧
    p.cues.announcer = .lost ∧ p.cues.silence = 0 ∧ p.cues.lastReject = none ∧ p.cues.nextId = 1 ∧ p.cues.nextArrival = 1 ∧
    p.cues.repeats = List.replicate 4 none) ∧
  (∀ i, i < 4 → p.clocks.line i = resetClockLine ∧
    p.input i = { asserted := false, state := .idle, timer := none, acting := false }) ∧
  (p.clocks.park = none ∧ p.clocks.recordValid = false ∧ p.store.frozen = false) ∧
  (∀ l, (p.port l).latched = 1 ∧ (p.port l).subject .resetDone = 0 ∧ (p.port l).mask = 0x1FFFFFFF ∧
    (p.port l).resetSeen = true ∧ (p.port l).linkError = false ∧ (p.port l).frameErrors = 0 ∧ (p.port l).attention = false ∧
    (p.port l).buffer = [] ∧ (p.port l).tx = [] ∧ (p.port l).rate = 3) ∧
  (p.feed.state = .live ∧ p.feed.lastToggle = none ∧ p.feed.heartbeatAt = some 15000 ∧ p.feed.staleAt = none)

/-- What a reset of either kind leaves in the tables, the shadows, the notices and the panel chain. A soft reset comes after the
reply to RESET_PART has been sent and a Control request in execution completed (SoftResetKeeps says what that does). -/
def Obligations.BothResetsEmptyTheTables : Prop :=
  ∀ (c : Instr) (s : State), (c = .powerOnReset ∨ (c = .softReset ∧ s.part.powered = true)) →
    let now := if c = .softReset then s.part.sendResetReply.completeControl.elapsed else s.part.elapsed
    ∃ p, Leaves c s p ∧
      p.table = resetTable ∧ p.own = resetOwnership (p.cfg 0 7) ∧ p.notices = resetNotices ∧
      p.feed = { state := .live, lastToggle := none, heartbeatAt := some (now + p.heartbeatPeriod),
                 staleAt := none } ∧
      p.resetDue = false ∧ p.elapsed = now ∧ p.store.frozen = false ∧
      p.store.working = (p.store.stored.zip (List.range 11)).map (fun xr => loadedRow xr.2 xr.1) ∧
      p.chain.positions = p.cfg 0 5 ∧ p.chain.panels = List.replicate 13 resetPanel ∧
      p.chain.fitted = (p.cfg 0 6 % 2 == 1) ∧ p.chain.duty = (if p.chain.fitted then .standby else .notFitted) ∧
      p.chain.mode = (if p.cfg 0 6 / 2 % 2 == 1 then .automatic else .released) ∧ p.chain.test = resetTest ∧
      p.cues.announcer = .lost ∧ p.cues.silence = 0 ∧ p.cues.lastReject = none ∧ p.cues.zones = List.replicate 8 .idle ∧
      (∀ x ∈ p.cues.pool, x.origin = .input) ∧
      (∀ l ∈ p.image.lines, l.generation = p.image.generation ∧ l.content.service = none) ∧
      (∀ l, (p.port l).isLatched .resetDone = true ∧ (p.port l).mask = 0x1FFFFFFF ∧ (p.port l).resetSeen = true ∧
        (p.port l).linkError = false ∧ (p.port l).frameErrors = 0 ∧ (p.port l).buffer = [] ∧ (p.port l).tx = [] ∧
        (p.port l).waiting = none ∧ (p.port l).noticeDue = false ∧ (p.port l).rate = p.cfg 0 1)

/-- What power-on reset alone leaves: station time at 2000-01-01, generation 1, the clock lines from a valid park record, and
SETTINGS_FAULT for the rows that failed the start-up check. -/
def Obligations.PowerOnResetLeaves : Prop :=
  ∀ s : State, ∃ p, Leaves .powerOnReset s p ∧
    p.powered = true ∧ p.time = resetTimebase s.part.elapsed (p.cfg 0 0) ∧ p.image.generation = 1 ∧
    p.cues.pool = [] ∧ p.cues.nextId = 1 ∧ p.cues.nextArrival = 1 ∧ p.chain.poll = none ∧
    (∀ x ∈ p.store.stored, x.failed = !x.passes) ∧
    (∀ l, (p.port l).subject .resetDone = 0 ∧
      ((p.port l).isLatched .settingsFault = (List.range 11).any fun r => (p.store.storedRow r).failed) ∧
      ∀ k, k ≠ .resetDone → k ≠ .settingsFault → (p.port l).isLatched k = false) ∧
    p.clocks.recordValid = p.store.recordValid ∧ p.clocks.park = none ∧
    (∀ i, i < 4 →
      let k := p.clocks.line i
      k.state = (if (p.clockConfig i).enabled then .stopped else .disabled) ∧ k.dial = (p.clockConfig i).dial ∧
      k.position = (if p.clocks.recordValid then parkedPosition (p.row 10) i k.dial else none) ∧ k.uncertain = false ∧
      k.impulse = none ∧ k.retryAt = none ∧ k.faults = 0 ∧
      k.polarity = (if p.clocks.recordValid = true ∧ byteField (p.row 10) (3 + 3 * i) = 1 then .minus else .plus)) ∧
    (s.part.inputs.length = 4 → ∀ i, i < 4 → (p.input i).asserted = (s.part.input i).asserted ∧
      ((p.inputConfig i).mode = .off ∨ (p.input i).asserted = false → (p.input i).state = .idle ∧ (p.input i).timer = none) ∧
      ((p.inputConfig i).mode ≠ .off → (p.input i).asserted = true → (p.input i).state = .qualifying ∧
        (p.input i).timer = some (s.part.elapsed + (p.inputConfig i).qualify)))

/-- What a soft reset keeps and takes: the Timebase but for the start hour and the service date, the next cue id until an input
starts a cue, the count of image generations, the clock lines, the input states under an unchanged mode. One that RESET_PART asked
for begins when the last byte of its reply has been sent, after the frame being sent, a notice frame that waits and the frames before
the reply; one that is commanded begins at once (log 27, the model's choice). A Control
TIMEBASE_SELECT that waits is completed first, by the gap at its limit (log 42, the model's choice); the store write under way
finishes and the others are discarded; a line without an impulse is kept but for PARKED, which becomes STOPPED, and then
evaluated; the record is held as row 10 gives it until an impulse starts. -/
def Obligations.SoftResetKeeps : Prop :=
  ∀ s : State, s.part.powered = true → ∃ p, Leaves .softReset s p ∧ p.powered = true ∧
    let q := s.part.info
    let isReply (f : OutFrame) : Prop := ∃ tag summary body, f = .reply 0x85 tag summary 0 body
    let took (frames : List OutFrame) : Nat := (frames.map (·.duration q.rate)).sum
    let notice : Nat := if q.noticeDue then took [.notice 0 q.latched] else 0
    let sent := s.part.sendResetReply
    let before := sent.completeControl
    (s.part.resetDue = false ∨ (∀ f ∈ q.tx, ¬isReply f) → sent = s.part) ∧
    (∀ ahead reply behind, s.part.resetDue = true → q.tx = ahead ++ reply :: behind → isReply reply → (∀ f ∈ ahead, ¬isReply f) →
      (q.lineEnd = none → sent = s.part.advanceTo (s.part.elapsed + notice + took ahead + took [reply])) ∧
      (∀ t, q.lineEnd = some t → ahead = [] → sent = s.part.advanceTo t) ∧
      (∀ t f rest, q.lineEnd = some t → ahead = f :: rest →
        sent = s.part.advanceTo (max s.part.elapsed t + notice + took rest + took [reply]))) ∧
    (s.part.edgeLimit .control = none → before = sent) ∧
    (∀ limit, s.part.edgeLimit .control = some limit →
      before.time = { (sent.advanceTo limit).time with edgesSince := none, source := .derived } ∧
      before = { sent with elapsed := max sent.elapsed limit, time := before.time, info := before.info, ctl := before.ctl }) ∧
    p.elapsed = before.elapsed ∧
    p.time = { before.time with startHour := p.cfg 0 0, serviceDay := if before.time.valid then some p.time.directDay else none } ∧
    p.image.generation = countNext s.part.image.generation ∧
    (p.cues.pool = [] → p.cues.nextId = s.part.cues.nextId ∧ p.cues.nextArrival = 1) ∧
    (s.part.store.writes = [] → p.store.stored = s.part.store.stored) ∧
    (∀ w rest, s.part.store.writes = w :: rest →
      p.store.stored = updateAt s.part.store.stored w.row fun r => r.write (s.part.writtenBytes w)) ∧
    (p.store.writes = [] ∨ p.store.writes = [.invalidate]) ∧
    (∀ l, (p.port l).subject .resetDone = 1 ∧
      ∀ k, k ≠ .resetDone → k ≠ .clockLineInStep → k ≠ .cueDropped → (p.port l).isLatched k = false) ∧
    p.clocks.park = none ∧
    (p.clocks.recordValid = true → p.store.recordValid = true) ∧
    ((∀ i, i < 4 → (p.clocks.line i).impulse = (s.part.clocks.line i).impulse) → s.part.clocks.lines.length = 4 →
      p.clocks.recordValid = p.store.recordValid) ∧
    (s.part.clocks.lines.length = 4 → ∀ i, i < 4 →
      let keep (k : ClockLine) : ClockLine := { k with state := if k.state = .parked then .stopped else k.state }
      let k := s.part.clocks.line i
      let kept : Part := { p with clocks := { p.clocks with lines := s.part.clocks.lines.map keep } }
      (k.impulse.isSome = true → p.clocks.line i = keep k) ∧
      (k.impulse = none → p.clocks.line i = (kept.evaluate i false false).clocks.line i) ∧
      (k.isFaulted = true → p.clocks.line i = k) ∧
      (p.clocks.line i).polarity = k.polarity ∧ (p.clocks.line i).faults = k.faults ∧ (p.clocks.line i).retryAt = k.retryAt ∧
      (k.dial = (p.clockConfig i).dial → (p.clocks.line i).position = k.position ∧ (p.clocks.line i).dial = k.dial ∧
        (p.clocks.line i).uncertain = k.uncertain)) ∧
    (s.part.inputs.length = 4 → ∀ i, i < 4 →
      let w := s.part.input i
      let old := s.part.inputConfig i
      let new := p.inputConfig i
      (p.input i).asserted = w.asserted ∧
      (new.mode = .off → (p.input i).state = .idle ∧ (p.input i).timer = none) ∧
      (new.mode ≠ .off → old.mode = .off → w.asserted = true →
        (p.input i).state = .qualifying ∧ (p.input i).timer = some (p.elapsed + new.qualify)) ∧
      (new.mode ≠ .off → (old.mode ≠ .off ∨ w.asserted = false) → (p.input i).state = w.state ∧ (p.input i).timer = w.timer) ∧
      (new.mode ≠ .off → old = new → (p.input i).acting = (decide (new.mode = .act) && w.acting)))

/-- CHAIN_RESET_COMPLETE and POLL_CYCLE_START begin a cycle: the next one is due 250 ms later, the lowest position in use is
polled, and the others and then the spare follow it. -/
def Obligations.CycleBeginsWithPositionOne : Prop :=
  ∀ (c : Instr) (s : State) (a : Nat) (rest : List Nat), s.part.powered = true → s.part.chain.polled = a :: rest →
    s.part.chain.poll = none → s.part.chain.cycleRest = [] → s.part.chain.test.isRunning = false →
    (c = .chainResetComplete ∧ s.part.chain.reset = .discarded ∨ c = .pollCycleStart ∧ s.part.chain.reset = .complete) →
    let p := if c = .pollCycleStart then s.part.advanceTo s.part.chain.nextCycleAt else s.part
    Leaves c s { p with chain := { s.part.chain with
      reset := .complete
      nextCycleAt := p.elapsed + 250
      poll := some { frame := s.part.pollFrame a, shows := s.part.panelShows a, sentAt := p.elapsed, superseded := false }
      cycleRest := rest
      clearDue := s.part.chain.clearDue && a != 13
      lastSent := some (s.part.pollFrame a) } }

/-- POWER_LOSS ends all activity: nothing is in flight, sent or waited for, and a store write under way leaves its row as it
stood in between, which is free; the other stored rows keep their contents. -/
def Obligations.PowerLossEndsActivity : Prop :=
  ∀ s : State, s.part.powered = true → ∃ p, Leaves .powerLoss s p ∧ p.powered = false ∧
    p.store.writes = [] ∧ (s.part.store.writes = [] → p.store.stored = s.part.store.stored) ∧
    (∀ w l, s.part.store.writes = w :: l → ∀ r, r ≠ w.row → p.store.storedRow r = s.part.store.storedRow r) ∧
    p.store.working = s.part.store.working ∧
    (∀ i, (p.clocks.line i).impulse = none ∧ (p.clocks.line i).position = (s.part.clocks.line i).position ∧
      (p.clocks.line i).polarity = (s.part.clocks.line i).polarity) ∧
    p.chain.poll = none ∧ p.chain.test = resetTest ∧ p.cues.pool = [] ∧ p.cues.tx = [] ∧
    (∀ l, (p.port l).tx = [] ∧ (p.port l).buffer = [] ∧ (p.port l).waiting = none ∧ (p.port l).latched = (s.part.port l).latched) ∧
    p.time = s.part.time ∧ p.table = s.part.table ∧ p.own = s.part.own ∧ p.notices = s.part.notices ∧ p.image = s.part.image ∧
    p.inputs = s.part.inputs ∧ p.feed = s.part.feed ∧ p.elapsed = s.part.elapsed

/-! ## Links -/

/-- REQUEST_FRAME_RECEIVED: a well-formed request takes one of four places, and while four are held it is answered BUSY at once,
with the KIND of a reply to it (0xFF where the KIND names no request).
NOTICE_FRAME_SEND: a notice frame that waits begins as the frame being sent ends, ahead of replies not begun, with TAG 0, the
SUMMARY and the EVENT SET of that moment; one notice at most has waited.
Whenever a command or an idle step carries elapsed time, the lines go on with it: a reply begins as the frame before it ends, in the
order of composition, and a notice frame that waits begins before it, as soon as the line is free; at that very instant it still waits
for NOTICE_FRAME_SEND (log 83, the model's choice). Nothing else of the part but elapsed time and source time changes. -/
def Obligations.FramesReceivedAndNoticeFrameSent : Prop :=
  (∀ (s : State) (l : Link) (f : RequestFrame), s.part.powered = true →
    ((s.part.port l).buffer.length < 4 →
      Leaves (.requestFrameReceived l f) s
        (s.part.modPort l fun q => { q with buffer := q.buffer ++ [f], inFrame := false })) ∧
    (4 ≤ (s.part.port l).buffer.length → ∃ q,
      Leaves (.requestFrameReceived l f) s (s.part.modPort l fun _ => q) ∧
      q.buffer = (s.part.port l).buffer ∧
      q.tx = (s.part.port l).tx ++
        [.reply (if knownKind f.kind then f.kind + 0x80 else 0xFF) f.tag (s.part.summary l) 2 []] ∧
      ((s.part.port l).lineEnd.isSome = true → q.lineEnd = (s.part.port l).lineEnd) ∧
      q = { s.part.port l with inFrame := false, tx := q.tx, lineEnd := q.lineEnd })) ∧
  (∀ (s : State) (l : Link), s.part.powered = true → (s.part.port l).noticeDue = true →
    let old := s.part.port l
    let free := old.lineEnd.getD s.part.elapsed
    let p := s.part.advanceTo free
    let notice : OutFrame := .notice (p.summary l) old.latched
    (s.part.elapsed ≤ free → Leaves (.noticeFrameSend l) s (p.modPort l fun _ =>
      { old with
        noticeDue := false
        tx := notice :: (if old.lineEnd.isSome then old.tx.drop 1 else old.tx)
        lineEnd := some (free + notice.duration old.rate) })) ∧
    (free < s.part.elapsed → Leaves (.noticeFrameSend l) s p)) ∧
  (∀ (p : Part) (t : Nat),
    let now := max p.elapsed t
    let q := p.advanceTo t
    q = { p with elapsed := now, info := q.info, ctl := q.ctl
                 time := { p.time with sourceMs := p.time.sourceMs + (now - p.elapsed) } } ∧
    ∀ l,
      let old := p.port l
      let goesOnAs (port : Port) : Prop := q.port l = ((p.modPort l fun _ => port).advanceTo t).port l
      q.port l = { old with tx := (q.port l).tx, lineEnd := (q.port l).lineEnd, noticeDue := (q.port l).noticeDue } ∧
      (∀ e, old.lineEnd = some e → now < e → q.port l = old) ∧
      (old.lineEnd = none → old.noticeDue = false → q.port l = old) ∧
      (∀ e f, old.lineEnd = some e → e ≤ now → old.noticeDue = false → old.tx = [f] →
        q.port l = { old with tx := [], lineEnd := none }) ∧
      (∀ e f g rest, old.lineEnd = some e → e ≤ now → old.noticeDue = false → old.tx = f :: g :: rest →
        goesOnAs { old with tx := g :: rest, lineEnd := some (e + g.duration old.rate) }) ∧
      (old.lineEnd = some now → old.noticeDue = true → q.port l = { old with tx := old.tx.drop 1, lineEnd := none }) ∧
      (old.lineEnd = none → old.noticeDue = true → now = p.elapsed → q.port l = old) ∧
      (old.noticeDue = true → old.lineEnd.getD p.elapsed < now →
        let notice : OutFrame := .notice (p.summary l) old.latched
        goesOnAs { old with
          noticeDue := false
          tx := notice :: (if old.lineEnd.isSome then old.tx.drop 1 else old.tx)
          lineEnd := some (old.lineEnd.getD p.elapsed + notice.duration old.rate) }))

/-- FRAME_ERROR: the counter rises, saturating, FRAME_ERRORS latches on that link alone with the counter as subject, LINK_ERROR is
set, and the port hunts unless the byte after a gap is SYNC. -/
def Obligations.FrameErrorCountsAndLatchesOnItsLink : Prop :=
  ∀ (s : State) (l : Link) (why : FrameErrorCause), s.part.powered = true →
    let q := s.part.port l
    let n := min 65535 (q.frameErrors + 1)
    Leaves (.frameError l why) s
      (s.part.modPort l fun _ =>
        { q with
          frameErrors := n, linkError := true, inFrame := decide (why = .gap 0xC5), latched := q.latched ||| 2
          subjects := updateAt q.subjects 1 fun _ => BitVec.ofNat 16 n
          noticeDue := q.noticeDue || (!q.latched.getLsbD 1 && !q.mask.getLsbD 1) })

/-- What composing a reply does: the reply joins the end of the transmit queue with KIND, TAG, SUMMARY, RESULT and body, the
request's place is freed, RESET_SEEN is cleared after the SUMMARY has been taken, a port whose request arrived in this same event
hunts (log 4, the model's reading), and nothing else changes. -/
def Obligations.ReplyCarriesKindTagSummaryResultBody : Prop :=
  ∀ (s : State) (p : Part) (kind : Nat) (rq : Req) (r : Result) (body : List Byte),
    let q := (answered s p kind rq r body).part.port rq.link
    let q₀ := p.port rq.link
    q.tx = q₀.tx ++ [.reply (BitVec.ofNat 8 (kind + 0x80)) rq.tag (p.summary rq.link) r.code body] ∧
    (q₀.lineEnd.isSome = true → q.lineEnd = q₀.lineEnd) ∧
    q = { q₀ with buffer := q₀.buffer.drop 1, inFrame := q₀.inFrame && !q₀.buffer.isEmpty, resetSeen := false, tx := q.tx,
                  lineEnd := q.lineEnd } ∧
    answered s p kind rq r body = { s with part := p.modPort rq.link fun _ => q }

/-- The SUMMARY byte, bit by bit. -/
def Obligations.SummaryBits : Prop :=
  ∀ (p : Part) (l : Link),
    let b := p.summary l
    (b.getLsbD 7 = true ↔ ∃ k : EventKind, (p.port l).isLatched k = true ∧ (p.port l).mask.getLsbD k.code = false
      ∨ ∃ n, 29 ≤ n ∧ (p.port l).latched.getLsbD n = true ∧ (p.port l).mask.getLsbD n = false) ∧
    b.getLsbD 6 = (p.port l).resetSeen ∧
    b.getLsbD 5 = (p.port l).linkError ∧
    (b.getLsbD 4 = true ↔ p.feed.state = .stale ∨ p.feed.state = .lost) ∧
    (b.getLsbD 3 = true ↔ (∃ a ∈ p.chain.polled, (p.chain.panel a).isFaulted = true) ∨ (∃ n, p.chain.duty = .engaged n) ∨
      p.chain.test.phase ≠ .idle) ∧
    (b.getLsbD 2 = true ↔ p.cues.announcer = .lost ∨ .offline ∈ p.cues.zones) ∧
    (b.getLsbD 1 = true ↔ p.time.valid = false ∨ p.time.ref.isLocked = false ∨ p.time.source = .derived) ∧
    (b.getLsbD 0 = true ↔ ∃ i, i < 4 ∧ (p.inputConfig i).mode = .act ∧ (p.input i).state = .active)

/-- The checks that come before a request's own: an unknown kind, a body from which the kind cannot be read, and a kind of the
Information link on the Control link, each refused with an empty body and nothing else changed. The length of a body is fixed for
most kinds; the others agree with the counts and lengths they carry. -/
def Obligations.RequestChecksComeFirst : Prop :=
  (∀ (s : State) (l : Link) (f : RequestFrame), s.part.powered = true → s.part.canExecute l f = true →
    let rq : Req := { link := l, tag := f.tag, body := f.body }
    let checked (readable : Prop) : Prop :=
      (¬readable → Answers (commandOf l f) s f.kind.toNat rq s.part .badLength []) ∧
      (readable → l = .control → f.kind.toNat ∈ informationKinds →
        Answers (commandOf l f) s f.kind.toNat rq s.part .notPermitted [])
    (knownKind f.kind = false → commandOf l f = .unknownKindRequest l f ∧
      Leaves (.unknownKindRequest l f) s (answered s s.part 0x7F rq .unknownKind []).part) ∧
    (∀ n, fixedLength f.kind.toNat = some n → checked (f.body.length = n)) ∧
    (f.kind = 0x10 → checked ((readServicePut f.body).isSome = true)) ∧
    (f.kind = 0x12 → checked ((readServiceRemove f.body).isSome = true)) ∧
    (f.kind = 0x15 → checked ((readNameLoad f.body).isSome = true)) ∧
    (f.kind = 0x18 → checked ((readNoticePost f.body).isSome = true)) ∧
    (f.kind = 0x1B → checked ((readBannerSet f.body).isSome = true)) ∧
    (f.kind = 0x28 → checked ((readCuePost f.body).isSome = true)) ∧
    (f.kind = 0x41 → checked ((readSettingsWrite f.body).isSome = true))) ∧
  ∀ b : List Byte,
    let at_ (i : Nat) : Nat := (b.getD i 0).toNat
    let textEnds : Prop := 6 ≤ b.length ∧ b.length = 6 + at_ 5
    ((readServiceRemove b).isSome = true ↔ 1 ≤ b.length ∧ b.length = 1 + 2 * at_ 0) ∧
    ((readNoticePost b).isSome = true ↔ textEnds) ∧ ((readBannerSet b).isSome = true ↔ textEnds) ∧
    ((readCuePost b).isSome = true ↔ 6 ≤ b.length ∧ b.length = 6 + 2 * at_ 5) ∧
    ((readSettingsWrite b).isSome = true ↔ 3 ≤ b.length ∧ b.length ≤ 66) ∧
    (∀ rs, readServicePut b = some rs → rs.length = at_ 0 ∧
      b.length = 1 + (rs.map fun r => 16 + r.label.length + r.calls.length).sum) ∧
    (∀ i names, readNameLoad b = some (i, names) → i = at_ 0 ∧ names.length = at_ 1 ∧
      b = b.take 2 ++ names.flatMap fun n => BitVec.ofNat 8 n.length :: n)

/-- EVENTS_READ_CLEAR gives the event set as it stands, then clears the latched kinds named and LINK_ERROR. EVENTS_MASK_SET: a bit
among 29..31 is refused; otherwise the mask is replaced, the answer gives it, and a notice frame becomes due if a latched kind is
unmasked. -/
def Obligations.EventSetReadClearedAndMasked : Prop :=
  (∀ (s : State) (rq : Req) (clear : BitVec 32), Executes s 0x02 rq → rq.body = setBytes clear →
    (s.part.port rq.link).subjects.length = 29 →
    ∃ q, Answers (.eventsReadClear rq) s 0x02 rq (s.part.modPort rq.link fun _ => q) .ok
        (setBytes (s.part.port rq.link).latched ++ setBytes (s.part.port rq.link).mask
          ++ be 2 (s.part.port rq.link).frameErrors ++ (s.part.port rq.link).subjects.flatMap (fun x => be 2 x.toNat)) ∧
      q = { s.part.port rq.link with latched := q.latched, subjects := q.subjects, linkError := false } ∧
      ∀ k : EventKind,
        q.isLatched k = ((s.part.port rq.link).isLatched k && !clear.getLsbD k.code) ∧
        q.subject k = (if (s.part.port rq.link).isLatched k && clear.getLsbD k.code then 0
          else (s.part.port rq.link).subject k)) ∧
  (∀ (s : State) (rq : Req) (mask : BitVec 32), Executes s 0x03 rq → rq.body = setBytes mask →
    (0x1FFFFFFF < mask.toNat → Answers (.eventsMaskSet rq) s 0x03 rq s.part .invalidField []) ∧
    (mask.toNat ≤ 0x1FFFFFFF →
      Answers (.eventsMaskSet rq) s 0x03 rq
        (s.part.modPort rq.link fun q =>
          { q with
            mask := mask
            noticeDue := q.noticeDue || decide (∃ n : Fin 32, q.latched.getLsbD n ∧ q.mask.getLsbD n ∧ ¬mask.getLsbD n) })
        .ok (setBytes mask)))

/-- RESET_PART is answered OK and leaves the soft reset due; from then on the Information Port executes no request. -/
def Obligations.ResetPartStopsTheInformationPort : Prop :=
  ∀ (s : State) (rq : Req), Executes s 0x05 rq → rq.body = [] →
    Answers (.resetPart rq) s 0x05 rq { s.part with resetDue := true } .ok [] ∧
    ∀ f, ({ s.part with resetDue := true } : Part).canExecute .information f = false

/-! ## Feed -/

/-- HEARTBEAT: a toggle above 1 is refused; the last taken toggle again is refused SEQUENCE and changes nothing; any other is
taken, restarts the heartbeat timer and returns the feed to LIVE, with FEED_RESTORED naming the state left. -/
def Obligations.HeartbeatTakenOrOutOfSequence : Prop :=
  ∀ (s : State) (rq : Req) (toggle : Byte), Executes s 0x04 rq → rq.body = [toggle] →
    (1 < toggle.toNat → Answers (.heartbeat rq) s 0x04 rq s.part .invalidField []) ∧
    (toggle.toNat ≤ 1 → s.part.feed.lastToggle = some toggle.toNat →
      Answers (.heartbeat rq) s 0x04 rq s.part .sequence [feedCode s.part.feed.state, 1, toggle]) ∧
    (toggle.toNat ≤ 1 → s.part.feed.lastToggle ≠ some toggle.toNat →
      let timer := some (s.part.elapsed + s.part.heartbeatPeriod)
      let live : Part := { s.part with
        feed := { s.part.feed with state := .live, lastToggle := some toggle.toNat, heartbeatAt := timer } }
      let restored : Part := { live with feed := { live.feed with staleAt := none } }
      (s.part.feed.state = .live → Answers (.heartbeat rq) s 0x04 rq (live.ended false) .ok [0, 1, toggle]) ∧
      (s.part.feed.state = .stale → Answers (.heartbeat rq) s 0x04 rq
        (((restored.withdrawNotice .stale none).latchNat .feedRestored 1).ended true) .ok [0, 1, toggle]) ∧
      (s.part.feed.state = .lost → Answers (.heartbeat rq) s 0x04 rq
        ((restored.latchNat .feedRestored 2).ended true) .ok [0, 1, toggle]))

/-- The heartbeat timer's expiry makes the feed STALE, starts the stale timer, asks for the STALE notice, purges the automatic
cues without a Control copy and latches FEED_STALE; the stale timer's makes it LOST, withdraws the notice and latches FEED_LOST.
The purge leaves no queued automatic cue without a Control copy of its service, nothing else leaves the pool, and each one purged
latches CUE_DROPPED, in ascending order of arrival, so that the subject is the last one's. -/
def Obligations.FeedTimersExpireAndPurge : Prop :=
  (∀ (p : Part), (p.cues.pool.map (·.id)).Nodup →
    let q := p.purgeAuto
    q.cues.pool = p.cues.pool.filter (fun c => !(c.isQueued && c.origin == .auto && p.orphaned c)) ∧
    (∀ l ∈ q.cues.queues, ∀ c ∈ p.cues.pool, c.isQueued = true → c.origin = .auto → p.orphaned c = true → c.id ∉ l) ∧
    (let purged := p.cues.pool.filter fun c => c.isQueued && c.origin == .auto && p.orphaned c;
      ∀ l, (q.port l).isLatched .cueDropped = ((p.port l).isLatched .cueDropped || !purged.isEmpty) ∧
        (∀ c ∈ purged, (∀ d ∈ purged, d ≠ c → countLower d.arrival c.arrival = true) → (p.port l).subjects.length = 29 →
          (q.port l).subject .cueDropped = BitVec.ofNat 16 c.id) ∧
        (purged = [] → q.port l = p.port l) ∧
        (∀ k, k ≠ .cueDropped → (q.port l).isLatched k = (p.port l).isLatched k ∧ (q.port l).subject k = (p.port l).subject k) ∧
        (q.port l).beyondEvents = (p.port l).beyondEvents) ∧
    q = { p with cues := { p.cues with pool := q.cues.pool, queues := q.cues.queues }, info := q.info, ctl := q.ctl }) ∧
  ∀ (s : State), s.part.powered = true →
    (∀ t, s.part.feed.heartbeatAt = some t →
      let p := s.part.advanceTo t
      let p : Part := { p with feed := { p.feed with state := .stale, heartbeatAt := none,
                                                     staleAt := some (p.elapsed + p.staleLimit) } }
      Leaves .heartbeatTimerExpiry s ((((p.askNotice .stale none).purgeAuto).latchNat .feedStale 0).ended true)) ∧
    (∀ t, s.part.feed.staleAt = some t →
      let p := s.part.advanceTo t
      let p : Part := { p with feed := { p.feed with state := .lost, staleAt := none } }
      Leaves .staleTimerExpiry s (((p.withdrawNotice .stale none).latchNat .feedLost 0).ended true))

/-! ## Ownership -/

/-- ASSIGN's checks in their order: an unknown resource, an undefined value, the value already held, and the permission of the
Control link by the feed state. A permitted change of a zone or of a wall-wide resource sets its mode or owner, tells the
Composer of BANNER and WALL, latches OWNERSHIP_CHANGED with the code and changes nothing else. -/
def Obligations.AssignChecksAndWallWideEffect : Prop :=
  ∀ (s : State) (rq : Req) (code v : Byte), Executes s 0x06 rq → rq.body = [code, v] →
    ((code.toNat = 0 ∨ 44 < code.toNat) → Answers (.assign rq) s 0x06 rq s.part .invalidField []) ∧
    (∀ r, resourceOf code.toNat = some r →
      ((match r with | .zone _ => 2 < v.toNat | _ => 1 < v.toNat) →
        Answers (.assign rq) s 0x06 rq s.part .invalidField []) ∧
      (v.toNat = s.part.holds r → (match r with | .zone _ => v.toNat ≤ 2 | _ => v.toNat ≤ 1) →
        Answers (.assign rq) s 0x06 rq s.part .ok []) ∧
      (v.toNat ≠ s.part.holds r → (match r with | .zone _ => v.toNat ≤ 2 | _ => v.toNat ≤ 1) → rq.link = .control →
        v ≠ 0 → (s.part.feed.state = .live ∨ 41 ≤ code.toNat) →
        Answers (.assign rq) s 0x06 rq s.part .notPermitted []) ∧
      (33 ≤ code.toNat → r.allows v.toNat = true → s.part.holds r ≠ v.toNat →
        (rq.link = .information ∨ v = 0 ∨ (code.toNat ≤ 40 ∧ s.part.feed.state ≠ .live)) →
        Answers (.assign rq) s 0x06 rq
          ((({ s.part with own := s.part.own.put r v.toNat } : Part).latchNat .ownershipChanged code.toNat).ended
            (code == 41 || code == 44)) .ok []))

/-- A platform taken for the Control link: every record without a Control copy that stands on it gains one equal to its
Information copy, and nothing else of any record changes. -/
def Obligations.SeizureMakesControlCopies : Prop :=
  ∀ (s : State) (rq : Req) (code : Byte), Executes s 0x06 rq → rq.body = [code, 1] → 1 ≤ code.toNat → code.toNat ≤ 32 →
    s.part.own.platforms.length = 32 → s.part.controlOwned code.toNat = false →
    (rq.link = .information ∨ s.part.feed.state ≠ .live) →
    Answers (.assign rq) s 0x06 rq
      ((({ s.part with
          own := { s.part.own with platforms := updateAt s.part.own.platforms (code.toNat - 1) fun _ => .control }
          table := { s.part.table with records := s.part.table.records.map fun r =>
            if r.ctl = none ∧ r.info.platform = some code.toNat then { r with ctl := some r.info } else r } } :
        Part).latchNat .ownershipChanged code.toNat).ended false) .ok []

/-- A platform given back to the Information link: no Control copy stands on it any more, a copy without a platform is left only
while the Control link owns a platform, and OWNERSHIP_CHANGED latches. -/
def Obligations.ReturnDropsControlCopies : Prop :=
  ∀ (s : State) (rq : Req) (code : Byte), Executes s 0x06 rq → rq.body = [code, 0] → 1 ≤ code.toNat → code.toNat ≤ 32 →
    s.part.own.platforms.length = 32 → s.part.controlOwned code.toNat = true → s.part.table.ok → s.part.copiesOk →
    ∃ p, Answers (.assign rq) s 0x06 rq p .ok [] ∧
      p.own = { s.part.own with platforms := updateAt s.part.own.platforms (code.toNat - 1) fun _ => .information } ∧
      (∀ r ∈ p.table.records, ∀ c, r.ctl = some c → c.platform ≠ some code.toNat ∧
        (c.platform = none → p.own.platforms.contains .control = true)) ∧
      (∀ r ∈ p.table.records, ∃ r₀ ∈ s.part.table.records, r.id = r₀.id ∧ r.info = r₀.info ∧ r.sched = r₀.sched ∧
        ((∀ c, r₀.ctl = some c → c.platform = some code.toNat →
          r.ctl = if r₀.info.platform.any p.controlOwned then some r₀.info else none) ∧
        (∀ c m, r₀.ctl = some c → c.platform = some m → m ≠ code.toNat → r.ctl = some c) ∧
        (r₀.ctl = none → r.ctl = none))) ∧
      (∀ l, (p.port l).isLatched .ownershipChanged = true)

/-! ## Station time -/

/-- TIME_SET is refused NOT_OWNER, INVALID_FIELD or NOT_PERMITTED, the first check that fails deciding; otherwise it is a step of
station time that first discards the large-offset run, performs the rollovers of a forward step and latches TIME_STEPPED. Station
seconds that are over end before the step (log 8, the model's choice; TelegramsQualifyAndReferenceTimersExpire says how). -/
def Obligations.TimeSetStepsStationTime : Prop :=
  ∀ (s : State) (rq : Req) (y m d sec : Nat) (flags : Byte), Executes s 0x09 rq →
    rq.body = be 2 y ++ be 1 m ++ be 1 d ++ be 4 sec ++ [flags] → y < 65536 → m < 256 → d < 256 → sec < 4294967296 →
    (s.part.own.time ≠ rq.link → Answers (.timeSet rq) s 0x09 rq s.part .notOwner []) ∧
    (s.part.own.time = rq.link → dayOfDate y m d = none ∨ 86399 < sec →
      Answers (.timeSet rq) s 0x09 rq s.part .invalidField []) ∧
    (s.part.own.time = rq.link → (dayOfDate y m d).isSome = true → sec ≤ 86399 → s.part.time.ref.isLocked = true →
      flags.getLsbD 0 = false → Answers (.timeSet rq) s 0x09 rq s.part .notPermitted []) ∧
    (∀ day, dayOfDate y m d = some day → sec ≤ 86399 → s.part.own.time = rq.link →
      (s.part.time.ref.isLocked = false ∨ flags.getLsbD 0 = true) →
      let t := s.part.owedSeconds.time
      ∃ p, Answers (.timeSet rq) s 0x09 rq p .ok [] ∧
        p.time = { t.discardRun with
          day := day, second := sec, sourceMs := 0, secondLength := 1000, slew := none, valid := true
          serviceDay := p.time.serviceDay } ∧
        (t.valid = false → p.time.serviceDay = some p.time.directDay) ∧
        (∀ sd, t.valid = true → t.serviceDay = some sd →
          p.time.serviceDay = some (sd +
            (if t.instant < ((day * 86400 + sec : Nat) : Int) * 1000 then
              max 0 (((day * 86400 + sec : Nat) : Int) - t.startOf sd) / 86400 else 0))) ∧
        (∀ l, (p.port l).isLatched .timeStepped = true ∧ ((s.part.port l).subjects.length = 29 →
          (p.port l).subject .timeStepped =
            stepSubject (((day * 86400 + sec : Nat) : Int) * 1000 - t.instant))) ∧
        p.own = s.part.own ∧ p.elapsed = s.part.elapsed ∧ p.chain = s.part.chain ∧ p.inputs = s.part.inputs ∧
        p.feed = s.part.feed ∧ p.store.working = s.part.store.working)

/-- TIMEBASE_SELECT: refused to a link that does not own TIME; OK while the oscillator is in use; waiting for an edge while the
derived source is in use and the oscillator has run for 10 s; otherwise NOT_READY. An edge that a TIMEBASE_SELECT waits for
returns the part to the oscillator and latches OSCILLATOR_SWITCHED with subject 0; a gap makes the running time 0 and, in the
oscillator's use, takes the derived source and latches subject 1. Station time is left. The wait is limited to 2 ms: at its limit
the gap is due, and an edge commanded after the limit finds the gap first (log 52, the model's choice). A gap refuses a waiting request
also less than 2 ms after its execution (log 58, the model's choice). -/
def Obligations.TimebaseSelectEdgeAndGap : Prop :=
  (∀ (s : State) (rq : Req), Executes s 0x0A rq → rq.body = [] →
    (s.part.own.time ≠ rq.link → Answers (.timebaseSelect rq) s 0x0A rq s.part .notOwner []) ∧
    (s.part.own.time = rq.link → s.part.time.source = .oscillator →
      Answers (.timebaseSelect rq) s 0x0A rq s.part .ok []) ∧
    (s.part.own.time = rq.link → s.part.time.source = .derived → s.part.runningTime < 10000 →
      Answers (.timebaseSelect rq) s 0x0A rq s.part .notReady []) ∧
    (s.part.own.time = rq.link → s.part.time.source = .derived → 10000 ≤ s.part.runningTime →
      Leaves (.timebaseSelect rq) s (s.part.modPort rq.link fun q =>
        { q with waiting := some (.edge rq.tag (s.part.elapsed + 2))
                 buffer := if q.buffer = [] then [requestFrame rq 0x0A] else q.buffer
                 inFrame := q.inFrame && !q.buffer.isEmpty }))) ∧
  ∀ (s : State), s.part.powered = true →
    let waits (l : Link) (tag : Byte) (limit : Nat) : Prop := (s.part.port l).waiting = some (.edge tag limit)
    let overdue : Prop := ∃ l tag limit, waits l tag limit ∧ limit < s.part.elapsed
    (∀ l tag limit, waits l tag limit → limit ≤ s.part.elapsed → some .oscillatorGap ∈ s.part.dueInTime) ∧
    (overdue → ∃ t, exec .oscillatorGap s = .next t ∧ exec .timebaseSelectEdge s = exec .timebaseSelectEdge t) ∧
    (¬overdue → ∃ p, Leaves .timebaseSelectEdge s p ∧
      p.time = { s.part.time with
        edgesSince := some (s.part.time.edgesSince.getD s.part.elapsed), source := p.time.source } ∧
      (∀ l tag limit, waits l tag limit →
        p.time.source = .oscillator ∧ (p.port l).waiting = none ∧ (p.port l).isLatched .oscillatorSwitched = true ∧
        ((s.part.port l).subjects.length = 29 → (p.port l).subject .oscillatorSwitched = 0) ∧
        ∃ summary, (p.port l).tx.getLast? = some (.reply 0x8A tag summary 0 [])) ∧
      ((∀ l tag limit, ¬waits l tag limit) →
        p.info = s.part.info ∧ p.ctl = s.part.ctl ∧ p.time.source = s.part.time.source) ∧
      p = { s.part with time := p.time, info := p.info, ctl := p.ctl }) ∧
    (∃ p, Leaves .oscillatorGap s p ∧
      p.time = { s.part.time with edgesSince := none, source := .derived } ∧ p.runningTime = 0 ∧
      (∀ l, (p.port l).isLatched .oscillatorSwitched =
          (decide (s.part.time.source = .oscillator) || (s.part.port l).isLatched .oscillatorSwitched) ∧
        (s.part.time.source = .oscillator → (s.part.port l).subjects.length = 29 →
          (p.port l).subject .oscillatorSwitched = 1)) ∧
      (∀ l tag limit, waits l tag limit →
        (p.port l).waiting = none ∧ ∃ summary, (p.port l).tx.getLast? = some (.reply 0x8A tag summary 14 [])) ∧
      p = { s.part with time := p.time, info := p.info, ctl := p.ctl })

/-- A telegram is judged when the gap that ends it is over, 21 ms after its arrival instant (log 7, the model's value), against
local station time captured at that instant. It is valid with seven bytes that sum to 0 modulo 256 and give a date that exists and a
time of day, and in step when it arrives 980 to 1020 ms after the last valid one and announces the second after it (the first second of
the range is not after its last: log 44, the model's choice). The station seconds that are over at its arrival end before its instant is captured,
and those that end in its gap end with the gap, each as STATION_SECOND ends it. One that is not valid is ignored. A valid one that arrives later than 3 s after the last valid one finds LOCKED left for
HOLDOVER as REFERENCE_TIMEOUT leaves it; one that arrives at the 3 s or before them is in time (log 59, the model's choice). It moves the reference from ABSENT and HOLDOVER to a run of 1, and from
QUALIFYING to a longer run when it is in step, else to a run of 1. The last offset is the announced instant less the captured one. 3 s
after the last valid telegram's arrival LOCKED is left for HOLDOVER, the large-offset run counted as glitches and TIME_LOCK_CHANGED
latched with subject 3; 30 s after its entry HOLDOVER is left for ABSENT. -/
def Obligations.TelegramsQualifyAndReferenceTimersExpire : Prop :=
  (∀ (bytes : List Byte) (a : Nat), telegramSeconds bytes = some a ↔ telegramLaw bytes a) ∧
  (∀ (p : Part) (a : Nat), p.inStep a = true ↔ ∃ v, p.time.lastValid = some v ∧ v.arrival + 980 ≤ p.elapsed ∧
    p.elapsed ≤ v.arrival + 1020 ∧ a = v.announced + 1) ∧
  (∀ (s : State) (bytes : List Byte), s.part.powered = true →
    let ended := (s.part.owedSeconds.advanceTo (s.part.elapsed + 21)).owedSeconds
    (telegramSeconds bytes = none → Leaves (.referenceTelegram bytes) s ended) ∧
    (∀ a, telegramSeconds bytes = some a →
      let seen : Timebase := { ended.time with
        lastValid := some { arrival := s.part.elapsed, announced := a }
        lastOffset := some ((a : Int) * 1000 - s.part.owedSeconds.time.instant) }
      let after (r : RefState) : Part := ({ ended with time := { seen with ref := r } } : Part).ended false
      (s.part.time.ref = .absent → Leaves (.referenceTelegram bytes) s (after (.qualifying 1))) ∧
      (∀ t, s.part.time.ref = .holdover t → Leaves (.referenceTelegram bytes) s (after (.qualifying 1))) ∧
      (∀ n, s.part.time.ref = .qualifying n → s.part.inStep a = false →
        Leaves (.referenceTelegram bytes) s (after (.qualifying 1))) ∧
      (∀ n, s.part.time.ref = .qualifying n → s.part.inStep a = true → n < 4 →
        Leaves (.referenceTelegram bytes) s (after (.qualifying (n + 1)))) ∧
      (∀ n run v u, s.part.time.ref = .locked n run → s.part.time.lastValid = some v → v.arrival + 3000 < s.part.elapsed →
        Leaves .referenceTimeout s u → exec (.referenceTelegram bytes) s = exec (.referenceTelegram bytes) { s with part := u }))) ∧
  (∀ (s : State), s.part.powered = true →
    (s.part.time.sourceMs < s.part.time.secondLength → s.part.owedSeconds = s.part) ∧
    (s.part.time.secondLength ≤ s.part.time.sourceMs →
      ∃ p, Leaves .stationSecond s p ∧ s.part.owedSeconds = p.owedSeconds)) ∧
  ∀ (s : State), s.part.powered = true →
    (∀ n run v, s.part.time.ref = .locked n run → s.part.time.lastValid = some v →
      let p := s.part.advanceTo (v.arrival + 3000)
      Leaves .referenceTimeout s
        (({ p with time := { p.time with
          ref := .holdover p.elapsed
          glitches := min 65535 (p.time.glitches + run.length) } } : Part).latchNat .timeLockChanged 3)) ∧
    (∀ since, s.part.time.ref = .holdover since →
      let p := s.part.advanceTo (since + 30000)
      Leaves .holdoverExpiry s { p with time := { p.time with ref := .absent } })

/-- The telegram that completes the run of five locks the reference, corrects station time by a step or a slew, and latches
TIME_LOCK_CHANGED with subject 2, all at the end of its gap: a step puts station time at the announced time as of the arrival
instant, 21 ms before (log 7, the model's value). While LOCKED without valid time a telegram steps station time and empties the run
of large offsets; with it a small offset replaces the slew and counts the run as glitches, a large one that agrees joins the run and
as the third steps station time, and one that disagrees counts the run as glitches and begins a new one (a telegram later than 3 s
after the last finds HOLDOVER: TelegramsQualifyAndReferenceTimersExpire). Then (log 11, the model's
reading) a telegram in step empties the out-of-step count, and the fifth out of step leaves for HOLDOVER, the run that is left
counted as glitches. -/
def Obligations.LockedTelegramsCorrectStationTime : Prop :=
  ∀ (s : State) (bytes : List Byte) (a : Nat), s.part.powered = true → telegramSeconds bytes = some a →
    let offset : Int := (a : Int) * 1000 - s.part.owedSeconds.time.instant
    let now := (s.part.owedSeconds.advanceTo (s.part.elapsed + 21)).owedSeconds.time
    ∃ p, Leaves (.referenceTelegram bytes) s p ∧ p.time.lastOffset = some offset ∧
      p.elapsed = s.part.elapsed + 21 ∧ p.time.lastValid = some { arrival := s.part.elapsed, announced := a } ∧
      (∀ n, s.part.time.ref = .qualifying n → s.part.inStep a = true → 4 ≤ n →
        p.time.ref = .locked 0 [] ∧
        (∀ l, (p.port l).isLatched .timeLockChanged = true ∧
          ((s.part.port l).subjects.length = 29 → (p.port l).subject .timeLockChanged = 2)) ∧
        (now.valid = true → offset.natAbs ≤ 2000 →
          p.time.slew = (if offset.natAbs ≤ 10 then none else some offset) ∧ p.time.day = now.day ∧
          p.time.second = now.second) ∧
        (now.valid = false ∨ 2000 < offset.natAbs →
          p.time.day = a / 86400 ∧ p.time.second = a % 86400 ∧ p.time.sourceMs = 21 ∧ p.time.valid = true ∧
          p.time.slew = none)) ∧
      (∀ n run, s.part.time.ref = .locked n run → run.length ≤ 2 →
        (∀ v, s.part.time.lastValid = some v → s.part.elapsed ≤ v.arrival + 3000) →
        let counted (k : Nat) : Nat := min 65535 (s.part.time.glitches + k)
        let agrees : Prop := ∀ o ∈ run, (o - offset).natAbs ≤ 1000
        let stepped : Prop := p.time.day = a / 86400 ∧ p.time.second = a % 86400 ∧ p.time.sourceMs = 21 ∧ p.time.valid = true ∧
          p.time.slew = none ∧ ∀ l, (p.port l).isLatched .timeStepped = true
        let runsOn : Prop := p.time.day = now.day ∧ p.time.second = now.second ∧ p.time.sourceMs = now.sourceMs ∧ p.time.valid = true
        let leavesRun (kept : List Int) (glitches : Nat) : Prop :=
          (s.part.inStep a = true → p.time.ref = .locked 0 kept ∧ p.time.glitches = glitches) ∧
          (s.part.inStep a = false → n < 4 → p.time.ref = .locked (n + 1) kept ∧ p.time.glitches = glitches) ∧
          (s.part.inStep a = false → 4 ≤ n → p.time.ref = .holdover (s.part.elapsed + 21) ∧
            p.time.glitches = min 65535 (glitches + kept.length) ∧
            ∀ l, (p.port l).isLatched .timeLockChanged = true ∧
              ((s.part.port l).subjects.length = 29 → (p.port l).subject .timeLockChanged = 3))
        (now.valid = false → stepped ∧ leavesRun [] s.part.time.glitches) ∧
        (now.valid = true → offset.natAbs ≤ 2000 → runsOn ∧ p.time.slew = (if offset.natAbs ≤ 10 then none else some offset) ∧
          leavesRun [] (counted run.length)) ∧
        (now.valid = true → 2000 < offset.natAbs →
          (agrees → run.length < 2 → runsOn ∧ p.time.slew = now.slew ∧ leavesRun (run ++ [offset]) s.part.time.glitches) ∧
          (agrees → run.length = 2 → stepped ∧ leavesRun [] s.part.time.glitches) ∧
          (¬agrees → runsOn ∧ p.time.slew = now.slew ∧ leavesRun [offset] (counted run.length))))

/-- STATION_SECOND: the second, the day and the date advance by one second, the slew moves 10 ms towards 0 over a slewed second and
ends at 10 ms, and the next second has the length the slew gives; source time beyond the end of the second is kept. While time is
valid this is a second boundary: a rollover when service seconds reach 86400, the retirement check of every record, the Composer
told, and at a minute boundary the evaluation of the clock lines. Past the end of the range time is not valid, and the Composer and
the clock lines are told. -/
def Obligations.StationSecondAdvances : Prop :=
  ∀ (s : State), s.part.powered = true →
    let t := s.part.time
    let last : Prop := t.second = 86399 ∧ t.day = 36524
    let moved := s.part.advanceTo (s.part.elapsed + (t.secondLength - t.sourceMs))
    ∃ p, Leaves .stationSecond s p ∧
      p.elapsed = moved.elapsed ∧
      p.time.sourceMs = moved.time.sourceMs - t.secondLength ∧
      p.time.second = (if t.second = 86399 then 0 else t.second + 1) ∧
      p.time.day = (if t.second = 86399 then (if t.day = 36524 then 0 else t.day + 1) else t.day) ∧
      (∀ c, t.slew = some c → 10 < c.natAbs → t.secondLength = (if 0 < c then 990 else 1010) →
        p.time.slew = (if c.natAbs ≤ 20 then none else some (if 0 < c then c - 10 else c + 10)) ∧
        p.time.secondLength = (if c.natAbs ≤ 20 then 1000 else t.secondLength)) ∧
      (t.slew = none → p.time.slew = none ∧ p.time.secondLength = 1000) ∧
      (last → p.time.valid = false ∧ p.time.serviceDay = none) ∧
      (¬last → p.time.valid = t.valid) ∧
      (t.valid = false → ¬last → Leaves .stationSecond s (({ moved with time := p.time } : Part).ended false)) ∧
      (last → Leaves .stationSecond s ((({ moved with time := p.time } : Part).evaluateAll false).ended true)) ∧
      (t.valid = true → ¬last →
        let begun : Part := { moved with time := { p.time with serviceDay := t.serviceDay } }
        let turns : Prop := ∃ d, t.serviceDay = some d ∧
          (86400 : Int) ≤ (begun.time.day * 86400 + begun.time.second : Nat) - (d * 86400 + t.startHour * 3600)
        let rolled (q : Part) : Prop := (turns → q = begun.rollover) ∧ (¬turns → q = begun)
        (∀ q, rolled q →
          let checked := q.retireCheck fun _ => true
          Leaves .stationSecond s
            ((if p.time.second % 60 = 0 then checked.evaluateAll true else checked).ended true)) ∧
        (∀ d, t.serviceDay = some d → (turns → p.time.serviceDay = some (d + 1) ∧ ∀ l, (p.port l).isLatched .rolloverDone = true) ∧
          (¬turns → p.time.serviceDay = some d)) ∧
        ∀ r ∈ p.table.records, ∀ sd, p.time.serviceDay = some sd →
          max 0 (((p.time.day * 86400 + p.time.second : Nat) : Int) - (sd * 86400 + t.startHour * 3600)) < p.retireInstant r) ∧
      p.time.ref = t.ref ∧ p.time.glitches = t.glitches ∧ p.own = s.part.own ∧ p.chain = s.part.chain ∧
      p.inputs = s.part.inputs ∧ p.feed = s.part.feed

/-- While time is valid, the running of station time to the start of the next service day performs one rollover: the service date
advances, records of the old day leave, the others are shifted by 86400 s in S, in E of both copies and in the departed-report instant and
computed again, and ROLLOVER_DONE latches with the day number. -/
def Obligations.RolloverShiftsTheTable : Prop :=
  ∀ (p : Part) (d : Int), p.time.serviceDay = some d → (p.table.records.map (·.id)).Nodup →
    let q := p.rollover
    q.time = { p.time with serviceDay := some (d + 1) } ∧
    (∀ l, (q.port l).isLatched .rolloverDone = true ∧
      ((p.port l).subjects.length = 29 → (q.port l).subject .rolloverDone = BitVec.ofInt 16 (d + 1))) ∧
    (q.table.records.map fun r => (r.id, r.sched)).Perm
      ((p.table.records.filter fun r => !(decide (r.eff < 86400) || (r.running.unknown && decide (r.sched < 86400)))).map
        fun r => (r.id, r.sched - 86400)) ∧
    (∀ r ∈ q.table.records, ∃ r₀ ∈ p.table.records, r.id = r₀.id ∧
      r.info = { r₀.info with expected := r₀.info.expected.map (· - 86400) } ∧
      r.ctl = r₀.ctl.map (fun c => { c with expected := c.expected.map (· - 86400) }) ∧
      r.departedAt = r₀.departedAt.map (· - 86400) ∧ r.mark = r₀.mark ∧
      r.origin = r₀.origin ∧ r.announcedDelay = r₀.announcedDelay ∧
      r = q.computed { r₀ with sched := r.sched, info := r.info, ctl := r.ctl, departedAt := r.departedAt })

/-! ## Departure Table and running status -/

/-- Delay minutes: undefined without E or while the delay is unknown, else 0 for early running, else the delay in minutes with a
half minute rounding up, at most 999. The shown-late flag follows its table, from the late threshold L, the hysteresis H, M and
the stored flag, which is clear in a record being created. -/
def Obligations.DelayMinutesAndShownLateFlag : Prop :=
  (∀ (p : Part) (r : Record),
    ((r.running.expected = none ∨ r.running.unknown = true) → (p.computed r).minutes = none) ∧
    (∀ e, r.running.expected = some e → r.running.unknown = false →
      (e - r.sched ≤ 0 → (p.computed r).minutes = some 0) ∧
      (0 < e - r.sched → ∃ m : Nat, (p.computed r).minutes = some m ∧
        ((e - r.sched + 30) / 60 ≤ 999 → (m : Int) = (e - r.sched + 30) / 60) ∧
        (999 < (e - r.sched + 30) / 60 → m = 999)))) ∧
  ∀ (p : Part) (r : Record),
    let q := p.computed r
    (q.minutes = none → q.late = false) ∧
    (∀ m, q.minutes = some m →
      (r.late = false → (q.late = true ↔ p.lateL < m)) ∧
      (r.late = true → p.hystH ≤ p.lateL → (q.late = false ↔ m ≤ p.lateL - p.hystH)) ∧
      (r.late = true → p.lateL < p.hystH → (q.late = false ↔ m = 0))) ∧
    (q.late = true → ∃ m, q.minutes = some m ∧ 1 ≤ m) ∧
    ∀ (x : PutRecord) (st : Status), (x.fresh st).late = false

/-- The display state is the first of the seven whose condition holds, and has its status text. The effective departure F follows
the delay in whole minutes while the record is shown late; the ordering key K is F when Q is set, the record is late by Q minutes or
more and not cancelled, else S. Nothing else of the record is computed. -/
def Obligations.DisplayStateDepartureAndKey : Prop :=
  (∀ (p : Part) (r : Record),
    let q := p.computed r
    (r.running.status = .departed → q.display = .departed) ∧
    (r.running.status = .cancelled → q.display = .cancelled) ∧
    (r.running.status = .closed → q.display = .closed) ∧
    (r.running.status = .boarding → q.display = .boarding) ∧
    (r.running.status = .normal → r.running.unknown = true → q.display = .delayed) ∧
    (r.running.status = .normal → r.running.unknown = false → ∀ m, q.late = true → q.minutes = some m →
      q.display = .expected m) ∧
    (r.running.status = .normal → r.running.unknown = false → q.late = false → q.display = .onTime)) ∧
  (∀ (r : Record) (h : Nat),
    (r.display = .departed → statusText h r = chars ['D', 'e', 'p', 'a', 'r', 't', 'e', 'd']) ∧
    (r.display = .cancelled → statusText h r = chars ['C', 'a', 'n', 'c', 'e', 'l', 'l', 'e', 'd']) ∧
    (r.display = .closed → statusText h r = chars ['C', 'l', 'o', 's', 'e', 'd']) ∧
    (r.display = .boarding → statusText h r = chars ['B', 'o', 'a', 'r', 'd', 'i', 'n', 'g']) ∧
    (r.display = .delayed → statusText h r = chars ['D', 'e', 'l', 'a', 'y', 'e', 'd']) ∧
    (∀ m, r.display = .expected m →
      statusText h r = chars ['E', 'x', 'p', ' '] ++ timeShown h (60 * (r.sched / 60 + (m : Int)))) ∧
    (r.display = .onTime → statusText h r = chars ['O', 'n', ' ', 't', 'i', 'm', 'e'])) ∧
  ∀ (p : Part) (r : Record),
    let q := p.computed r
    (∀ m, q.late = true → q.minutes = some m → q.eff = r.sched + 60 * (m : Int)) ∧
    (q.late = false → q.eff = r.sched) ∧
    (∀ m, q.late = true → q.minutes = some m → 0 < p.reseqQ → p.reseqQ ≤ m → r.running.status ≠ .cancelled →
      q.key = q.eff) ∧
    (q.late = false ∨ p.reseqQ = 0 ∨ r.running.status = .cancelled ∨ (∃ m, q.minutes = some m ∧ m < p.reseqQ) →
      q.key = r.sched) ∧
    q = { r with minutes := q.minutes, late := q.late, display := q.display, eff := q.eff, key := q.key }

/-- The retire instant by its table. -/
def Obligations.RetireInstant : Prop :=
  ∀ (p : Part) (r : Record),
    (∀ t, r.running.status = .departed → r.departedAt = some t →
      p.retireInstant r = t + (wordField (p.row 1) 9 : Int)) ∧
    (r.running.status = .cancelled → p.retireInstant r = r.sched + (wordField (p.row 1) 7 : Int)) ∧
    ((r.running.status = .normal ∨ r.running.status = .boarding ∨ r.running.status = .closed) →
      p.retireInstant r = if r.running.unknown then r.sched + 21600 else r.eff + (wordField (p.row 1) 5 : Int))

/-- When a record of a SERVICE_PUT is refused, in the order of the checks: INVALID_FIELD exactly for the listed conditions, then
NOT_OWNER for a Control-owned platform without a Control copy, then TABLE_FULL for a new record of a full table. A record refused
leaves everything as it was; every other record is taken. -/
def Obligations.PutRefusals : Prop :=
  ∀ (p : Part) (r : PutRecord),
    let bad : Prop := r.id = 0 ∨ 8 < r.label.length ∨ 107999 < r.sched ∨ (∃ e, r.expected = some e ∧ 107999 < e) ∨
      (∃ n, r.platform = some n ∧ 32 < n) ∨ statusOfCode r.status = none ∨ 12 < r.calls.length ∨ ¬r.calls.Nodup ∨
      r.dest ∈ r.calls ∨ (p.record? r.id = none ∧ r.status = 3) ∨
      (∃ o, p.record? r.id = some o ∧ (o.running.status = .departed ∨ o.info.status = .departed)) ∨
      (∃ o st, p.record? r.id = some o ∧ statusOfCode r.status = some st ∧
        (st, o.info.status) ∉ [(.normal, .normal), (.boarding, .normal), (.departed, .normal), (.cancelled, .normal),
          (.normal, .boarding), (.boarding, .boarding), (.closed, .boarding), (.departed, .boarding),
          (.cancelled, .boarding), (.boarding, .closed), (.closed, .closed), (.departed, .closed), (.cancelled, .closed),
          (.normal, .cancelled), (.cancelled, .cancelled)])
    let foreign : Prop := ∃ n, r.platform = some n ∧ p.controlOwned n = true ∧ ∀ o, p.record? r.id = some o → o.ctl = none
    let full : Prop := p.record? r.id = none ∧ 96 ≤ p.table.records.length
    (bad → p.putOne r = (p, .invalidField)) ∧
    (¬bad → foreign → p.putOne r = (p, .notOwner)) ∧
    (¬bad → ¬foreign → full → p.putOne r = (p, .tableFull)) ∧
    (¬bad → ¬foreign → ¬full → (p.putOne r).2 = .ok)

/-- SERVICE_PUT of no record or of more than eight is refused whole, and one with records is answered OK with one result for
each. One new record is created with the values of the request and no Control copy, handed on against the creation baseline, takes
its place in the table order, and is gone again only if its retire instant is not after now. One record for an id held replaces the
static fields and the Information copy, and keeps the Control copy and the tracking fields; the record is handed on, with origin PUT
if the effective fields changed, when S or an effective item differs, and nothing else happens when none does. -/
def Obligations.ServicePutAnswersEachRecordAndCreates : Prop :=
  (∀ (s : State) (rq : Req) (rs : List PutRecord), Executes s 0x10 rq → readServicePut rq.body = some rs →
    ((rs.length = 0 ∨ 8 < rs.length) → Answers (.servicePut rq) s 0x10 rq s.part .invalidField []) ∧
    (1 ≤ rs.length → rs.length ≤ 8 → ∃ (p : Part) (results : List Result), Answers (.servicePut rq) s 0x10 rq p .ok
      (be 1 rs.length ++ results.map Result.code) ∧ results.length = rs.length)) ∧
  ∀ (s : State) (rq : Req) (r : PutRecord) (st : Status), Executes s 0x10 rq → readServicePut rq.body = some [r] →
    s.part.table.ok → (s.part.putOne r).2 = .ok → statusOfCode r.status = some st →
    let copy : Running :=
      { platform := r.platform, expected := r.expected.map Int.ofNat, unknown := r.unknown, status := st }
    let handed (before : Running) (put : Record) : Prop := ∃ p, Answers (.servicePut rq) s 0x10 rq p .ok [1, 0] ∧
      ((p.record? r.id).isSome = true ↔ s.part.retireDue (s.part.computed put) = false) ∧
      (∀ x, p.record? r.id = some x → s.part.handsOn before put x) ∧
      p.table.ok ∧ p.table.names = s.part.table.names ∧
      ((p.table.records.filter (·.id != r.id)).map Record.beyondAnnounced
        = (s.part.table.records.filter (·.id != r.id)).map Record.beyondAnnounced) ∧
      p.own = s.part.own ∧ p.time = s.part.time ∧ p.chain = s.part.chain ∧ p.clocks = s.part.clocks ∧
      p.inputs = s.part.inputs ∧ p.store = s.part.store ∧ p.feed = s.part.feed
    (s.part.record? r.id = none → ∃ put : Record, handed creationBaseline put ∧
      put.id = r.id ∧ put.label = r.label ∧ put.sched = r.sched ∧ put.dest = r.dest ∧ put.calls = r.calls ∧
      put.autoCue = r.autoCue ∧ put.info = copy ∧ put.ctl = none ∧ put.late = false ∧ put.announcedDelay = none ∧
      put.mark = none ∧ put.departedAt = none ∧ put.origin = .noChange) ∧
    (∀ o, s.part.record? r.id = some o →
      let now : Running := o.ctl.getD copy
      let put : Record := { o with
        label := r.label, sched := r.sched, dest := r.dest, calls := r.calls, autoCue := r.autoCue, info := copy
        origin := if now = o.running then o.origin else .put
        departedAt := if now.status = .departed then some (s.part.tableNow.getD 0) else none }
      (((r.sched : Int) ≠ o.sched ∨ now ≠ o.running) → handed o.running put) ∧
      ((r.sched : Int) = o.sched → now = o.running → Answers (.servicePut rq) s 0x10 rq
        (({ s.part with table := { s.part.table with records := s.part.table.records.map fun x =>
          if x.id = r.id then put else x } } : Part).ended false) .ok [1, 0]))

/-- SERVICE_UPDATE of the copy that is not effective: the copy takes the values and nothing else happens, whatever the platform,
also while the train is boarding; from the Control link it needs a Control copy, also for a mask that leaves every item (log 73, the
model's choice). -/
def Obligations.UpdateOfTheOtherCopyChangesNothingElse : Prop :=
  ∀ (s : State) (rq : Req) (u : UpdateBody) (r : Record) (c : Running), Executes s 0x11 rq →
    readServiceUpdate rq.body = some u → (s.part.table.records.map (·.id)).Nodup → s.part.record? u.id = some r →
    u.malformed = false →
    (rq.link = .control → r.ctl = none → Answers (.serviceUpdate rq) s 0x11 rq s.part .notOwner []) ∧
    (rq.link = .information → r.ctl = some c → c.status ≠ .departed → r.info.status ≠ .departed →
      statusPermitted r.info.status (u.statusAfter r.info) = true →
      (c.status = .departed ↔ r.departedAt.isSome = true) →
      Answers (.serviceUpdate rq) s 0x11 rq
        (({ s.part with table := { s.part.table with records := s.part.table.records.map fun x =>
          if x.id = u.id then { x with info := u.apply r.info } else x } } : Part).ended false) .ok [])

/-- SERVICE_UPDATE's checks in their order, also for a mask that leaves every item (log 73, the model's choice), the update of the
effective copy, and the triggers. The effective copy takes all the values together, and a change is of the link's origin and handed
on. At a computation the withdrawals of the DELAY, UNKNOWN and CANCEL notices and the removal of queued DELAY and BOARDING cues come
first, then the CANCEL notice and cue, the UNKNOWN notice, the DELAY notice and cue, the BOARDING cue, and DELAY_NOTICE; A follows
its rule. -/
def Obligations.UpdateOfTheEffectiveCopy : Prop :=
  (∀ (s : State) (rq : Req) (u : UpdateBody), Executes s 0x11 rq → readServiceUpdate rq.body = some u → s.part.table.ok →
    let refused (r : Result) : Prop := Answers (.serviceUpdate rq) s 0x11 rq s.part r []
    let malformed : Prop := u.platformAction = .both ∨ u.expectedAction = .both ∨ u.unknownAction = .both ∨
      (u.platformAction = .set ∧ (u.platform = 0 ∨ 32 < u.platform)) ∨ (u.expectedAction = .set ∧ 107999 < u.expected) ∨
      (u.setStatus = true ∧ statusOfCode u.status = none)
    (s.part.record? u.id = none → refused .notFound) ∧
    (∀ r, s.part.record? u.id = some r →
      (malformed → refused .invalidField) ∧
      (¬malformed → rq.link = .control → r.ctl = none → refused .notOwner) ∧
      (∀ c, ¬malformed → r.copyOf rq.link = some c →
        let asked := u.statusAfter c
        let permitted : Prop := (c.status, asked) ∈ [(.normal, .normal), (.normal, .boarding), (.normal, .departed),
          (.normal, .cancelled), (.boarding, .normal), (.boarding, .boarding), (.boarding, .closed), (.boarding, .departed),
          (.boarding, .cancelled), (.closed, .boarding), (.closed, .closed), (.closed, .departed), (.closed, .cancelled),
          (.cancelled, .normal), (.cancelled, .cancelled)]
        let foreign : Prop := u.platformAction = .set ∧
          (rq.link = .information ∧ r.ctl = none ∧ s.part.controlOwned u.platform = true ∨
            rq.link = .control ∧ s.part.controlOwned u.platform = false)
        let final : Prop := r.running.status = .departed ∨ c.status = .departed
        (final → refused .invalidField) ∧
        (¬final → ¬permitted → refused .invalidField) ∧
        (¬final → permitted → foreign → refused .notOwner) ∧
        (¬final → permitted → ¬foreign → boardingLocked rq.link u r = false → c = r.running →
          (rq.link = .information → r.ctl = none) →
          let changed : Record := { r.setCopy rq.link (u.apply c) with
            origin := if u.apply c = c then r.origin else updateOrigin rq.link
            departedAt := if (u.apply c).status = .departed then some (s.part.tableNow.getD 0) else none }
          (u.apply c = c → Answers (.serviceUpdate rq) s 0x11 rq
            (({ s.part with table := { s.part.table with records := s.part.table.records.map fun x =>
              if x.id = u.id then changed else x } } : Part).ended false) .ok []) ∧
          (u.apply c ≠ c → ∃ p, Answers (.serviceUpdate rq) s 0x11 rq p .ok [] ∧
            ((p.record? u.id).isSome = true ↔ s.part.retireDue (s.part.computed changed) = false) ∧
            (∀ x, p.record? u.id = some x → s.part.handsOn c changed x) ∧
            (p.table.records.filter (·.id != u.id)).map Record.beyondAnnounced
              = (s.part.table.records.filter (·.id != u.id)).map Record.beyondAnnounced ∧
            p.table.ok ∧ p.own = s.part.own ∧ p.time = s.part.time ∧ p.chain = s.part.chain ∧ p.store = s.part.store))))) ∧
  (∀ (p : Part) (before : Running) (r : Record), (p.table.records.map (·.id)).Nodup → r ∈ p.table.records →
    let now := r.running
    let becomes (st : Status) : Prop := now.status = st ∧ before.status ≠ st
    let ends : Prop := becomes .cancelled ∨ becomes .departed
    let unknown (c : Running) : Prop := c.unknown = true ∧ (c.status = .normal ∨ c.status = .boarding ∨ c.status = .closed)
    let fires : Prop := now.status = .normal ∧ r.late = true ∧ p.noticeN ≤ r.minutes.getD 0 ∧
      ∀ a, r.announcedDelay = some a → a + p.stepP ≤ r.minutes.getD 0
    let announce (a : Option Nat) (q : Part) : Part := { q with table := { q.table with
      records := q.table.records.map fun x => if x.id = r.id then { x with announcedDelay := a } else x } }
    ∀ q₁ q₂ q₃ q₄ q₅ q₆ q₇ q₈ : Part,
      (ends ∨ r.late = false ∧ r.announcedDelay.isSome = true → q₁ = (announce none p).withdrawNotice .delay (some r.id)) →
      (¬(ends ∨ r.late = false ∧ r.announcedDelay.isSome = true) → q₁ = p) →
      (ends → q₂ = (q₁.withdrawNotice .unknown (some r.id)).removeAuto r.id [.delay, .boarding]) → (¬ends → q₂ = q₁) →
      (before.status = .cancelled ∧ now.status ≠ .cancelled → q₃ = q₂.withdrawNotice .cancel (some r.id)) →
      (¬(before.status = .cancelled ∧ now.status ≠ .cancelled) → q₃ = q₂) →
      (unknown before ∧ ¬unknown now → q₄ = q₃.withdrawNotice .unknown (some r.id)) →
      (¬(unknown before ∧ ¬unknown now) → q₄ = q₃) →
      (becomes .cancelled → q₅ = (if r.autoCue then (q₄.askNotice .cancel (some r.id)).askRecordCue .cancel r.id
        else q₄.askNotice .cancel (some r.id))) → (¬becomes .cancelled → q₅ = q₄) →
      (unknown now ∧ ¬unknown before → q₆ = q₅.askNotice .unknown (some r.id)) →
      (¬(unknown now ∧ ¬unknown before) → q₆ = q₅) →
      (fires → q₇ = announce r.minutes (if r.autoCue then (q₆.askNotice .delay (some r.id)).askRecordCue .delay r.id
        else q₆.askNotice .delay (some r.id))) → (¬fires → q₇ = q₆) →
      (becomes .boarding ∧ r.autoCue = true ∧ now.platform.isSome = true → q₈ = q₇.askRecordCue .boarding r.id) →
      (¬(becomes .boarding ∧ r.autoCue = true ∧ now.platform.isSome = true) → q₈ = q₇) →
      (fires → p.triggers before r.id = q₈.latchNat .delayNotice r.id) ∧ (¬fires → p.triggers before r.id = q₈)) ∧
  ∀ (p : Part) (k : NoticeKind) (id : Nat), p.notices.ok → k ≠ .posted →
    (∀ n ∈ (p.withdrawNotice k (some id)).notices.notices, ¬(n.kind = k ∧ n.service = some id)) ∧
    ((p.notices.notices.length < 16 ∨ (∃ n ∈ p.notices.notices, n.kind = k ∧ n.service = some id)) →
      ∃ n ∈ (p.askNotice k (some id)).notices.notices, n.kind = k ∧ n.service = some id ∧ n.priority = autoPriority k ∧
        n.creation + 1 = (p.askNotice k (some id)).notices.nextCreation)

/-- The boarding lock: an Information update that moves the platform of a BOARDING or CLOSED record without a Control copy is
refused LOCKED, once the checks before it have passed. -/
def Obligations.BoardingLockRefuses : Prop :=
  ∀ (s : State) (rq : Req) (u : UpdateBody) (r : Record), Executes s 0x11 rq → readServiceUpdate rq.body = some u →
    s.part.record? u.id = some r → rq.link = .information → u.malformed = false → r.ctl = none →
    (r.info.status = .boarding ∨ r.info.status = .closed) → statusPermitted r.info.status (u.statusAfter r.info) = true →
    (u.platformAction = .set ∧ r.info.platform ≠ some u.platform ∧ s.part.controlOwned u.platform = false ∨
      u.platformAction = .clear ∧ r.info.platform ≠ none) →
    Answers (.serviceUpdate rq) s 0x11 rq s.part .locked []

/-- SERVICE_REMOVE of one id: NOT_FOUND, NOT_OWNER for a record with a Control copy, or the record leaves the table with its
automatic notices and its queued automatic cues, latching nothing. NAME_LOAD writes its names from the first index on and tells
the Composer; a bad count, name or range changes nothing. -/
def Obligations.ServiceRemoveAndNameLoad : Prop :=
  (∀ (s : State) (rq : Req) (ids : List Nat), Executes s 0x12 rq → readServiceRemove rq.body = some ids →
    ((ids.length = 0 ∨ 16 < ids.length) → Answers (.serviceRemove rq) s 0x12 rq s.part .invalidField []) ∧
    (1 ≤ ids.length → ids.length ≤ 16 → ∃ (p : Part) (results : List Result), Answers (.serviceRemove rq) s 0x12 rq p .ok
      (be 1 ids.length ++ results.map Result.code) ∧ results.length = ids.length)) ∧
  (∀ (s : State) (rq : Req) (id : Nat), Executes s 0x12 rq → readServiceRemove rq.body = some [id] →
    (s.part.record? id = none → Answers (.serviceRemove rq) s 0x12 rq (s.part.ended false) .ok [1, 6]) ∧
    (∀ r, s.part.record? id = some r → r.ctl ≠ none →
      Answers (.serviceRemove rq) s 0x12 rq (s.part.ended false) .ok [1, 8]) ∧
    (∀ r, s.part.record? id = some r → r.ctl = none → s.part.notices.ok → ∃ q : Part,
      Answers (.serviceRemove rq) s 0x12 rq (q.ended true) .ok [1, 0] ∧
      q.table = { s.part.table with records := s.part.table.records.filter (·.id != id) } ∧
      (∀ n ∈ q.notices.notices, n.kind ∈ [.delay, .unknown, .change, .cancel] → n.service ≠ some id) ∧
      q.cues.pool.all (fun c => !(c.isQueued && c.origin == .auto && c.service == some id && c.template.isSome)) = true ∧
      q.info = s.part.info ∧ q.ctl = s.part.ctl ∧ q.own = s.part.own ∧ q.time = s.part.time)) ∧
  ∀ (s : State) (rq : Req) (i : Nat) (names : List Text), Executes s 0x15 rq → readNameLoad rq.body = some (i, names) →
    s.part.table.names.length = 256 →
    ((names.length = 0 ∨ 8 < names.length ∨ (∃ n ∈ names, 20 < n.length) ∨ 256 < i + names.length) →
      Answers (.nameLoad rq) s 0x15 rq s.part .invalidField []) ∧
    (1 ≤ names.length → names.length ≤ 8 → (∀ n ∈ names, n.length ≤ 20) → i + names.length ≤ 256 → ∃ all,
      Answers (.nameLoad rq) s 0x15 rq
        (({ s.part with table := { s.part.table with names := all } } : Part).ended true) .ok [] ∧
      all.length = 256 ∧
      ∀ k, k < 256 → all[k]? = if i ≤ k ∧ k < i + names.length then names[k - i]? else s.part.table.names[k]?)

/-- A change of the effective platform of a record, by the Change Tracker: the mark starts or restarts and keeps the first platform,
PLATFORM_CHANGED latches; an allocation latches nothing and ends a mark; a reversal ends the mark and latches. CHANGE_MARK_EXPIRY:
at its expiry, to which the command carries elapsed time (log 2, the model's choice), an ACTIVE mark ends, the record's CHANGE notice
is withdrawn and the Composer is told; nothing latches. Each class of R75 asks for its notices and cues in its order: a change asks for the
CHANGE notice (or withdraws it), removes the BOARDING cues of earlier events (log 14, the model's reading) and asks for a CHANGE cue; a
withdrawal removes the CHANGE cues instead; an allocation under a mark withdraws the notice; a reversal withdraws both and announces only
what had been announced. A passage to CANCELLED or DEPARTED under a mark withdraws both, a reinstatement asks for the notice again (R84;
logs 13 and 48, the model's reading and choice). What a cue asked for is made of is cueAskedLaw. -/
def Obligations.ChangeTrackerMarksAndExpiry : Prop :=
  (∀ (s : State) (id : Nat) (r : Record) (m : Mark), s.part.powered = true → s.part.record? id = some r → r.mark = some m →
    let p := s.part.advanceTo m.expiry
    Leaves (.changeMarkExpiry id) s
      ((({ p with table := { p.table with records := p.table.records.map fun x =>
        if x.id = id then { x with mark := none } else x } } : Part).withdrawNotice .change (some id)).ended true)) ∧
  (∀ (p : Part) (before : Running) (r : Record), (p.table.records.map (·.id)).Nodup → r ∈ p.table.records →
    let q := p.trackPlatform before r
    let mark (x : Part) : Option Mark := (x.record? r.id).bind (·.mark)
    (∀ old new, before.platform = some old → r.running.platform = some new → old ≠ new →
      (∀ m, r.mark = some m → m.original ≠ new) →
      (mark q).map (·.original) = some ((r.mark.map (·.original)).getD old) ∧
      (mark q).map (·.expiry) = some (p.elapsed + wordField (p.row 1) 11 * 1000) ∧
      ∀ l, (q.port l).isLatched .platformChanged = true) ∧
    (∀ old, before.platform = some old → r.running.platform = none →
      (mark q).map (·.original) = some ((r.mark.map (·.original)).getD old) ∧
      ∀ l, (q.port l).isLatched .platformChanged = true) ∧
    (∀ new, before.platform = none → r.running.platform = some new → (∀ m, r.mark = some m → m.original ≠ new) →
      mark q = none ∧ q.info = p.info ∧ q.ctl = p.ctl ∧ q.cues = p.cues) ∧
    (∀ new m, r.running.platform = some new → r.mark = some m → m.original = new → before.platform ≠ some new →
      mark q = none ∧ ∀ l, (q.port l).isLatched .platformChanged = true) ∧
    (before.platform = r.running.platform → q = p)) ∧
  (∀ (p : Part) (before : Running) (r : Record), (p.table.records.map (·.id)).Nodup → r ∈ p.table.records →
    (p.cues.pool.map (·.id)).Nodup →
    let now := r.running
    let runs : Prop := now.status = .normal ∨ now.status = .boarding ∨ now.status = .closed
    let zoneOf (platform : Nat) : Nat := byteField (p.row 3) (15 + platform)
    let marked (m : Option Mark) (q : Part) : Part := { q with table := { q.table with
      records := q.table.records.map fun x => if x.id = r.id then { x with mark := m } else x } }
    let started (old : Nat) : Part := marked (some {
      original := (r.mark.map (·.original)).getD old, expiry := p.elapsed + wordField (p.row 1) 11 * 1000
      announced := (r.mark.map (·.announced)).getD false }) p
    let ask (q : Part) : Part := q.askNotice .change (some r.id)
    let withdraw (q : Part) : Part := q.withdrawNotice .change (some r.id)
    let earlier (c : Cue) : Bool := autoCueOf r.id .boarding c && countLower c.arrival p.ev.arrivalMark
    let noChange (q : Part) : Part := q.without (autoCueOf r.id .change)
    let q := p.trackPlatform before r
    (∀ old new, before.platform = some old → now.platform = some new → old ≠ new → (∀ m, r.mark = some m → m.original ≠ new) →
      ∀ q₁ q₂ : Part, (runs → q₁ = (ask (started old)).without earlier) → (¬runs → q₁ = (withdraw (started old)).without earlier) →
        (r.autoCue = true ∧ runs → q₂ = q₁.askCue .change r.id new
          [zoneOf ((r.mark.map (·.original)).getD old), zoneOf old, zoneOf new]) →
        (¬(r.autoCue = true ∧ runs) → q₂ = q₁) → q = q₂.latchNat .platformChanged r.id) ∧
    (∀ old, before.platform = some old → now.platform = none →
      (runs → q = (noChange ((ask (started old)).without earlier)).latchNat .platformChanged r.id) ∧
      (¬runs → q = (noChange ((withdraw (started old)).without earlier)).latchNat .platformChanged r.id)) ∧
    (∀ new, before.platform = none → now.platform = some new → (∀ m, r.mark = some m → m.original ≠ new) →
      (r.mark = none → q = p) ∧ (r.mark ≠ none → q = withdraw (marked none p))) ∧
    (∀ m, r.mark = some m → now.platform = some m.original → before.platform ≠ now.platform → ∀ q₂ : Part,
      let announces : Prop := m.announced = true ∧ r.autoCue = true ∧ runs
      (announces → q₂ = (noChange (withdraw p)).askCue .change r.id m.original
        (zoneOf m.original :: (before.platform.map zoneOf).toList)) →
      (¬announces → q₂ = noChange (withdraw p)) → q = (marked none q₂).latchNat .platformChanged r.id) ∧
    (let active : Prop := ∃ x m, q.record? r.id = some x ∧ x.mark = some m
      let stops : Prop := (Becomes before now .cancelled ∨ Becomes before now .departed) ∧ (r.mark ≠ none ∨ active)
      let reinstated : Prop := before.status = .cancelled ∧ runs ∧ before.platform = now.platform ∧ active
      (stops → p.track before r.id = noChange (withdraw q)) ∧ (reinstated → p.track before r.id = ask q) ∧
      (¬stops → ¬reinstated → p.track before r.id = q))) ∧
  (∀ (p : Part) (r : Record) (t : Template), p.record? r.id = some r →
    let zone := match r.running.platform with
      | some q => byteField (p.row 3) (15 + q)
      | none => byteField (p.row 0) 8
    p.askRecordCue t r.id = p.askCue t r.id (r.running.platform.getD 0) [zone]) ∧
  ∀ (p : Part) (r : Record) (t : Template) (platform : Nat) (zones : List Nat), p.record? r.id = some r → p.cues.ok →
    p.cues.queues.length = 8 → (p.cues.pool.map (·.id)).Nodup → 1 ≤ p.cues.nextId → p.cues.nextId ≤ 65535 →
    (∃ id, 1 ≤ id ∧ id ≤ 65535 ∧ p.cues.idTaken id = false) →
    p.cueAskedLaw t r platform zones (p.askCue t r.id platform zones)

/-! ## Reads -/

/-- Every read is answered OK with what it reads and leaves the part as it is; a range, row or id it does not take is refused.
The bodies rest where the specification leaves them open on the model's choices of logs 24, 46, 50, 51, 55, 61, 64. -/
def Obligations.ReadsAnswerAndChangeNothing : Prop :=
  ∀ (s : State) (rq : Req),
    (Executes s 0x01 rq → rq.body = [] → Answers (.identify rq) s 0x01 rq s.part .ok
      ([3, 96, 12, 1, 0, 20, 16, 120, 48, 48, 48, 40, 12, 1, 32, 24, 4, 4, 8, 6, 24, 4, 4, 4, 3, 252, 29, 11, 64, 8, 16]
        ++ s.part.store.stored.flatMap (fun r => be 2 r.saves) ++ [flagByte s.part.store.frozen]
        ++ be 1 (s.part.port rq.link).rate ++ be 1 s.part.chain.positions ++ [flagByte s.part.chain.fitted]
        ++ s.part.chain.spareStateBytes)) ∧
    (Executes s 0x07 rq → rq.body = [] → Answers (.ownershipRead rq) s 0x07 rq s.part .ok
      (s.part.own.platforms.map (fun l => BitVec.ofNat 8 (linkCode l))
        ++ s.part.own.zones.map (fun m => BitVec.ofNat 8 (zoneModeCode m))
        ++ [s.part.own.banner, s.part.own.time, s.part.own.clockLines, s.part.own.wall].map (fun l => BitVec.ofNat 8 (linkCode l))
        ++ [feedCode s.part.feed.state] ++ be 1 (s.part.table.records.filter fun r => r.ctl.isSome).length
        ++ be 1 (s.part.table.records.filter fun r => r.ctl.any fun c => c.platform.isNone).length
        ++ s.part.shadowBytes (s.part.own.bannerOf rq.link) ++ be 1 (s.part.own.brightOf rq.link))) ∧
    (Executes s 0x08 rq → rq.body = [] → Answers (.timeRead rq) s 0x08 rq s.part .ok
      (dateBytes s.part.time.day ++ be 4 s.part.time.second ++ be 2 s.part.time.millis ++ [flagByte s.part.time.valid]
        ++ be 1 (refCode s.part.time.ref) ++ [sourceCode s.part.time.source]
        ++ optInt 4 (s.part.time.lastOffset.map clampOffset) ++ optInt 4 s.part.time.slew ++ be 2 s.part.time.glitches
        ++ optBytes 4 dateBytes (if s.part.time.valid then s.part.time.serviceDay else none)
        ++ optInt 4 s.part.time.handedSeconds ++ be 1 s.part.time.startHour)) ∧
    (∀ id, Executes s 0x13 rq → rq.body = be 2 id → id < 65536 →
      (s.part.record? id = none → Answers (.serviceRead rq) s 0x13 rq s.part .notFound []) ∧
      (∀ r, s.part.record? id = some r → Answers (.serviceRead rq) s 0x13 rq s.part .ok (s.part.recordBytes r))) ∧
    (∀ k n : Byte, Executes s 0x14 rq → rq.body = [k, n] →
      ((k = 0 ∨ n = 0 ∨ 16 < n.toNat) → Answers (.tableRead rq) s 0x14 rq s.part .invalidField []) ∧
      (k ≠ 0 → n ≠ 0 → n.toNat ≤ 16 → Answers (.tableRead rq) s 0x14 rq s.part .ok
        (be 1 s.part.table.records.length
          ++ counted entryBytes ((s.part.table.records.drop (k.toNat - 1)).take n.toNat)))) ∧
    (∀ k n : Byte, Executes s 0x1A rq → rq.body = [k, n] →
      ((k = 0 ∨ 16 < k.toNat ∨ n = 0 ∨ 6 < n.toNat) → Answers (.noticeList rq) s 0x1A rq s.part .invalidField []) ∧
      (k ≠ 0 → k.toNat ≤ 16 → n ≠ 0 → n.toNat ≤ 6 → Answers (.noticeList rq) s 0x1A rq s.part .ok
        (be 1 s.part.notices.notices.length ++ s.part.rotationBytes ++ bannerSourceBytes s.part.bannerSource
          ++ counted s.part.noticeBytes ((s.part.notices.notices.drop (k.toNat - 1)).take n.toNat)))) ∧
    (∀ k n : Byte, Executes s 0x20 rq → rq.body = [k, n] →
      ((k = 0 ∨ n = 0 ∨ 8 < n.toNat ∨ 49 < k.toNat + n.toNat) → Answers (.wallRead rq) s 0x20 rq s.part .invalidField []) ∧
      (k ≠ 0 → n ≠ 0 → n.toNat ≤ 8 → k.toNat + n.toNat ≤ 49 → Answers (.wallRead rq) s 0x20 rq s.part .ok
        (be 4 s.part.image.generation ++ be 1 s.part.globalLevel
          ++ ((numbersFrom k.toNat n.toNat).zip ((s.part.image.lines.drop (k.toNat - 1)).take n.toNat)).flatMap
            wallLineBytes))) ∧
    (Executes s 0x21 rq → rq.body = [] → Answers (.wallStatus rq) s 0x21 rq s.part .ok
      (be 1 s.part.chain.positions ++ be 4 s.part.image.generation ++ be 1 s.part.globalLevel
        ++ (numbersFrom 1 12).flatMap (fun n => if s.part.chain.inUse n then 1 :: s.part.positionBytes n else 0 :: zeros 19)
        ++ [flagByte s.part.chain.fitted] ++ s.part.chain.spareStateBytes ++ spareModeBytes s.part.chain.mode
        ++ (if s.part.chain.fitted then 1 :: s.part.panelBytes (s.part.chain.panel 13) else 0 :: zeros 11)
        ++ s.part.testBytes)) ∧
    (∀ id, Executes s 0x2A rq → rq.body = be 2 id → id < 65536 →
      (id = 0 → Answers (.cueStatus rq) s 0x2A rq s.part .ok s.part.cueSummary) ∧
      (id ≠ 0 → s.part.cues.cue? id = none → Answers (.cueStatus rq) s 0x2A rq s.part .notFound []) ∧
      (∀ c, id ≠ 0 → s.part.cues.cue? id = some c → Answers (.cueStatus rq) s 0x2A rq s.part .ok (s.part.cueBytes c))) ∧
    (Executes s 0x30 rq → rq.body = [] → Answers (.clockLineStatus rq) s 0x30 rq s.part .ok
      (s.part.lineStatus 0 ++ s.part.lineStatus 1 ++ s.part.lineStatus 2 ++ s.part.lineStatus 3
        ++ [flagByte s.part.clocks.park.isSome, flagByte s.part.clocks.recordValid])) ∧
    (Executes s 0x38 rq → rq.body = [] → Answers (.inputStatus rq) s 0x38 rq s.part .ok
      (s.part.inputBytes 0 ++ s.part.inputBytes 1 ++ s.part.inputBytes 2 ++ s.part.inputBytes 3)) ∧
    (∀ r copy : Byte, Executes s 0x40 rq → rq.body = [r, copy] →
      ((10 < r.toNat ∨ 1 < copy.toNat) → Answers (.settingsRead rq) s 0x40 rq s.part .invalidField []) ∧
      (r.toNat ≤ 10 → copy.toNat ≤ 1 →
        let st := s.part.store.storedRow r.toNat
        Answers (.settingsRead rq) s 0x40 rq s.part .ok
          ((if copy = 0 then s.part.row r.toNat else st.bytes) ++ [st.check, flagByte (crc8 st.bytes == st.check),
            flagByte st.failed] ++ be 2 st.saves)))

/-! ## Notices and the banner -/

/-- NOTICE_POST: INVALID_FIELD for a priority, text or expiry it does not take; FULL when the list is full and no automatic notice
has a greater priority number; otherwise the notice is made, the least urgent oldest automatic notice giving way in a full list.
A priority 3 from the Control link is taken as 2. NOTICE_WITHDRAW removes a posted notice, the Control link none of the
Information link's. -/
def Obligations.NoticePostAndWithdraw : Prop :=
  (∀ (s : State) (rq : Req) (priority : Nat) (expiry : Option Nat) (text : Text), Executes s 0x18 rq →
    readNoticePost rq.body = some (priority, expiry, text) → s.part.notices.ok →
    let taken := if rq.link = .control ∧ priority = 3 then 2 else priority
    let held := s.part.notices.notices
    let bad : Prop := 3 < priority ∨ text = [] ∨ 120 < text.length ∨ ∃ e, expiry = some e ∧ ¬(10 ≤ e ∧ e ≤ 86400)
    let mayGo (v : Notice) : Prop := v ∈ held ∧ v.kind ≠ .posted ∧ taken < v.priority
    (bad → Answers (.noticePost rq) s 0x18 rq s.part .invalidField []) ∧
    (¬bad → 16 ≤ held.length → (∀ v, ¬mayGo v) → Answers (.noticePost rq) s 0x18 rq s.part .full []) ∧
    (¬bad → ∀ gone : Option Notice,
      (held.length < 16 ∧ gone = none ∨ 16 ≤ held.length ∧ ∃ v, gone = some v ∧ mayGo v ∧
        ∀ w, mayGo w → w.priority < v.priority ∨ w.priority = v.priority ∧ v.creation ≤ w.creation) →
      ∃ (p : Part) (n : Notice),
        Answers (.noticePost rq) s 0x18 rq p (if taken = priority then .ok else .okClamped) (be 1 n.id ++ be 1 taken) ∧
        n ∈ p.notices.notices ∧ n.kind = .posted ∧ n.priority = taken ∧ n.text = text ∧ n.service = none ∧
        n.expiry = expiry.map (fun e => s.part.elapsed + e * 1000) ∧
        n.origin = (if rq.link = .control then .control else .information) ∧
        (p.notices.notices.filter (·.id != n.id)).map (·.id)
          = (held.filter fun m => gone.all fun v => m.id != v.id).map (·.id) ∧
        p.notices.ok ∧
        p = { s.part with notices := p.notices, image := p.image, table := p.table, cues := p.cues, info := p.info,
                          ctl := p.ctl, ev := noEvent } ∧
        p.table.records.map Record.beyondAnnounced = s.part.table.records.map Record.beyondAnnounced)) ∧
  (∀ (s : State) (rq : Req) (id : Byte), Executes s 0x19 rq → rq.body = [id] →
    (s.part.notices.byId id.toNat = none → Answers (.noticeWithdraw rq) s 0x19 rq s.part .notFound []) ∧
    (∀ n, s.part.notices.byId id.toNat = some n →
      (n.kind ≠ .posted → Answers (.noticeWithdraw rq) s 0x19 rq s.part .notPermitted []) ∧
      (n.kind = .posted → rq.link = .control → n.origin = .information →
        Answers (.noticeWithdraw rq) s 0x19 rq s.part .notOwner []) ∧
      (n.kind = .posted → ¬(rq.link = .control ∧ n.origin = .information) → ∃ p,
        Answers (.noticeWithdraw rq) s 0x19 rq p .ok [] ∧
        p.notices.notices = s.part.notices.notices.filter (·.id != id.toNat) ∧
        p.notices.nextId = s.part.notices.nextId ∧
        p = { s.part with notices := p.notices, image := p.image, table := p.table, cues := p.cues, info := p.info,
                          ctl := p.ctl, ev := noEvent })))

/-- NOTICE_EXPIRY: the notice leaves the list and NOTICE_EXPIRED latches with its id. ROTATION_DWELL_END: the next page of an
eligible notice, else the next eligible notice in list order, else the first, each for a fresh dwell. Each command carries elapsed time
to its instant (log 2), and one notice leaves in each event (log 60), both the model's choice. -/
def Obligations.NoticesExpireAndRotate : Prop :=
  (∀ (s : State) (id t : Nat) (n : Notice), s.part.powered = true → s.part.notices.byId id = some n → n.expiry = some t →
    ∃ p, Leaves (.noticeExpiry id) s p ∧ p.elapsed = max s.part.elapsed t ∧
      p.notices.notices = s.part.notices.notices.filter (·.id != id) ∧
      (∀ l, (p.port l).isLatched .noticeExpired = true ∧ ((s.part.port l).subjects.length = 29 →
        (p.port l).subject .noticeExpired = BitVec.ofNat 16 id)) ∧
      p.own = s.part.own ∧ p.chain = s.part.chain ∧ p.clocks = s.part.clocks ∧ p.store = s.part.store ∧
      p.inputs = s.part.inputs ∧ p.feed = s.part.feed) ∧
  (∀ (s : State) (x : Shown) (n : Notice), s.part.powered = true → s.part.notices.shown = some x →
    s.part.notices.byId x.id = some n →
    let more := s.part.notices.eligible.contains n && decide (x.page < pageCount (s.part.noticeText n))
    let now := max s.part.elapsed x.dwellEnd
    let fresh (id page : Nat) : Option Shown := some { id := id, page := page, dwellEnd := now + s.part.noticeDwell }
    ∃ p, Leaves .rotationDwellEnd s p ∧ p.elapsed = now ∧ p.notices = { s.part.notices with shown := p.notices.shown } ∧
      (more = true → p.notices.shown = fresh x.id (x.page + 1)) ∧
      (more = false → ∀ m, (s.part.notices.eligible.find? fun m => keyBefore n m) = some m →
        p.notices.shown = fresh m.id 1) ∧
      (more = false → (s.part.notices.eligible.find? fun m => keyBefore n m) = none →
        ∀ m rest, s.part.notices.eligible = m :: rest → p.notices.shown = fresh m.id 1) ∧
      p.own = s.part.own ∧ p.chain = s.part.chain ∧ p.clocks = s.part.clocks ∧ p.store = s.part.store ∧
      p.inputs = s.part.inputs ∧ p.feed = s.part.feed)

/-- BANNER_SET and BRIGHTNESS_SET write the sender's shadow and tell the Composer when it is the effective one; at its expiry a
banner shadow loses its enable flag and keeps its text. That the command carries elapsed time to the expiry is log 2, that the expiry
is absent once passed log 46, both the model's choice. -/
def Obligations.BannerAndBrightnessShadows : Prop :=
  (∀ (s : State) (rq : Req) (on : Bool) (expiry : Option Nat) (text : Text), Executes s 0x1B rq →
    readBannerSet rq.body = some (on, expiry, text) →
    ((48 < text.length ∨ ∃ e, expiry = some e ∧ ¬(10 ≤ e ∧ e ≤ 86400)) →
      Answers (.bannerSet rq) s 0x1B rq s.part .invalidField []) ∧
    (text.length ≤ 48 → (∀ e, expiry = some e → 10 ≤ e ∧ e ≤ 86400) →
      let shadow : BannerShadow := { text := text, enabled := on, expiry := expiry.map fun e => s.part.elapsed + e * 1000 }
      Answers (.bannerSet rq) s 0x1B rq
        (({ s.part with own := s.part.own.setBanner rq.link shadow } : Part).ended (s.part.own.banner == rq.link))
        .ok (textBytes text ++ [flagByte on] ++ optBe 4 expiry))) ∧
  (∀ (s : State) (rq : Req) (level : Byte), Executes s 0x22 rq → rq.body = [level] →
    Answers (.brightnessSet rq) s 0x22 rq
      (({ s.part with own := s.part.own.setBright rq.link (min 15 level.toNat) } : Part).ended (s.part.own.wall == rq.link))
      (if level.toNat ≤ 15 then .ok else .okClamped) [BitVec.ofNat 8 (min 15 level.toNat)]) ∧
  (∀ (s : State) (l : Link) (t : Nat), s.part.powered = true → (s.part.own.bannerOf l).expiry = some t →
    let shadow : BannerShadow := { s.part.own.bannerOf l with enabled := false, expiry := none }
    Leaves (.bannerShadowExpiry l) s
      (({ s.part.advanceTo t with own := s.part.own.setBanner l shadow } : Part).ended (s.part.own.banner == l)))

/-! ## Panel chain -/

/-- The reply of a polled panel, and its absence: the panel states of R128 to R130 with their counts and events, what the spare does
at an entry to FAULTED, a recovery or its own start, the next poll of the cycle, and the reply a reset discards. The good reply to
a poll that was overtaken acknowledges nothing; that it is judged otherwise is log 53, and that PANEL_REPLY_MISS leaves elapsed time
log 75, the model's choices. -/
def Obligations.PanelRepliesAreJudged : Prop :=
  ∀ (s : State) (poll : Poll) (c : Instr), s.part.powered = true → s.part.chain.poll = some poll →
    (s.part.chain.reset = .awaitingReply → (c = .panelReplyMiss ∨ ∃ r, c = .panelReply r) →
      Leaves c s { s.part with chain := { s.part.chain with poll := none, reset := .discarded } }) ∧
    (s.part.chain.reset = .complete → 1 ≤ poll.frame.address → poll.frame.address ≤ 13 → s.part.chain.panels.length = 13 →
      let a := poll.frame.address
      let w := s.part.chain.panel a
      let duty := s.part.chain.duty
      let mode := s.part.chain.mode
      let good (r : PanelReplyFrame) : Prop := r.checkOk = true ∧ r.address.toNat = a ∧
        r.generation.toNat = poll.frame.generation ∧ -40 ≤ r.temperature.toInt ∧ r.temperature.toInt ≤ 125 ∧
        r.lineCheck = lineCheck poll.shows
      let latched (p : Part) (k : EventKind) : Prop := ∀ l, (p.port l).isLatched k = true ∧
        ((s.part.port l).subjects.length = 29 → (p.port l).subject k = BitVec.ofNat 16 a)
      let others (p : Part) : Prop := ∀ b, 1 ≤ b → b ≤ 13 → b ≠ a →
        (p.chain.panel b).state = (s.part.chain.panel b).state ∧ (b ≠ 13 → p.chain.panel b = s.part.chain.panel b)
      let choice (p : Part) : Duty := match p.spareChoice with
        | some n => .engaged n
        | none => .standby
      let spare (p : Part) : Prop :=
        let faults : Prop := w.isFaulted = false ∧ (p.chain.panel a).isFaulted = true
        let recovers : Prop := w.isFaulted = true ∧ (p.chain.panel a).isFaulted = false
        let starts : Prop := a = 13 ∧ w.state = .starting ∧ (p.chain.panel 13).isUp = true
        (duty = .notFitted → p.chain.duty = .notFitted) ∧
        (duty ≠ .notFitted →
          (mode = .automatic → (faults ∨ recovers ∨ starts) → p.chain.duty = choice p) ∧
          (mode ≠ .automatic → faults → p.chain.duty = if a = 13 then .standby else duty) ∧
          (∀ n, mode = .pinned n → recovers → a = 13 → p.chain.duty = .engaged n) ∧
          (mode = .pinned a → recovers → a ≠ 13 → p.chain.duty = choice p) ∧
          (mode ≠ .automatic → mode ≠ .pinned a → recovers → a ≠ 13 →
            p.chain.duty = if duty = .engaged a then .standby else duty) ∧
          (mode = .released → recovers → a = 13 → p.chain.duty = duty) ∧
          (¬faults → ¬recovers → (starts → mode ≠ .automatic) → p.chain.duty = duty)) ∧
        p.chain.mode = (if w.isFaulted = true ∧ (p.chain.panel a).isFaulted = false ∧ mode = .pinned a ∧ a ≠ 13 then .automatic
          else mode) ∧
        (p.chain.duty ≠ duty → (p.chain.panel 13).ack = 0 ∧ (p.chain.panel 13).refresh = true ∧
          ∀ l, (p.port l).isLatched .spareChanged = true ∧ ((s.part.port l).subjects.length = 29 →
            (p.port l).subject .spareChanged = BitVec.ofNat 16 (p.chain.duty.covers.getD 0))) ∧
        (p.chain.duty = duty → a ≠ 13 → p.chain.panel 13 = s.part.chain.panel 13)
      let next (p : Part) : Prop :=
        let clears : Bool := s.part.chain.clearDue || decide (p.chain.duty ≠ duty)
        (s.part.chain.cycleRest = [] → p.chain.poll = none ∧ p.chain.cycleRest = [] ∧ p.chain.clearDue = clears ∧
          p.chain.lastSent = s.part.chain.lastSent) ∧
        (∀ b rest, s.part.chain.cycleRest = b :: rest →
          let frame : PollFrame := { p.pollFrame b with clear := b == 13 && clears }
          p.chain.poll = some { frame := frame, shows := p.panelShows b, sentAt := p.elapsed, superseded := false } ∧
          p.chain.cycleRest = rest ∧ p.chain.clearDue = (clears && b != 13) ∧ p.chain.lastSent = some frame) ∧
        p.chain.nextCycleAt = s.part.chain.nextCycleAt ∧ p.chain.test = s.part.chain.test ∧ p.elapsed = s.part.elapsed ∧
        p.image = s.part.image
      ((c = .panelReplyMiss ∨ ∃ r, c = .panelReply r ∧ ¬good r) → ∃ p, Leaves c s p ∧
        let x := p.chain.panel a
        x.refresh = true ∧ x.temperature = w.temperature ∧ x.driver = w.driver ∧ others p ∧ spare p ∧ next p ∧
        (w.isFaulted = true → x.state = w.state ∧ x.recovery = 0) ∧
        (w.isFaulted = false → w.misses < 2 → x.state = w.state ∧ x.misses = w.misses + 1) ∧
        (w.isFaulted = false → 2 ≤ w.misses → x.state = .faulted .silent ∧ x.misses = 0 ∧ x.ack = 0 ∧ latched p .panelFault)) ∧
      (∀ r, c = .panelReply r → good r → ∃ p, Leaves c s p ∧
        let x := p.chain.panel a
        let t := r.temperature.toInt
        let driver := r.flags.getLsbD 0
        x.temperature = some t ∧ x.driver = driver ∧ others p ∧ spare p ∧ next p ∧
        (w.isFaulted = false →
          x.misses = 0 ∧
          (85 ≤ t → x.state = .faulted .thermal ∧ x.ack = 0 ∧ x.refresh = true ∧ latched p .panelFault) ∧
          (t < 85 → driver = true → x.state = .faulted .driver ∧ x.ack = 0 ∧ x.refresh = true ∧ latched p .panelFault) ∧
          (70 ≤ t → t < 85 → driver = false → x.state = .warm ∧ (w.state ≠ .warm → latched p .thermalWarning)) ∧
          (65 ≤ t → t < 70 → driver = false → x.state = if w.state = .warm then .warm else .active) ∧
          (t < 65 → driver = false → x.state = .active) ∧
          (t < 85 → driver = false → (a ≠ 13 ∨ p.chain.duty = duty) → poll.superseded = false →
            x.ack = poll.frame.generation ∧ x.refresh = false) ∧
          (t < 85 → driver = false → (a ≠ 13 ∨ p.chain.duty = duty) → poll.superseded = true →
            x.ack = w.ack ∧ x.refresh = w.refresh)) ∧
        (∀ why, w.state = .faulted why →
          (85 ≤ t → x.state = .faulted .thermal ∧ x.recovery = 0) ∧
          (t < 85 → driver = true →
            x.state = (if why = .thermal then .faulted .thermal else .faulted .driver) ∧ x.recovery = 0) ∧
          (t < 85 → driver = false → why = .thermal → 65 ≤ t → x.state = w.state ∧ x.recovery = 0) ∧
          (t < 85 → driver = false → (why = .thermal → t < 65) → w.recovery < 7 →
            x.state = w.state ∧ x.recovery = w.recovery + 1) ∧
          (t < 85 → driver = false → (why = .thermal → t < 65) → 7 ≤ w.recovery →
            x.state = (if 70 ≤ t then .warm else .active) ∧ x.misses = 0 ∧ x.refresh = true ∧ latched p .panelRecovered))))

/-- PANEL_SPARE's checks in their order, and what the three actions leave: the mode, the duty, and at a change of duty the spare's
record and SPARE_CHANGED, a poll of the spare in progress being overtaken (log 53, the model's choice). The spare's choice is the
candidate of smallest importance, the lower position between equals. -/
def Obligations.PanelSpareActions : Prop :=
  (∀ (p : Part) (n : Nat),
    let candidate (m : Nat) : Prop := 1 ≤ m ∧ m ≤ p.chain.positions ∧ (p.chain.panel m).isFaulted = true
    p.spareChoice = some n ↔ (p.chain.panel 13).isUp = true ∧ candidate n ∧
      ∀ m, candidate m → p.image.importance n < p.image.importance m ∨
        p.image.importance n = p.image.importance m ∧ n ≤ m) ∧
  (∀ (s : State) (rq : Req) (action pos : Byte) (command : Instr), Executes s 0x23 rq → rq.body = [action, pos] →
    (action = 1 ∧ command = .panelSpareRelease rq ∨ action = 2 ∧ command = .panelSpareAutomatic rq ∨
      action ≠ 1 ∧ action ≠ 2 ∧ command = .panelSparePin rq) →
    let c := s.part.chain
    let n := pos.toNat
    let refused (r : Result) : Prop := Answers command s 0x23 rq s.part r []
    let shaped : Prop := action.toNat ≤ 2 ∧ (action = 0 → 1 ≤ n ∧ n ≤ 12)
    (s.part.own.wall ≠ rq.link → refused .notOwner) ∧
    (s.part.own.wall = rq.link →
      (¬shaped → refused .invalidField) ∧
      (shaped → c.test.phase ≠ .idle → refused .testRunning) ∧
      (shaped → c.test.phase = .idle →
        (c.duty = .notFitted → refused .notReady) ∧
        (c.duty ≠ .notFitted → action = 0 → ¬(n ≤ c.positions ∧ (c.panel n).isFaulted = true) → refused .invalidField) ∧
        (c.duty ≠ .notFitted → action = 0 → n ≤ c.positions → (c.panel n).isFaulted = true → (c.panel 13).isUp = false →
          refused .notReady) ∧
        (c.duty ≠ .notFitted →
          (action = 0 → n ≤ c.positions ∧ (c.panel n).isFaulted = true ∧ (c.panel 13).isUp = true) →
          let mode : SpareMode := if action = 0 then .pinned n else if action = 1 then .released else .automatic
          let duty : Duty := if action = 0 then .engaged n else if action = 1 then .standby else
            (match s.part.spareChoice with
             | some m => .engaged m
             | none => .standby)
          let moved : Part := { s.part with chain := { c with
            mode := mode
            duty := duty
            clearDue := true
            poll := c.poll.map fun q => { q with superseded := q.superseded || q.frame.address == 13 }
            panels := updateAt c.panels 12 fun x => { x with ack := 0, refresh := true } } }
          let stayed : Part := { s.part with chain := { c with mode := mode } }
          Answers command s 0x23 rq
            ((if c.duty = duty then stayed else moved.latchNat .spareChanged (duty.covers.getD 0)).ended false) .ok
            (spareModeBytes mode ++ (match duty with
              | .engaged m => 3 :: be 1 m
              | .standby => if (c.panel 13).isFaulted then [1] else [2]
              | .notFitted => [0]))))))

/-- The link test: START accepts it and its beginning sends the pattern; STOP and the end of the duration end it, keep the report
and set every panel's acknowledged generation to 0, a poll still in progress being overtaken (log 53, the model's choice);
INSERT_ERROR adds a pending insertion. LINK_TEST_DURATION_END carries elapsed time to the end (log 2, the model's choice). The
test-end command is stated at the end of the duration alone. -/
def Obligations.LinkTestRunsAndEnds : Prop :=
  let finished (s : State) (p : Part) (how : TestEnd) (seconds : Nat) : Prop :=
    p.chain.test = { s.part.chain.test with
      phase := .idle, pending := 0
      report := s.part.chain.test.report.map fun r => { r with seconds := seconds, ended := some how } } ∧
    p.chain.panels = (s.part.chain.panels.map fun n => { n with ack := 0, refresh := true }) ∧
    p.chain.poll = (s.part.chain.poll.map fun q => { q with superseded := true }) ∧
    p.chain.cycleRest = [] ∧ p.chain.nextCycleAt = p.elapsed ∧ p.chain.mode = s.part.chain.mode ∧
    (s.part.chain.mode ≠ .automatic → p.chain.duty = s.part.chain.duty) ∧
    (s.part.chain.mode = .automatic → s.part.chain.duty ≠ .notFitted →
      p.chain.duty = (match p.spareChoice with
        | some n => .engaged n
        | none => .standby)) ∧
    (∀ l, (p.port l).isLatched .linkTestState = true ∧ ((s.part.port l).subjects.length = 29 →
      (p.port l).subject .linkTestState = 0)) ∧
    p.own = s.part.own ∧ p.notices = s.part.notices ∧ p.image = s.part.image ∧ p.clocks = s.part.clocks ∧
    p.inputs = s.part.inputs ∧ p.store = s.part.store ∧ p.feed = s.part.feed
  let command (s : State) (isStart : Bool) : PollFrame :=
    { address := 0, generation := s.part.image.generation, level := s.part.globalLevel, clear := false, testStart := isStart,
      testEnd := !isStart, lines := [] }
  (∀ (s : State) (rq : Req) (action mode seconds : Byte) (command : Instr), Executes s 0x24 rq →
    rq.body = [action, mode, seconds] →
    (action = 1 ∧ command = .wallTestStop rq ∨ action = 2 ∧ command = .wallTestInsertError rq ∨
      action ≠ 1 ∧ action ≠ 2 ∧ command = .wallTestStart rq) →
    let t := s.part.chain.test
    let refused (r : Result) : Prop := Answers command s 0x24 rq s.part r []
    (s.part.own.wall ≠ rq.link → refused .notOwner) ∧
    (s.part.own.wall = rq.link →
      ((2 < action.toNat ∨ action = 0 ∧ (1 < mode.toNat ∨ seconds = 0 ∨ 120 < seconds.toNat)) → refused .invalidField) ∧
      (action = 0 → mode.toNat ≤ 1 → seconds ≠ 0 → seconds.toNat ≤ 120 → t.phase ≠ .idle → refused .testRunning) ∧
      ((action = 1 ∨ action = 2) → t.phase = .idle → refused .notReady) ∧
      (action = 0 → seconds ≠ 0 → seconds.toNat ≤ 120 → t.phase = .idle → ∀ m, testModeOf mode.toNat = some m →
        Answers (.wallTestStart rq) s 0x24 rq
          { s.part with chain := { s.part.chain with
            cycleRest := []
            test := { phase := .accepted seconds.toNat, pattern := BitVec.allOnes 11, pending := 0, lastBit := none,
                      detector := none, window := { bits := 0, errors := 0 }, report := some (newReport m) } } }
          .ok ([1, 1, mode, 1] ++ be 4 seconds.toNat ++ [1, mode] ++ zeros 18)) ∧
      (action = 1 → t.phase ≠ .idle → ∃ p, Answers (.wallTestStop rq) s 0x24 rq p .ok p.testBytes ∧ p.elapsed = s.part.elapsed ∧
        finished s p .stop (match t.phase with
          | .running began _ => (s.part.elapsed - began) / 1000
          | _ => 0)) ∧
      (action = 2 → t.phase ≠ .idle → Answers (.wallTestInsertError rq) s 0x24 rq
        { s.part with chain := { s.part.chain with test := { t with pending := min 255 (t.pending + 1) } } } .ok
        s.part.testBytes))) ∧
  (∀ (s : State) (seconds : Nat), s.part.powered = true → s.part.chain.test.phase = .accepted seconds →
    s.part.chain.poll = none →
    Leaves .linkTestBegin s { s.part with chain := { s.part.chain with
      lastSent := if s.part.chain.test.isEcho then some (command s true) else s.part.chain.lastSent
      test := { s.part.chain.test with phase := .running s.part.elapsed (s.part.elapsed + seconds * 1000) } } }) ∧
  (∀ (s : State) (began ends : Nat), s.part.powered = true → s.part.chain.test.phase = .running began ends →
    ∃ p, Leaves .linkTestDurationEnd s p ∧ p.elapsed = max s.part.elapsed ends ∧
      (s.part.chain.test.isEcho = true → p.chain.lastSent = some (command s false)) ∧
      finished s p .duration ((p.elapsed - began) / 1000))

/-- The pattern has the period 2047 and each bit is the exclusive-or of the bits 9 and 11 places before it; a transmitted bit is
inverted while insertions are pending. The detector takes a seed that is not zero. Every later bit is compared with its prediction,
and counted with its error while LOCKED; after 256 bits the window is judged by its errors, with 2 to lock and 16 to stay locked.
A DETECTOR_WINDOW of several bits is these bits one after another. -/
def Obligations.PatternAndDetector : Prop :=
  (∀ n, times n patternNext (BitVec.allOnes 11) = BitVec.allOnes 11 ↔ 2047 ∣ n) ∧
  (∀ g : BitVec 11, (∀ i, i < 10 → (patternNext g).getLsbD i = g.getLsbD (i + 1)) ∧
    (patternNext g).getLsbD 10 = (g.getLsbD 2 ^^ g.getLsbD 0)) ∧
  (∀ (s : State) (b : Bool) (bits : List Bool),
    Leaves (.detectorWindow []) s s.part ∧
    ∃ t, exec (.detectorWindow [b]) s = .next t ∧ exec (.detectorWindow (b :: bits)) s = exec (.detectorWindow bits) t) ∧
  (∀ (s : State) (began ends : Nat), s.part.powered = true → s.part.chain.test.phase = .running began ends →
    let t := s.part.chain.test
    let with_ (u : LinkTest) : Part := { s.part with chain := { s.part.chain with test := u } }
    let fresh : Window := { bits := 0, errors := 0 }
    Leaves .testPatternBitTransmitted s (with_ { t with
      pattern := patternNext t.pattern
      pending := t.pending - 1
      lastBit := some (t.pattern.getLsbD 0 ^^ decide (0 < t.pending))
      report := if 0 < t.pending then t.report.map fun r => { r with inserted := min 4294967295 (r.inserted + 1) }
        else t.report }) ∧
    (∀ bits, t.detector = none →
      Leaves (.detectorSeeded bits) s (if bits = 0 then s.part else with_ { t with detector := some bits, window := fresh })) ∧
    (∀ b, t.detector = none → Leaves (.detectorWindow [b]) s s.part) ∧
    (∀ b g r, t.detector = some g → t.report = some r →
      let wrong := if b = (g.getLsbD 2 ^^ g.getLsbD 0) then 0 else 1
      let n := t.window.bits + 1
      let errors := t.window.errors + wrong
      let counted : Report := if r.locked then { r with
        compared := min 4294967295 (r.compared + 1), errors := min 4294967295 (r.errors + wrong) } else r
      let compared : LinkTest := { t with detector := some (patternNext g), report := some counted }
      let leaves (p : Part) : Prop := Leaves (.detectorWindow [b]) s p
      (n < 256 → leaves (with_ { compared with window := { bits := n, errors := errors } })) ∧
      (256 ≤ n →
        (r.locked = false → errors ≤ 2 →
          leaves ((with_ { compared with window := fresh, report := some { r with locked := true } }).latchNat
            .linkTestState 1)) ∧
        (r.locked = false → 2 < errors → leaves (with_ { compared with window := fresh, detector := none })) ∧
        (r.locked = true → errors ≤ 16 → leaves (with_ { compared with window := fresh })) ∧
        (r.locked = true → 16 < errors →
          leaves ((with_ { compared with
            window := fresh, detector := none
            report := some { counted with locked := false, losses := min 65535 (r.losses + 1) } }).latchNat
              .linkTestState 2)))))

/-! ## Announcement cues -/

/-- CUE_POST's checks in their order and the record it makes, queued or released at once; CUE_CANCEL frees a queued record and stops
one in flight, and the Information link cancels only its own. The stop of a preempted record is a cancellation from then on, for a
REJECT too (log 80, the model's choice). -/
def Obligations.CuePostAndCancel : Prop :=
  (∀ (s : State) (rq : Req) (code : Nat) (zones : List Nat) (service : Option Nat) (tokens : List Nat), Executes s 0x28 rq →
    readCuePost rq.body = some (code, zones, service, tokens) →
    let bad : Prop := classOfCode code = none ∨ zones = [] ∨ tokens = [] ∨ 24 < tokens.length ∨ (∃ t ∈ tokens, 4095 < t) ∨
      service = some 0
    let origin : CueOrigin := if rq.link = .control then .control else .information
    let opened := zones.filter fun z => match rq.link with
      | .information => s.part.zoneMode z != .controlOnly
      | .control => s.part.zoneMode z != .infoOnly
    (bad → Answers (.cuePost rq) s 0x28 rq s.part .invalidField []) ∧
    (∀ cls, classOfCode code = some cls → ¬bad →
      let taken := if rq.link = .information ∧ cls.code < 3 then .service else cls
      let placed := opened.filter fun z => s.part.cues.hasRoom z taken
      (opened = [] → Answers (.cuePost rq) s 0x28 rq s.part .notOwner []) ∧
      (opened ≠ [] → placed = [] → Answers (.cuePost rq) s 0x28 rq s.part .queueFull []) ∧
      (placed ≠ [] → s.part.cues.quotaFull origin = true → Answers (.cuePost rq) s 0x28 rq s.part .poolFull []) ∧
      (placed ≠ [] → s.part.cues.quotaFull origin = false → 1 ≤ s.part.cues.nextId → s.part.cues.nextId ≤ 65535 →
        (∃ id, 1 ≤ id ∧ id ≤ 65535 ∧ s.part.cues.idTaken id = false) → ∃ (p : Part) (x : Cue),
        Answers (.cuePost rq) s 0x28 rq p (if taken = cls then .ok else .okClamped)
          (be 2 x.id ++ be 1 taken.code ++ [byteOfZones placed]) ∧
        x ∈ p.cues.pool ∧ x.cls = taken ∧ x.origin = origin ∧ x.service = service ∧ x.template = none ∧ x.input = none ∧
        x.tokens = tokens ∧ x.zones.map (·.1) = placed ∧ x.arrival = s.part.cues.nextArrival ∧ x.created = s.part.elapsed ∧
        x.replayed = false ∧ (s.part.cues.idTaken s.part.cues.nextId = false → x.id = s.part.cues.nextId) ∧
        p.cues.nextArrival = countNext s.part.cues.nextArrival ∧
        p = { s.part with table := p.table, cues := p.cues, info := p.info, ctl := p.ctl, ev := noEvent } ∧
        p.table.records.map Record.beyondAnnounced = s.part.table.records.map Record.beyondAnnounced))) ∧
  (∀ (s : State) (rq : Req) (id : Nat), Executes s 0x29 rq → rq.body = be 2 id → id < 65536 →
    (s.part.cues.cue? id = none → Answers (.cueCancel rq) s 0x29 rq s.part .notFound []) ∧
    (∀ c, s.part.cues.cue? id = some c →
      (rq.link = .information → c.origin ≠ .information → Answers (.cueCancel rq) s 0x29 rq s.part .notOwner []) ∧
      ((rq.link = .control ∨ c.origin = .information) →
        (c.flight = .queued → Answers (.cueCancel rq) s 0x29 rq
          (({ s.part with cues := s.part.cues.free id } : Part).ended false) .ok [0]) ∧
        ((∃ t, c.flight = .sent t ∨ c.flight = .accepted t) → Answers (.cueCancel rq) s 0x29 rq
          ((s.part.stopCue id .cancellation).ended false) .ok [3]) ∧
        (∀ t, c.flight = .stopping .preemption t → Answers (.cueCancel rq) s 0x29 rq
          (({ s.part with cues := s.part.cues.modCue id fun x => { x with flight := .stopping .cancellation t } } : Part).ended
            false) .ok [3]) ∧
        (∀ t, c.flight = .stopping .timeout t ∨ c.flight = .stopping .cancellation t →
          Answers (.cueCancel rq) s 0x29 rq (s.part.ended false) .ok [3]))))

/-- The announcer's frames: each well-formed one sets the silence count to 0 and is followed by an examination of the queues. ACCEPT
starts the wait for ENDED (for a record already ACCEPTED it only sets the silence count, log 63, the model's choice), REJECT and
ENDED free the record with the event their wait calls for, PROBE_REPLY makes a lost announcer UP, ZONE_STATE takes a zone OFFLINE
and back. An answer commanded after the limit of a wait of its own finds that wait ended, as its expiry ends it (log 2, the model's
choice). A record preempted for the first time re-enters the queues of the zones that were STOPPING it and have room, PENDING there
and DROPPED in the others (log 51, the model's reading of its zone set), also past its age limit (log 69, the model's choice). -/
def Obligations.AnnouncerFramesAreTaken : Prop :=
  ∀ (s : State) (id : Nat), s.part.powered = true →
    let heard : CueSched := { s.part.cues with silence := 0 }
    let flights (f : Flight → Prop) : Prop := ∃ c, s.part.cues.cue? id = some c ∧ f c.flight
    let with_ (q : CueSched) : Part := { s.part with cues := q }
    let freed (q : CueSched) : Part := with_ ((q.idleZonesOf id).free id)
    let inFlight (f : Flight) : Prop := ∃ t, f = .sent t ∨ f = .accepted t
    let stopped (why : StopReason) (f : Flight) : Prop := ∃ t, f = .stopping why t
    let answers (c : Instr) : Prop := c = .cuePortAccept id ∨ (∃ r, c = .cuePortReject id r) ∨ ∃ o, c = .cuePortEnded id o
    let expiry (t : Nat) (e : Instr) : Prop :=
      (flights (· = .sent t) ∧ e = .acceptWaitExpiry id) ∨ (flights (· = .accepted t) ∧ e = .endedWaitExpiry id) ∨
        (flights (fun f => ∃ why, f = .stopping why t) ∧ e = .stopWaitExpiry id)
    let inTime : Prop := ∀ t e, expiry t e → s.part.elapsed ≤ t
    (∀ t e c u, expiry t e → t < s.part.elapsed → answers c → Leaves e s u → exec c s = exec c { s with part := u }) ∧
    (inTime → flights (fun f => ∃ t, f = .sent t) → Leaves (.cuePortAccept id) s ((with_ (heard.modCue id fun c =>
      { c with flight := .accepted (s.part.elapsed + 3000 * c.tokens.length + 10000) })).ended false)) ∧
    (inTime → ¬flights (fun f => ∃ t, f = .sent t) → Leaves (.cuePortAccept id) s ((with_ heard).ended false)) ∧
    (∀ reason : Byte, inTime →
      let kept : CueSched := { heard with lastReject := some reason }
      (flights (fun f => inFlight f ∨ stopped .preemption f) →
        Leaves (.cuePortReject id reason) s (((freed kept).latchNat .cueFailed id).ended false)) ∧
      (flights (fun f => stopped .cancellation f ∨ stopped .timeout f) →
        Leaves (.cuePortReject id reason) s ((freed kept).ended false)) ∧
      (¬flights (fun f => f ≠ .queued) → Leaves (.cuePortReject id reason) s ((with_ heard).ended false))) ∧
    (inTime →
      let kept : CueSched := { heard with reserved := heard.reserved.filter (·.1 != id) }
      (flights (fun f => inFlight f ∨ stopped .preemption f ∨ stopped .cancellation f) →
        Leaves (.cuePortEnded id .complete) s (((freed kept).latchNat .cueDone id).ended false)) ∧
      (flights (stopped .timeout) → Leaves (.cuePortEnded id .complete) s ((freed kept).ended false)) ∧
      (flights inFlight → Leaves (.cuePortEnded id .stopped) s (((freed kept).latchNat .cueFailed id).ended false)) ∧
      (flights (fun f => stopped .cancellation f ∨ stopped .timeout f) →
        Leaves (.cuePortEnded id .stopped) s ((freed kept).ended false)) ∧
      (∀ c, s.part.cues.cue? id = some c → stopped .preemption c.flight →
        ((c.replayed = true ∨ s.part.cues.superseded c = true ∨
          (c.origin = .auto ∧ s.part.orphaned c = true ∧ s.part.feed.state ≠ .live)) →
          Leaves (.cuePortEnded id .stopped) s (((freed kept).latchNat .cueDropped id).ended false)) ∧
        (∃ p, Leaves (.cuePortEnded id .stopped) s p ∧ (∀ x ∈ p.cues.pool, x.id = id → x.replayed = true) ∧
          ZoneState.stopping id ∉ p.cues.zones) ∧
        (c.replayed = false → s.part.cues.superseded c = false →
          (c.origin ≠ .auto ∨ s.part.orphaned c = false ∨ s.part.feed.state = .live) →
          let left := (numbersFrom 1 8).filter fun z => s.part.cues.zone z == .stopping id
          let open_ := left.filter fun z => s.part.cues.hasRoom z c.cls
          (open_ = [] → Leaves (.cuePortEnded id .stopped) s (((freed kept).latchNat .cueDropped id).ended false)) ∧
          (open_ ≠ [] → s.part.cues.ok → s.part.cues.queues.length = 8 → s.part.cues.zones.length = 8 → ∃ q : Part,
            Leaves (.cuePortEnded id .stopped) s (q.ended false) ∧
            { c with
              zones := c.zones.map fun y => (y.1, if y.1 ∈ open_ then .pending else if y.1 ∈ left then .dropped else y.2)
              replayed := true, flight := .queued } ∈ q.cues.pool ∧
            (∀ z ∈ open_, id ∈ q.cues.queue z) ∧
            q.cues.zones = (s.part.cues.idleZonesOf id).zones ∧
            q = { s.part with cues := q.cues, info := q.info, ctl := q.ctl, ev := q.ev } ∧
            q.cues = { kept with pool := q.cues.pool, queues := q.cues.queues, zones := q.cues.zones }))) ∧
      (∀ o, ¬flights (fun f => f ≠ .queued) → Leaves (.cuePortEnded id o) s ((with_ kept).ended false))) ∧
    (let up := with_ { heard with probeWait := none, announcer := .up };
      (∀ t, s.part.cues.probeWait = some t → s.part.elapsed ≤ t) → Leaves .cuePortProbeReply s
        ((if s.part.cues.announcer = .lost then up.latchNat .announcerRestored 0 else up).ended false)) ∧
    (∀ t u, s.part.cues.probeWait = some t → t < s.part.elapsed → Leaves .probeWaitExpiry s u →
      exec .cuePortProbeReply s = exec .cuePortProbeReply { s with part := u }) ∧
    (∀ z, 1 ≤ z → z ≤ 8 →
      (s.part.cues.zone z = .offline →
        Leaves (.cuePortZoneState z .fault) s ((with_ heard).ended false) ∧
        Leaves (.cuePortZoneState z .ok) s ((with_ (heard.setZone z .idle)).ended false)) ∧
      (s.part.cues.zone z ≠ .offline → Leaves (.cuePortZoneState z .ok) s ((with_ heard).ended false)) ∧
      (s.part.cues.zone z = .idle → Leaves (.cuePortZoneState z .fault) s ((with_ (heard.setZone z .offline)).ended false)) ∧
      (∀ c, s.part.cues.zone z = .playing c ∨ s.part.cues.zone z = .stopping c →
        Leaves (.cuePortZoneState z .fault) s
          (((with_ ((heard.setZone z .offline).modCue c fun x => x.setOutcome (· == z) .failed)).latchNat .cueFailed c).ended
            false))) ∧
    (∀ z r, (z = 0 ∨ 8 < z) → Leaves (.cuePortZoneState z r) s ((with_ heard).ended false)) ∧
    Leaves (.cuePortFrameDiscarded .broken) s s.part ∧
    Leaves (.cuePortFrameDiscarded .unexpectedKind) s (with_ heard)

/-- The waits and timers of the scheduler: what each leaves when it runs out. A wait that runs out raises the silence count, and at
3 an announcer that was UP is LOST: every zone is IDLE, no record is in flight and the count is 0 again; at the end of an ENDED wait the
STOP has then been sent (log 81, the model's choice). Each command carries
elapsed time to its instant (log 2), and one record ages out in each event, with the examination after it (log 54), both the
model's choice. PROBE_TIMER finds a reply wait that has run out by the sending of its PROBE ended as PROBE_WAIT_EXPIRY ends it. -/
def Obligations.CueWaitsAndTimersRunOut : Prop :=
  (∀ p : Part,
    (p.cues.silence < 2 ∨ p.cues.announcer = .lost →
      p.bumpSilence = { p with cues := { p.cues with silence := min 3 (p.cues.silence + 1) } }) ∧
    (2 ≤ p.cues.silence → p.cues.announcer = .up → (p.cues.pool.map (·.id)).Nodup →
      let q := p.bumpSilence
      q.cues.announcer = .lost ∧ q.cues.silence = 0 ∧ q.cues.zones = p.cues.zones.map (fun _ => .idle) ∧
      q.cues.pool = p.cues.pool.filter (·.isQueued) ∧
      (∀ l, (q.port l).isLatched .announcerLost = true ∧
        ((q.port l).isLatched .cueFailed = ((p.port l).isLatched .cueFailed || p.cues.pool.any (!·.isQueued)))) ∧
      q = { p with cues := q.cues, info := q.info, ctl := q.ctl })) ∧
  ∀ (s : State), s.part.powered = true →
    (∀ id c, s.part.cues.cue? id = some c →
      (∀ limit, c.flight = .queued → s.part.ageLimit c.cls = some limit →
        let p := s.part.advanceTo (c.created + limit)
        Leaves (.cueAgeOut id) s ((({ p with cues := p.cues.free id } : Part).latchNat .cueDropped id).ended false)) ∧
      (∀ t, c.flight = .sent t →
        let p := s.part.advanceTo t
        Leaves (.acceptWaitExpiry id) s
          (((({ p with cues := (p.cues.idleZonesOf id).free id } : Part).latchNat .cueFailed id).bumpSilence).ended false)) ∧
      (∀ t, c.flight = .accepted t →
        let p := s.part.advanceTo t
        let playing := (numbersFrom 1 8).filter fun z => p.cues.zone z == .playing id
        let failed : Part := { p with cues := p.cues.modCue id fun x => x.setOutcome playing.contains .failed }
        Leaves (.endedWaitExpiry id) s
          ((((failed.stopCue id .timeout).latchNat .cueFailed id).bumpSilence).ended false)) ∧
      (∀ why t, c.flight = .stopping why t →
        let p := s.part.advanceTo t
        let freed : Part := { p with cues := (p.cues.idleZonesOf id).free id }
        Leaves (.stopWaitExpiry id) s
          (((if c.pendingZones = [] then freed else freed.latchNat .cueFailed id).bumpSilence).ended false))) ∧
    (∀ t, s.part.cues.probeWait = some t →
      let p := s.part.advanceTo t
      Leaves .probeWaitExpiry s ((({ p with cues := { p.cues with probeWait := none } } : Part).bumpSilence).ended false)) ∧
    (let sends (u : Part) : Part :=
        let p := u.advanceTo u.cues.probeAt
        { p with cues := { p.cues with
          tx := p.cues.tx ++ [.probe p.cues.tag], tag := (p.cues.tag + 1) % 256
          probeWait := some (p.elapsed + 2000), probeAt := p.elapsed + 10000 } }
      let lapses (t : Nat) : Prop := s.part.cues.probeWait = some t ∧ t ≤ max s.part.elapsed s.part.cues.probeAt
      ((∀ t, ¬lapses t) → Leaves .probeTimer s (sends s.part)) ∧
      ∀ t u, lapses t → Leaves .probeWaitExpiry s u → Leaves .probeTimer s (sends u)) ∧
    (∀ id t, s.part.cues.reserved.find? (·.1 == id) = some (id, t) →
      let p := s.part.advanceTo t
      Leaves (.reservedIdRelease id) s
        { p with cues := { p.cues with reserved := p.cues.reserved.filter (·.1 != id) } }) ∧
    (∀ (i : Fin 4) t, s.part.cues.repeats[i.val]? = some (some t) →
      let p := s.part.advanceTo t
      let made := (p.removeQueued fun c => c.input == some (i.val + 1)).makeInputCue i
      let interval := (p.inputConfig i).interval
      Leaves (.inputCueRepeat i) s
        (({ made with cues := { made.cues with
          repeats := updateAt made.cues.repeats i fun _ => if interval = 0 then none else some (p.elapsed + interval) } } :
          Part).ended false))

/-! ## Slave clock lines -/

/-- The evaluation of a line: one that is FAULTED or PARKED is left; any other takes the dial size of its configuration and then the
first line of R172 and R173 that holds, and an impulse starts with the width and gap of this moment. -/
def Obligations.ClockLineEvaluation : Prop :=
  ∀ (p : Part) (i : Nat) (boundary retry : Bool), i < 4 → p.clocks.lines.length = 4 →
    let k := p.clocks.line i
    let cfg := p.clockConfig i
    let q := p.evaluate i boundary retry
    let x := q.clocks.line i
    let position := if k.dial = cfg.dial then k.position else k.position.map (· % cfg.dial)
    let starts : Prop := x.impulse = some { polarity := k.polarity, driving := true, gap := cfg.gap, startedAt := p.elapsed,
                                            phaseEnd := p.elapsed + cfg.width, openRead := false } ∧
      x.retryImpulse = retry ∧ q.clocks.recordValid = false
    let rests : Prop := x.impulse = k.impulse ∧ x.retryImpulse = k.retryImpulse ∧ q.clocks.recordValid = p.clocks.recordValid
    ((k.isFaulted = true ∨ k.state = .parked) → q = p) ∧
    (k.isFaulted = false → k.state ≠ .parked →
      x.dial = cfg.dial ∧ x.position = position ∧
      (x.uncertain = true ↔ k.uncertain = true ∨ (k.dial ≠ cfg.dial ∧ k.position.isSome = true)) ∧
      x.polarity = k.polarity ∧ x.faults = k.faults ∧ x.retryAt = k.retryAt ∧
      (cfg.enabled = false → x.state = .disabled ∧ rests) ∧
      (cfg.enabled = true → (p.time.valid = false ∨ position = none) → x.state = .stopped ∧ rests) ∧
      (∀ n, cfg.enabled = true → p.time.valid = true → position = some n →
        let lag := (p.time.second / 60 % cfg.dial + cfg.dial - n) % cfg.dial
        (lag = 0 → x.state = .running ∧ rests ∧
          ∀ l, (q.port l).isLatched .clockLineInStep =
            ((p.port l).isLatched .clockLineInStep || k.state == .catchingUp || k.state == .holding)) ∧
        (lag = 1 → boundary = true → k.state = .running → x.state = .running ∧ starts) ∧
        (lag ≠ 0 → ¬(lag = 1 ∧ boundary = true ∧ k.state = .running) →
          (cfg.dial - lag ≤ cfg.hold → x.state = .holding ∧ rests) ∧
          (cfg.hold < cfg.dial - lag → x.state = .catchingUp ∧ starts)))) ∧
    (∀ j, j ≠ i → q.clocks.line j = p.clocks.line j) ∧
    q = { p with clocks := q.clocks, store := q.store, info := q.info, ctl := q.ctl } ∧
    q.store.working = p.store.working ∧ q.store.stored = p.store.stored

/-- CLOCK_LINE_SET, CLOCK_LINE_RETRY and PARK_CLOCKS: their checks in order, and what a request that passes leaves. A park waits, no
write asked for, while an impulse of an enabled line is in flight. -/
def Obligations.ClockLineRequests : Prop :=
  (∀ (s : State) (rq : Req) (n pol : Byte) (pos : Nat), Executes s 0x31 rq → rq.body = [n] ++ be 2 pos ++ [pol] → pos < 65536 →
    let i := n.toNat - 1
    let k := s.part.clocks.line i
    let dial := (s.part.clockConfig i).dial
    let refused (r : Result) : Prop := Answers (.clockLineSet rq) s 0x31 rq s.part r []
    let shaped : Prop := 1 ≤ n.toNat ∧ n.toNat ≤ 4 ∧ pos < dial ∧ (pol = 0 ∨ pol = 1 ∨ pol = 255)
    (s.part.own.clockLines ≠ rq.link → refused .notOwner) ∧
    (s.part.own.clockLines = rq.link →
      (¬shaped → refused .invalidField) ∧
      (shaped → (k.impulse.isSome = true ∨ s.part.clocks.park.isSome = true) → refused .busy) ∧
      (shaped → k.impulse = none → s.part.clocks.park = none →
        (k.state = .parked → refused .notPermitted) ∧
        (k.state ≠ .parked → pol ≠ 255 → k.isFaulted = false → k.position ≠ none → refused .invalidField) ∧
        (k.state ≠ .parked → (pol = 255 ∨ k.isFaulted = true ∨ k.position = none) →
          let set : Part := { s.part with clocks := { s.part.clocks with lines := updateAt s.part.clocks.lines i fun k =>
            { k with
              dial := dial, position := some pos, uncertain := false
              polarity := if pol = 255 then k.polarity else if pol = 0 then .plus else .minus
              retryAt := if k.isFaulted then none else k.retryAt
              state := if k.isFaulted then .stopped else k.state } } }
          let p := set.evaluate i false false
          Answers (.clockLineSet rq) s 0x31 rq p .ok (lineBody (p.clocks.line i)))))) ∧
  (∀ (s : State) (rq : Req) (n : Byte), Executes s 0x32 rq → rq.body = [n] →
    let i := n.toNat - 1
    let refused (r : Result) : Prop := Answers (.clockLineRetry rq) s 0x32 rq s.part r []
    (s.part.own.clockLines ≠ rq.link → refused .notOwner) ∧
    (s.part.own.clockLines = rq.link →
      ((n = 0 ∨ 4 < n.toNat) → refused .invalidField) ∧
      (n ≠ 0 → n.toNat ≤ 4 → ((s.part.clocks.line i).impulse.isSome = true ∨ s.part.clocks.park.isSome = true) →
        refused .busy) ∧
      (n ≠ 0 → n.toNat ≤ 4 → (s.part.clocks.line i).impulse = none → s.part.clocks.park = none →
        let resumed : Part := { s.part with clocks := { s.part.clocks with lines := updateAt s.part.clocks.lines i fun k =>
          { k with uncertain := false, retryAt := none
                   state := if k.isFaulted = true ∨ k.state = .parked then .stopped else k.state } } }
        let p := resumed.evaluate i false false
        Answers (.clockLineRetry rq) s 0x32 rq p .ok (lineBody (p.clocks.line i))))) ∧
  (∀ (s : State) (rq : Req), Executes s 0x33 rq → rq.body = [] →
    (s.part.own.clockLines ≠ rq.link → Answers (.parkClocks rq) s 0x33 rq s.part .notOwner []) ∧
    (s.part.own.clockLines = rq.link → s.part.clocks.park.isSome = true →
      Answers (.parkClocks rq) s 0x33 rq s.part .busy []) ∧
    (s.part.own.clockLines = rq.link → s.part.clocks.park = none → s.part.clocks.lines.length = 4 →
      let lines := (List.range 4).filter fun i => (s.part.clockConfig i).enabled
      let done : Prop := ∀ i ∈ lines, (s.part.clocks.line i).impulse = none
      ∃ p, Answers (.parkClocks rq) s 0x33 rq p .ok (be 1 lines.length) ∧
        (∀ i, i < 4 → i ∈ lines → (s.part.clocks.line i).impulse = none →
          p.clocks.line i = { s.part.clocks.line i with state := .parked, retryImpulse := false, retryAt := none }) ∧
        (∀ i, i < 4 → (i ∉ lines ∨ (s.part.clocks.line i).impulse.isSome = true) →
          p.clocks.line i = s.part.clocks.line i) ∧
        (done → p.clocks.park = some { lines := lines, asked := true } ∧
          p.store.writes = s.part.store.writes ++ [.park (1 :: p.clocks.lines.flatMap ClockLine.parkEntry)]) ∧
        (¬done → p.clocks.park = some { lines := lines, asked := false } ∧ p.store = s.part.store) ∧
        p.clocks.recordValid = s.part.clocks.recordValid ∧
        p = { s.part with clocks := p.clocks, store := p.store }))

/-- The events of an impulse: the OPEN comparator at 100 ms, the OVERLOAD comparator, the end of the drive that delivers it, the end
of its recovery gap, and the retry of a line that was open. -/
def Obligations.ImpulseEvents : Prop :=
  ∀ (s : State) (i : Fin 4), s.part.powered = true →
    let k := s.part.clocks.line i
    let setLine (p : Part) (x : ClockLine) : Part :=
      { p with clocks := { p.clocks with lines := updateAt p.clocks.lines i fun _ => x } }
    (∀ m : Impulse, k.impulse = some m → m.driving = true →
      (m.openRead = false →
        let p := s.part.advanceTo (m.startedAt + 100)
        let read : Impulse := { m with openRead := true }
        let failed := setLine p { k with
          impulse := some { read with driving := false, phaseEnd := p.elapsed + m.gap }, faults := min 255 (k.faults + 1)
          state := .faultedOpen, retryAt := some (p.elapsed + 60000) }
        Leaves (.impulseOpenCheck i true) s (setLine p { k with impulse := some read }) ∧
        Leaves (.impulseOpenCheck i false) s
          (if k.retryImpulse then failed else failed.latchNat .clockLineFault (i.val + 1))) ∧
      Leaves (.impulseOverloadTrip i) s ((setLine s.part { k with
        impulse := some { m with driving := false, phaseEnd := s.part.elapsed + m.gap }, faults := min 255 (k.faults + 1)
        state := .faultedOverload, uncertain := true, polarity := k.polarity.reverse }).latchNat .clockLineFault (i.val + 1)) ∧
      (let p := s.part.advanceTo m.phaseEnd;
        Leaves (.impulseDriveEnd i) s (setLine p { k with
          impulse := some { m with driving := false, phaseEnd := p.elapsed + m.gap }
          position := k.position.map fun n => (n + 1) % k.dial, polarity := k.polarity.reverse }))) ∧
    (∀ m : Impulse, k.impulse = some m → m.driving = false →
      let p := s.part.advanceTo m.phaseEnd
      let free := setLine p { k with impulse := none, retryImpulse := false }
      (s.part.clocks.toPark i = false → Leaves (.impulseGapEnd i) s (free.evaluate i false false)) ∧
      (∀ park, s.part.clocks.park = some park → park.lines.contains i.val = true → ∃ q, Leaves (.impulseGapEnd i) s q ∧
        q.clocks.line i = { k with impulse := none, retryImpulse := false, state := .parked, retryAt := none } ∧
        (∀ j, j ≠ i.val → q.clocks.line j = s.part.clocks.line j) ∧
        (park.asked = false → (∀ j ∈ park.lines, (q.clocks.line j).state = .parked) →
          q.clocks.park = some { park with asked := true } ∧
          q.store.writes = s.part.store.writes ++ [.park (1 :: q.clocks.lines.flatMap ClockLine.parkEntry)]) ∧
        q = { p with clocks := q.clocks, store := q.store })) ∧
    (∀ t, k.retryAt = some t →
      Leaves (.clockRetryTimerExpiry i) s
        ((setLine (s.part.advanceTo t) { k with retryAt := none, state := .stopped }).evaluate i false true))

/-! ## Wall inputs and stored settings -/

/-- INPUT_LEVEL_CHANGE moves an input that is not OFF by the four lines of its level; when the qualification timer runs out the input
becomes ACTIVE or IDLE, INPUT_CHANGED latches, and in ACT mode its actions begin or end. A level that changes after a qualify time that
has run out finds the input as the timer's expiry leaves it (log 2, the model's choice). -/
def Obligations.WallInputsQualify : Prop :=
  ∀ (s : State) (i : Fin 4), s.part.powered = true → s.part.inputs.length = 4 →
    let w := s.part.input i
    let cfg := s.part.inputConfig i
    let setInput (p : Part) (x : WallInput) : Part := { p with inputs := updateAt p.inputs i fun _ => x }
    let overdue : Prop := (w.state = .qualifying ∨ w.state = .releasing) ∧ ∃ t, w.timer = some t ∧ t < s.part.elapsed
    (∀ level,
      let seen : WallInput := { w with asserted := level }
      let timer := some (s.part.elapsed + cfg.qualify)
      let moved (x : WallInput) : Prop := Leaves (.inputLevelChange i level) s (setInput s.part x)
      (w.asserted = level → Leaves (.inputLevelChange i level) s s.part) ∧
      (∀ u, w.asserted ≠ level → overdue → Leaves (.qualificationTimerExpiry i) s u →
        exec (.inputLevelChange i level) s = exec (.inputLevelChange i level) { s with part := u }) ∧
      (w.asserted ≠ level → ¬overdue →
        (cfg.mode = .off → moved seen) ∧
        (cfg.mode ≠ .off → level = true →
          (w.state = .idle → moved { seen with state := .qualifying, timer := timer }) ∧
          (w.state = .releasing → moved { seen with state := .active, timer := none }) ∧
          ((w.state = .qualifying ∨ w.state = .active) → moved seen)) ∧
        (cfg.mode ≠ .off → level = false →
          (w.state = .qualifying → moved { seen with state := .idle, timer := none }) ∧
          (w.state = .active → moved { seen with state := .releasing, timer := timer }) ∧
          ((w.state = .idle ∨ w.state = .releasing) → moved seen)))) ∧
    (∀ t, w.timer = some t →
      let p := s.part.advanceTo t
      let active := (setInput p { w with state := .active, timer := none, acting := decide (cfg.mode = .act) }).latchNat
        .inputChanged (i.val + 1)
      let idle := (setInput p { w with state := .idle, timer := none, acting := false }).latchNat .inputChanged (i.val + 1)
      (w.state = .qualifying → cfg.mode ≠ .act → Leaves (.qualificationTimerExpiry i) s (active.ended false)) ∧
      (w.state = .qualifying → cfg.mode = .act →
        Leaves (.qualificationTimerExpiry i) s ((active.inputStart i).ended true)) ∧
      (w.state = .releasing → cfg.mode ≠ .act → Leaves (.qualificationTimerExpiry i) s (idle.ended false)) ∧
      (w.state = .releasing → cfg.mode = .act →
        Leaves (.qualificationTimerExpiry i) s ((idle.inputEnd i).ended true)))

/-- SETTINGS_WRITE, SETTINGS_SAVE, SETTINGS_CHECK and SETTINGS_FREEZE with their checks in order, and the end of a store write. A
write that changes a threshold computes every record anew with its triggers and checks each for retirement; a write that another
block composes from or acts on tells the Composer; a write to rows 4 or 5 moves the inputs and begins or ends their actions, of which
a RELEASING input that comes into ACT mode has the wall's alone (log 26, the model's reading). -/
def Obligations.SettingsCommands : Prop :=
  (∀ (s : State) (rq : Req) (r off : Nat) (bytes : List Byte), Executes s 0x41 rq →
    readSettingsWrite rq.body = some (r, off, bytes) →
    (s.part.store.frozen = true → Answers (.settingsWrite rq) s 0x41 rq s.part .frozen []) ∧
    (s.part.store.frozen = false →
      ((10 < r ∨ 64 < off + bytes.length) → Answers (.settingsWrite rq) s 0x41 rq s.part .invalidField []) ∧
      (r = 10 → off + bytes.length ≤ 64 → Answers (.settingsWrite rq) s 0x41 rq s.part .notPermitted []) ∧
      (r < 10 → off + bytes.length ≤ 64 → s.part.settingsOk → s.part.table.ok → s.part.inputs.length = 4 →
        s.part.cues.repeats.length = 4 →
        let placed := (s.part.row r).take off ++ bytes ++ (s.part.row r).drop (off + bytes.length)
        ∃ (p : Part) (row : List Byte),
          Answers (.settingsWrite rq) s 0x41 rq p (if placed = row then .ok else .okClamped) row ∧
          row = clampRow r placed ∧ rowInRange r row ∧
          p.store = { s.part.store with working := updateAt s.part.store.working r fun _ => row } ∧
          p.own = s.part.own ∧ p.time = s.part.time ∧ p.chain = s.part.chain ∧ p.clocks = s.part.clocks ∧
          p.feed = s.part.feed ∧ p.table.names = s.part.table.names ∧ p.table.ok ∧
          let old (i : Nat) : InputConfig := s.part.inputConfig i
          let new (i : Nat) : InputConfig := p.inputConfig i
          let on (i : Nat) : Prop := (s.part.input i).state = .active ∨ (s.part.input i).state = .releasing
          let begins (i : Nat) : Prop := (new i).mode = .act ∧
            ((old i).mode ≠ .act ∧ (s.part.input i).state = .active ∨
              (old i).mode = .act ∧ on i ∧ (old i).tokens = [] ∧ (new i).tokens ≠ [])
          let ends (i : Nat) : Prop := on i ∧ (old i).mode = .act ∧
            ((new i).mode ≠ .act ∨ (old i).tokens ≠ [] ∧ (new i).tokens = [])
          let thresholdsKept : Prop := p.lateL = s.part.lateL ∧ p.hystH = s.part.hystH ∧ p.noticeN = s.part.noticeN ∧
            p.stepP = s.part.stepP ∧ p.reseqQ = s.part.reseqQ
          let told : Prop := ¬thresholdsKept ∨ r ∈ [0, 2, 3, 6, 7, 8, 9] ∨
            ∃ i, i < 4 ∧ on i ∧ ((old i).mode = .act ∨ (new i).mode = .act) ∧ old i ≠ new i
          (thresholdsKept → p.notices = s.part.notices ∧
            p.table.records.map Record.beyondAnnounced = s.part.table.records.map Record.beyondAnnounced) ∧
          (¬thresholdsKept →
            (∀ x ∈ p.table.records, ∃ x₀ ∈ s.part.table.records, x₀.id = x.id) ∧
            (∀ x₀ ∈ s.part.table.records,
              ((p.record? x₀.id).isSome = true ↔ p.retireDue (p.computed x₀) = false) ∧
              ∀ x, p.record? x₀.id = some x → p.handsOn x₀.running x₀ x)) ∧
          (told → p.image = s.part.image.take p.composeAll) ∧ (¬told → p.image = s.part.image) ∧
          (∀ i, i < 4 →
            (p.input i).asserted = (s.part.input i).asserted ∧
            ((new i).mode = .off → (p.input i).state = .idle ∧ (p.input i).timer = none) ∧
            ((new i).mode ≠ .off → (old i).mode = .off → (s.part.input i).asserted = true →
              (p.input i).state = .qualifying ∧ (p.input i).timer = some (s.part.elapsed + (new i).qualify)) ∧
            ((new i).mode ≠ .off → ((old i).mode ≠ .off ∨ (s.part.input i).asserted = false) →
              (p.input i).state = (s.part.input i).state ∧ (p.input i).timer = (s.part.input i).timer) ∧
            (ends i → p.cues.repeats[i]? = some none ∧
              (s.part.cues.ok → s.part.cues.reserved.length ≤ 1000 → (s.part.cues.pool.map (·.id)).Nodup →
                ∀ x ∈ p.cues.pool, x.input = some (i + 1) → ∃ why t, x.flight = .stopping why t)) ∧
            (begins i → (new i).tokens ≠ [] → s.part.cues.ok → s.part.cues.reserved.length ≤ 1000 →
              p.cues.repeats[i]? = some (if (new i).interval = 0 then none else some (s.part.elapsed + (new i).interval)) ∧
              ((∃ x ∈ p.cues.pool, x.input = some (i + 1) ∧ x.cls = .emergency ∧ x.origin = .input ∧ x.tokens = (new i).tokens ∧
                  x.created = s.part.elapsed) ∨ ∀ l, (p.port l).isLatched .cueDropped = true)) ∧
            (¬begins i → ¬ends i → p.cues.repeats[i]? = s.part.cues.repeats[i]?)) ∧
          ∀ l, (p.port l).isLatched .inputChanged = true ↔ (s.part.port l).isLatched .inputChanged = true ∨
            ∃ i, i < 4 ∧ on i ∧ (old i).mode ≠ .off ∧ (new i).mode = .off))) ∧
  (∀ (s : State) (rq : Req) (r : Byte), Executes s 0x42 rq → rq.body = [r] →
    (s.part.store.frozen = true → Answers (.settingsSave rq) s 0x42 rq s.part .frozen []) ∧
    (s.part.store.frozen = false →
      (10 < r.toNat → Answers (.settingsSave rq) s 0x42 rq s.part .invalidField []) ∧
      (r = 10 → Answers (.settingsSave rq) s 0x42 rq s.part .notPermitted []) ∧
      (r.toNat < 10 → 20000 ≤ (s.part.store.storedRow r.toNat).saves → Answers (.settingsSave rq) s 0x42 rq s.part .worn []) ∧
      (r.toNat < 10 → (s.part.store.storedRow r.toNat).saves < 20000 →
        Leaves (.settingsSave rq) s ((s.part.askWrite (.save r.toNat)).modPort rq.link fun q =>
          { q with waiting := some (.save rq.tag r.toNat)
                   buffer := if q.buffer = [] then [requestFrame rq 0x42] else q.buffer
                   inFrame := q.inFrame && !q.buffer.isEmpty })))) ∧
  (∀ (s : State) (rq : Req), Executes s 0x43 rq → rq.body = [] →
    (s.part.store.writes ≠ [] → Leaves (.settingsCheck rq) s (s.part.modPort rq.link fun q =>
      { q with waiting := some (.check rq.tag)
               buffer := if q.buffer = [] then [requestFrame rq 0x43] else q.buffer
               inFrame := q.inFrame && !q.buffer.isEmpty })) ∧
    (s.part.store.writes = [] → s.part.store.stored.length = 11 → ∃ p,
      Answers (.settingsCheck rq) s 0x43 rq p .ok
        (s.part.store.stored.flatMap fun x => flagByte (crc8 x.bytes == x.check) :: be 2 x.saves) ∧
      p.store = { s.part.store with stored := s.part.store.stored.map fun x =>
        { x with failed := x.failed || !(crc8 x.bytes == x.check) } } ∧
      (∀ l, (p.port l).isLatched .settingsFault = ((s.part.port l).isLatched .settingsFault ||
        s.part.store.stored.any fun x => !x.failed && !(crc8 x.bytes == x.check))) ∧
      p = { s.part with store := p.store, info := p.info, ctl := p.ctl })) ∧
  (∀ (s : State) (rq : Req), Executes s 0x44 rq → rq.body = [] →
    Answers (.settingsFreeze rq) s 0x44 rq { s.part with store := { s.part.store with frozen := true } } .ok []) ∧
  (∀ (s : State) (w : StoreWrite) (rest : List StoreWrite), s.part.powered = true → s.part.store.writes = w :: rest →
    s.part.store.stored.length = 11 → w.row < 11 → ∃ p, Leaves .storeWriteComplete s p ∧ p.store.writes = rest ∧
      p.store.working = s.part.store.working ∧
      (let old := s.part.store.storedRow w.row;
        let new := p.store.storedRow w.row;
        new.bytes = (match w with
          | .save r => s.part.row r
          | .park entry => entry ++ old.bytes.drop entry.length
          | .invalidate => 0 :: old.bytes.drop 1) ∧
        new.check = crc8 new.bytes ∧ new.saves = min 20000 (old.saves + 1) ∧ new.failed = false) ∧
      (∀ r, r ≠ w.row → (p.store.storedRow r).bytes = (s.part.store.storedRow r).bytes ∧
        (p.store.storedRow r).check = (s.part.store.storedRow r).check ∧
        (p.store.storedRow r).saves = (s.part.store.storedRow r).saves) ∧
      (∀ r tag, w = .save r → s.part.info.waiting = some (.save tag r) →
        p.info.waiting = none ∧ ∃ summary, p.info.tx.getLast? =
          some (.reply 0xC2 tag summary 0 (be 2 (p.store.storedRow r).saves))) ∧
      (∀ entry k, w = .park entry → s.part.clocks.park = some k →
        p.clocks = { s.part.clocks with park := none, recordValid := true } ∧
        ∀ l, (p.port l).isLatched .clocksParked = true) ∧
      (∀ tag, rest = [] → s.part.info.waiting = some (.check tag) → p.info.waiting = none ∧
        ∃ summary body, p.info.tx.getLast? = some (.reply 0xC3 tag summary 0 body)))

/-! ## Invariants -/

/-- A step keeps the Departure Table in order with unique ids, and every record's Control copy as the law of Control copies says. -/
def Obligations.StepKeepsTableOrderAndCopies : Prop :=
  ∀ s t : State, s.part.table.ok → s.part.copiesOk → step s = .next t → t.part.table.ok ∧ t.part.copiesOk

/-- A step keeps the cue pool within its quotas and every zone queue within six references, and the cue ids unique while no more
than 1000 ids are reserved. -/
def Obligations.StepKeepsCueQuotas : Prop :=
  ∀ s t : State, s.part.cues.ok → step s = .next t → t.part.cues.ok ∧
    (s.part.cues.reserved.length ≤ 1000 → (s.part.cues.pool.map (·.id)).Nodup → (t.part.cues.pool.map (·.id)).Nodup)

/-- A step keeps the Notice List in order, with unique ids and a shown notice while it holds any; and it keeps 48 lines of 48
characters, and no generation becomes 0; and it keeps the station second within its day. -/
def Obligations.StepKeepsNoticeListAndImage : Prop :=
  ∀ s t : State, step s = .next t →
    (s.part.notices.ok → t.part.notices.ok) ∧ (s.part.image.ok → t.part.image.ok) ∧
      (s.part.time.second < 86400 → t.part.time.second < 86400)

/-- A step keeps every working row in its ranges, and the law of the spare. -/
def Obligations.StepKeepsSettingsInRangeAndSpareLaw : Prop :=
  ∀ s t : State, s.part.settingsOk → s.part.chain.spareLaw → step s = .next t →
    t.part.settingsOk ∧ t.part.chain.spareLaw

/-- The state after power-on reset satisfies every invariant. -/
def Obligations.ResetSatisfiesInvariants : Prop :=
  State.reset.part.table.ok ∧ State.reset.part.copiesOk ∧ State.reset.part.notices.ok ∧ State.reset.part.cues.ok ∧
    State.reset.part.image.ok ∧ State.reset.part.settingsOk ∧ State.reset.part.chain.spareLaw ∧
    State.reset.part.time.second < 86400 ∧ (State.reset.part.cues.pool.map (·.id)).Nodup
end

