-- ==== Sys2Proof/Laws/Cues.lean ====
section
/-! SUPPORT. What the operations that remove cues, wait for a reset's reply and take an overdue timer first can do. -/

namespace Sys2Proof.Machine

/-- A soft reset that is asked for waits for its reply at most: only time passes. -/
theorem Part.sendResetReply_cases (p : Part) : p.sendResetReply = p ∨ ∃ t, p.sendResetReply = p.advanceTo t := by
  unfold Part.sendResetReply
  split
  · exact Or.inr ⟨_, rfl⟩
  · exact Or.inl rfl

/-- Before a PROBE either nothing happens, or the probe reply wait ends. -/
theorem Part.probeLapse_cases (p : Part) : p.probeLapse = p ∨ p.probeLapse = p.probeWaitExpiry := by
  unfold Part.probeLapse
  split
  · exact Or.inr rfl
  · exact Or.inl rfl

/-- Before a PROBE_REPLY either nothing happens, or the probe reply wait ends. -/
theorem Part.probeReplyLapse_cases (p : Part) : p.probeReplyLapse = p ∨ p.probeReplyLapse = p.probeWaitExpiry := by
  unfold Part.probeReplyLapse
  split
  · exact Or.inr rfl
  · exact Or.inl rfl

/-- Before an answer that names a cue either nothing happens, or the wait of its record ends, its limit having passed. -/
theorem Part.waitLapse_cases (p : Part) (id : Nat) : p.waitLapse id = p ∨ ∃ c, p.cues.cue? id = some c ∧
    ((∃ t, c.flight = .sent t ∧ t < p.elapsed ∧ p.waitLapse id = p.acceptWaitExpiry id) ∨
      (∃ t, c.flight = .accepted t ∧ t < p.elapsed ∧ p.waitLapse id = p.endedWaitExpiry id) ∨
      ∃ why t, c.flight = .stopping why t ∧ t < p.elapsed ∧ p.waitLapse id = p.stopWaitExpiry id) := by
  cases hc : p.cues.cue? id with
  | none => left; simp [Part.waitLapse, hc]
  | some c =>
    cases hf : c.flight with
    | queued => left; simp [Part.waitLapse, hc, hf]
    | sent t =>
      by_cases h : t < p.elapsed
      · exact Or.inr ⟨c, rfl, Or.inl ⟨t, hf, h, by simp [Part.waitLapse, hc, hf, h]⟩⟩
      · left; simp [Part.waitLapse, hc, hf, h]
    | accepted t =>
      by_cases h : t < p.elapsed
      · exact Or.inr ⟨c, rfl, Or.inr (Or.inl ⟨t, hf, h, by simp [Part.waitLapse, hc, hf, h]⟩)⟩
      · left; simp [Part.waitLapse, hc, hf, h]
    | stopping why t =>
      by_cases h : t < p.elapsed
      · exact Or.inr ⟨c, rfl, Or.inr (Or.inr ⟨why, t, hf, h, by simp [Part.waitLapse, hc, hf, h]⟩)⟩
      · left; simp [Part.waitLapse, hc, hf, h]

/-- Before a change of level either nothing happens, or the qualification timer of the input runs out. -/
theorem Part.inputLapse_cases (p : Part) (i : Nat) : p.inputLapse i = p ∨ p.inputLapse i = p.qualificationExpiry i := by
  unfold Part.inputLapse
  split
  · exact Or.inr rfl
  · exact Or.inl rfl

/-- Before a valid telegram either nothing happens, or LOCKED is left for HOLDOVER. -/
theorem Part.referenceLapse_cases (p : Part) : p.referenceLapse = p ∨ p.referenceLapse = p.referenceTimeout := by
  unfold Part.referenceLapse
  split
  · split
    · exact Or.inr rfl
    · exact Or.inl rfl
  · exact Or.inl rfl

/-- A reference that is not LOCKED has no timeout before a telegram. -/
theorem Part.referenceLapse_of_not_locked (p : Part) (h : p.time.ref.isLocked = false) : p.referenceLapse = p := by
  unfold Part.referenceLapse
  split
  · next hr _ => simp [hr, RefState.isLocked] at h
  · rfl

/-- The timeout taken before a telegram leaves no LOCKED reference. -/
theorem Part.referenceTimeout_holdover (p : Part) (n : Nat) (run : List Int) (v : ValidTelegram)
    (hr : p.time.ref = .locked n run) (hv : p.time.lastValid = some v) :
    p.referenceTimeout.time.ref = .holdover (max p.elapsed (v.arrival + 3000)) := by
  simp [Part.referenceTimeout, hr, hv, Part.enterHoldover, Part.modTime, Part.latchNat, Part.latch, Part.advanceTo]

/-- Records freed one after another have left the pool and every queue. -/
theorem CueSched.foldl_free (ids : List Nat) (q : CueSched) :
    ids.foldl CueSched.free q = { q with
      pool := q.pool.filter fun c => !ids.contains c.id
      queues := q.queues.map fun l => l.filter fun i => !ids.contains i } := by
  induction ids generalizing q with
  | nil => simp
  | cons a l ih =>
    rw [List.foldl_cons, ih]
    simp only [CueSched.free, List.filter_filter, List.map_map, List.contains_cons, Function.comp_def, Bool.not_or]
    congr 2
    · funext c; rw [Bool.and_comm]; rfl
    · funext x; congr 1; funext c; rw [Bool.and_comm]; rfl

/-- The queued records of a pool with unique ids that a request picks are removed together (R151). -/
theorem Part.removeQueued_eq_without (p : Part) (sel : Cue → Bool) (h : (p.cues.pool.map (·.id)).Nodup) :
    p.removeQueued sel = p.without sel := by
  have key : ∀ c ∈ p.cues.pool, ((p.cues.pool.filter fun c => c.isQueued && sel c).map (·.id)).contains c.id
      = (c.flight == .queued && sel c) := by
    intro c hc
    rw [Bool.eq_iff_iff, List.contains_iff_mem, List.mem_map]
    constructor
    · rintro ⟨d, hd, hid⟩
      rw [List.mem_filter] at hd
      have : d = c := by
        have hinj := (List.nodup_map_iff_inj_on (List.Nodup.of_map _ h)).1 h
        exact hinj d hd.1 c hc hid
      subst this
      exact hd.2
    · intro hsel
      exact ⟨c, List.mem_filter.2 ⟨hc, hsel⟩, rfl⟩
  simp only [Part.removeQueued, Part.modCues, Part.without, CueSched.foldl_free]
  congr 2
  · apply List.filter_congr
    intro c hc
    rw [key c hc]
  · apply List.map_congr_left
    intro l _
    apply List.filter_congr
    intro i _
    rw [Bool.eq_iff_iff]
    simp only [Bool.not_eq_true', List.all_eq_true, Bool.and_eq_false_imp, beq_eq_false_iff_ne]
    rw [← Bool.not_eq_true, List.contains_iff_mem, List.mem_map]
    constructor
    · rintro hn c hc hg rfl
      exact hn ⟨c, List.mem_filter.2 ⟨hc, by simpa [Cue.isQueued] using hg⟩, rfl⟩
    · rintro hn ⟨c, hc, rfl⟩
      rw [List.mem_filter] at hc
      exact hn c hc.1 (by simpa [Cue.isQueued] using hc.2) rfl
end Sys2Proof.Machine
end

