-- ==== Sys2Proof/Laws/Lists.lean ====
section
/-! SUPPORT. The list operations of Machine/Ops.lean: lengths, members, order kept as a permutation. -/

namespace Sys2Proof.Machine

@[simp] theorem updateAt_length {α : Type} (l : List α) (i : Nat) (f : α → α) : (updateAt l i f).length = l.length := by
  induction l generalizing i with
  | nil => rfl
  | cons a l ih => cases i <;> simp [updateAt, ih]

theorem updateAt_getElem? {α : Type} (l : List α) (i j : Nat) (f : α → α) :
    (updateAt l i f)[j]? = if i = j then l[j]?.map f else l[j]? := by
  induction l generalizing i j with
  | nil => simp [updateAt]
  | cons a l ih => cases i <;> cases j <;> simp [updateAt, ih]

theorem updateAt_getD_same {α : Type} (l : List α) (i : Nat) (f : α → α) (d : α) (h : i < l.length) :
    (updateAt l i f).getD i d = f (l.getD i d) := by
  rw [List.getD_eq_getElem?_getD, List.getD_eq_getElem?_getD, updateAt_getElem?, if_pos rfl, List.getElem?_eq_getElem h]
  rfl

theorem updateAt_getD_other {α : Type} (l : List α) (i j : Nat) (f : α → α) (d : α) (h : i ≠ j) :
    (updateAt l i f).getD j d = l.getD j d := by
  simp [List.getD, updateAt_getElem?, h]

/-- A property that every element has, and that the image of one keeps, holds of every element after an update. -/
theorem updateAt_all {α : Type} (P : α → Prop) (l : List α) (i : Nat) (f : α → α) (h : ∀ a ∈ l, P a)
    (hf : ∀ a, P a → P (f a)) : ∀ a ∈ updateAt l i f, P a := by
  induction l generalizing i with
  | nil => simp [updateAt]
  | cons b l ih =>
    cases i with
    | zero =>
      intro a ha
      rcases List.mem_cons.mp ha with rfl | ha
      · exact hf b (h b (by simp))
      · exact h a (by simp [ha])
    | succ n =>
      intro a ha
      rcases List.mem_cons.mp ha with rfl | ha
      · exact h a (by simp)
      · exact ih n (fun a ha => h a (by simp [ha])) a ha

theorem insertBy_perm {α : Type} (before : α → α → Bool) (a : α) (l : List α) : (insertBy before a l).Perm (a :: l) := by
  induction l with
  | nil => exact List.Perm.refl _
  | cons b l ih =>
    unfold insertBy
    split
    · exact List.Perm.refl _
    · exact (List.Perm.cons b ih).trans (List.Perm.swap a b l)

@[simp] theorem insertBy_length {α : Type} (before : α → α → Bool) (a : α) (l : List α) :
    (insertBy before a l).length = l.length + 1 := (insertBy_perm before a l).length_eq

theorem foldl_insertBy_perm {α : Type} (before : α → α → Bool) (l acc : List α) :
    (l.foldl (fun acc a => insertBy before a acc) acc).Perm (l ++ acc) := by
  induction l generalizing acc with
  | nil => exact List.Perm.refl _
  | cons a l ih =>
    refine (ih (insertBy before a acc)).trans ?_
    exact ((List.Perm.append_left l (insertBy_perm before a acc)).trans List.perm_middle)

/-- Putting a list in order only moves its elements. -/
theorem sortBy_perm {α : Type} (before : α → α → Bool) (l : List α) : (sortBy before l).Perm l := by
  have h := foldl_insertBy_perm before l []
  rwa [List.append_nil] at h

@[simp] theorem sortBy_length {α : Type} (before : α → α → Bool) (l : List α) : (sortBy before l).length = l.length :=
  (sortBy_perm before l).length_eq

@[simp] theorem numbersFrom_length (lo n : Nat) : (numbersFrom lo n).length = n := by simp [numbersFrom]

/-- A quantity that one step of a fold keeps is kept by the fold. -/
theorem foldl_keeps {α β γ : Type} (g : α → γ) (f : α → β → α) (h : ∀ a b, g (f a b) = g a) (l : List β) (a : α) :
    g (l.foldl f a) = g a := by
  induction l generalizing a with
  | nil => rfl
  | cons b l ih => rw [List.foldl_cons, ih, h]

/-- A property that one step of a fold keeps is kept by the fold. -/
theorem foldl_invariant {α β : Type} (P : α → Prop) (f : α → β → α) (h : ∀ a b, P a → P (f a b)) (l : List β) (a : α)
    (ha : P a) : P (l.foldl f a) := by
  induction l generalizing a with
  | nil => exact ha
  | cons b l ih => exact ih _ (h a b ha)

/-- A quantity that one step keeps is kept by repeating it. -/
theorem times_keeps {α γ : Type} (g : α → γ) (f : α → α) (h : ∀ a, g (f a) = g a) (n : Nat) (a : α) :
    g (times n f a) = g a := by
  induction n generalizing a with
  | zero => rfl
  | succ n ih => rw [times, ih, h]

/-- A property that one step keeps is kept by repeating it. -/
theorem times_invariant {α : Type} (P : α → Prop) (f : α → α) (h : ∀ a, P a → P (f a)) (n : Nat) (a : α) (ha : P a) :
    P (times n f a) := by
  induction n generalizing a with
  | zero => exact ha
  | succ n ih => exact ih _ (h a ha)

@[simp] theorem be_length (n v : Nat) : (be n v).length = n := by
  induction n with
  | zero => rfl
  | succ n ih => simp [be, ih]

/-- A field padded or cut has its width. -/
@[simp] theorem fit_length (n : Nat) (t : Text) : (fit n t).length = n := by
  simp [fit]
  omega

/-- A value that `f` leaves is left by repetitions of `f`. -/
theorem times_fixed {α : Type} (n : Nat) (f : α → α) (a : α) (h : f a = a) : times n f a = a := by
  induction n with
  | zero => rfl
  | succ n ih => rw [times, h, ih]

end Sys2Proof.Machine
end

