-- ==== Sys2Proof/Laws/State.lean ====
section
/-! SUPPORT. One lemma per field per update of the state, so that no proof unfolds a record update, and what carrying elapsed time
does to a line. -/

namespace Sys2Proof.Machine

/-! ## Part.mapRecords -/

@[simp] theorem Part.mapRecords_powered (p : Part) (f : List Record → List Record) : (p.mapRecords f).powered = p.powered := rfl
@[simp] theorem Part.mapRecords_elapsed (p : Part) (f : List Record → List Record) : (p.mapRecords f).elapsed = p.elapsed := rfl
@[simp] theorem Part.mapRecords_free (p : Part) (f : List Record → List Record) : (p.mapRecords f).free = p.free := rfl
@[simp] theorem Part.mapRecords_time (p : Part) (f : List Record → List Record) : (p.mapRecords f).time = p.time := rfl
@[simp] theorem Part.mapRecords_table (p : Part) (f : List Record → List Record) : (p.mapRecords f).table = { p.table with records := f p.table.records } := rfl
@[simp] theorem Part.mapRecords_own (p : Part) (f : List Record → List Record) : (p.mapRecords f).own = p.own := rfl
@[simp] theorem Part.mapRecords_notices (p : Part) (f : List Record → List Record) : (p.mapRecords f).notices = p.notices := rfl
@[simp] theorem Part.mapRecords_image (p : Part) (f : List Record → List Record) : (p.mapRecords f).image = p.image := rfl
@[simp] theorem Part.mapRecords_chain (p : Part) (f : List Record → List Record) : (p.mapRecords f).chain = p.chain := rfl
@[simp] theorem Part.mapRecords_cues (p : Part) (f : List Record → List Record) : (p.mapRecords f).cues = p.cues := rfl
@[simp] theorem Part.mapRecords_clocks (p : Part) (f : List Record → List Record) : (p.mapRecords f).clocks = p.clocks := rfl
@[simp] theorem Part.mapRecords_inputs (p : Part) (f : List Record → List Record) : (p.mapRecords f).inputs = p.inputs := rfl
@[simp] theorem Part.mapRecords_store (p : Part) (f : List Record → List Record) : (p.mapRecords f).store = p.store := rfl
@[simp] theorem Part.mapRecords_info (p : Part) (f : List Record → List Record) : (p.mapRecords f).info = p.info := rfl
@[simp] theorem Part.mapRecords_ctl (p : Part) (f : List Record → List Record) : (p.mapRecords f).ctl = p.ctl := rfl
@[simp] theorem Part.mapRecords_feed (p : Part) (f : List Record → List Record) : (p.mapRecords f).feed = p.feed := rfl
@[simp] theorem Part.mapRecords_resetDue (p : Part) (f : List Record → List Record) : (p.mapRecords f).resetDue = p.resetDue := rfl
@[simp] theorem Part.mapRecords_ev (p : Part) (f : List Record → List Record) : (p.mapRecords f).ev = p.ev := rfl

/-! ## Part.modCues -/

@[simp] theorem Part.modCues_powered (p : Part) (f : CueSched → CueSched) : (p.modCues f).powered = p.powered := rfl
@[simp] theorem Part.modCues_elapsed (p : Part) (f : CueSched → CueSched) : (p.modCues f).elapsed = p.elapsed := rfl
@[simp] theorem Part.modCues_free (p : Part) (f : CueSched → CueSched) : (p.modCues f).free = p.free := rfl
@[simp] theorem Part.modCues_time (p : Part) (f : CueSched → CueSched) : (p.modCues f).time = p.time := rfl
@[simp] theorem Part.modCues_table (p : Part) (f : CueSched → CueSched) : (p.modCues f).table = p.table := rfl
@[simp] theorem Part.modCues_own (p : Part) (f : CueSched → CueSched) : (p.modCues f).own = p.own := rfl
@[simp] theorem Part.modCues_notices (p : Part) (f : CueSched → CueSched) : (p.modCues f).notices = p.notices := rfl
@[simp] theorem Part.modCues_image (p : Part) (f : CueSched → CueSched) : (p.modCues f).image = p.image := rfl
@[simp] theorem Part.modCues_chain (p : Part) (f : CueSched → CueSched) : (p.modCues f).chain = p.chain := rfl
@[simp] theorem Part.modCues_cues (p : Part) (f : CueSched → CueSched) : (p.modCues f).cues = f p.cues := rfl
@[simp] theorem Part.modCues_clocks (p : Part) (f : CueSched → CueSched) : (p.modCues f).clocks = p.clocks := rfl
@[simp] theorem Part.modCues_inputs (p : Part) (f : CueSched → CueSched) : (p.modCues f).inputs = p.inputs := rfl
@[simp] theorem Part.modCues_store (p : Part) (f : CueSched → CueSched) : (p.modCues f).store = p.store := rfl
@[simp] theorem Part.modCues_info (p : Part) (f : CueSched → CueSched) : (p.modCues f).info = p.info := rfl
@[simp] theorem Part.modCues_ctl (p : Part) (f : CueSched → CueSched) : (p.modCues f).ctl = p.ctl := rfl
@[simp] theorem Part.modCues_feed (p : Part) (f : CueSched → CueSched) : (p.modCues f).feed = p.feed := rfl
@[simp] theorem Part.modCues_resetDue (p : Part) (f : CueSched → CueSched) : (p.modCues f).resetDue = p.resetDue := rfl
@[simp] theorem Part.modCues_ev (p : Part) (f : CueSched → CueSched) : (p.modCues f).ev = p.ev := rfl

/-! ## Part.modTime -/

@[simp] theorem Part.modTime_powered (p : Part) (f : Timebase → Timebase) : (p.modTime f).powered = p.powered := rfl
@[simp] theorem Part.modTime_elapsed (p : Part) (f : Timebase → Timebase) : (p.modTime f).elapsed = p.elapsed := rfl
@[simp] theorem Part.modTime_free (p : Part) (f : Timebase → Timebase) : (p.modTime f).free = p.free := rfl
@[simp] theorem Part.modTime_time (p : Part) (f : Timebase → Timebase) : (p.modTime f).time = f p.time := rfl
@[simp] theorem Part.modTime_table (p : Part) (f : Timebase → Timebase) : (p.modTime f).table = p.table := rfl
@[simp] theorem Part.modTime_own (p : Part) (f : Timebase → Timebase) : (p.modTime f).own = p.own := rfl
@[simp] theorem Part.modTime_notices (p : Part) (f : Timebase → Timebase) : (p.modTime f).notices = p.notices := rfl
@[simp] theorem Part.modTime_image (p : Part) (f : Timebase → Timebase) : (p.modTime f).image = p.image := rfl
@[simp] theorem Part.modTime_chain (p : Part) (f : Timebase → Timebase) : (p.modTime f).chain = p.chain := rfl
@[simp] theorem Part.modTime_cues (p : Part) (f : Timebase → Timebase) : (p.modTime f).cues = p.cues := rfl
@[simp] theorem Part.modTime_clocks (p : Part) (f : Timebase → Timebase) : (p.modTime f).clocks = p.clocks := rfl
@[simp] theorem Part.modTime_inputs (p : Part) (f : Timebase → Timebase) : (p.modTime f).inputs = p.inputs := rfl
@[simp] theorem Part.modTime_store (p : Part) (f : Timebase → Timebase) : (p.modTime f).store = p.store := rfl
@[simp] theorem Part.modTime_info (p : Part) (f : Timebase → Timebase) : (p.modTime f).info = p.info := rfl
@[simp] theorem Part.modTime_ctl (p : Part) (f : Timebase → Timebase) : (p.modTime f).ctl = p.ctl := rfl
@[simp] theorem Part.modTime_feed (p : Part) (f : Timebase → Timebase) : (p.modTime f).feed = p.feed := rfl
@[simp] theorem Part.modTime_resetDue (p : Part) (f : Timebase → Timebase) : (p.modTime f).resetDue = p.resetDue := rfl
@[simp] theorem Part.modTime_ev (p : Part) (f : Timebase → Timebase) : (p.modTime f).ev = p.ev := rfl

/-! ## Part.modChain -/

@[simp] theorem Part.modChain_powered (p : Part) (f : Chain → Chain) : (p.modChain f).powered = p.powered := rfl
@[simp] theorem Part.modChain_elapsed (p : Part) (f : Chain → Chain) : (p.modChain f).elapsed = p.elapsed := rfl
@[simp] theorem Part.modChain_free (p : Part) (f : Chain → Chain) : (p.modChain f).free = p.free := rfl
@[simp] theorem Part.modChain_time (p : Part) (f : Chain → Chain) : (p.modChain f).time = p.time := rfl
@[simp] theorem Part.modChain_table (p : Part) (f : Chain → Chain) : (p.modChain f).table = p.table := rfl
@[simp] theorem Part.modChain_own (p : Part) (f : Chain → Chain) : (p.modChain f).own = p.own := rfl
@[simp] theorem Part.modChain_notices (p : Part) (f : Chain → Chain) : (p.modChain f).notices = p.notices := rfl
@[simp] theorem Part.modChain_image (p : Part) (f : Chain → Chain) : (p.modChain f).image = p.image := rfl
@[simp] theorem Part.modChain_chain (p : Part) (f : Chain → Chain) : (p.modChain f).chain = f p.chain := rfl
@[simp] theorem Part.modChain_cues (p : Part) (f : Chain → Chain) : (p.modChain f).cues = p.cues := rfl
@[simp] theorem Part.modChain_clocks (p : Part) (f : Chain → Chain) : (p.modChain f).clocks = p.clocks := rfl
@[simp] theorem Part.modChain_inputs (p : Part) (f : Chain → Chain) : (p.modChain f).inputs = p.inputs := rfl
@[simp] theorem Part.modChain_store (p : Part) (f : Chain → Chain) : (p.modChain f).store = p.store := rfl
@[simp] theorem Part.modChain_info (p : Part) (f : Chain → Chain) : (p.modChain f).info = p.info := rfl
@[simp] theorem Part.modChain_ctl (p : Part) (f : Chain → Chain) : (p.modChain f).ctl = p.ctl := rfl
@[simp] theorem Part.modChain_feed (p : Part) (f : Chain → Chain) : (p.modChain f).feed = p.feed := rfl
@[simp] theorem Part.modChain_resetDue (p : Part) (f : Chain → Chain) : (p.modChain f).resetDue = p.resetDue := rfl
@[simp] theorem Part.modChain_ev (p : Part) (f : Chain → Chain) : (p.modChain f).ev = p.ev := rfl

/-! ## Part.modClocks -/

@[simp] theorem Part.modClocks_powered (p : Part) (f : Clocks → Clocks) : (p.modClocks f).powered = p.powered := rfl
@[simp] theorem Part.modClocks_elapsed (p : Part) (f : Clocks → Clocks) : (p.modClocks f).elapsed = p.elapsed := rfl
@[simp] theorem Part.modClocks_free (p : Part) (f : Clocks → Clocks) : (p.modClocks f).free = p.free := rfl
@[simp] theorem Part.modClocks_time (p : Part) (f : Clocks → Clocks) : (p.modClocks f).time = p.time := rfl
@[simp] theorem Part.modClocks_table (p : Part) (f : Clocks → Clocks) : (p.modClocks f).table = p.table := rfl
@[simp] theorem Part.modClocks_own (p : Part) (f : Clocks → Clocks) : (p.modClocks f).own = p.own := rfl
@[simp] theorem Part.modClocks_notices (p : Part) (f : Clocks → Clocks) : (p.modClocks f).notices = p.notices := rfl
@[simp] theorem Part.modClocks_image (p : Part) (f : Clocks → Clocks) : (p.modClocks f).image = p.image := rfl
@[simp] theorem Part.modClocks_chain (p : Part) (f : Clocks → Clocks) : (p.modClocks f).chain = p.chain := rfl
@[simp] theorem Part.modClocks_cues (p : Part) (f : Clocks → Clocks) : (p.modClocks f).cues = p.cues := rfl
@[simp] theorem Part.modClocks_clocks (p : Part) (f : Clocks → Clocks) : (p.modClocks f).clocks = f p.clocks := rfl
@[simp] theorem Part.modClocks_inputs (p : Part) (f : Clocks → Clocks) : (p.modClocks f).inputs = p.inputs := rfl
@[simp] theorem Part.modClocks_store (p : Part) (f : Clocks → Clocks) : (p.modClocks f).store = p.store := rfl
@[simp] theorem Part.modClocks_info (p : Part) (f : Clocks → Clocks) : (p.modClocks f).info = p.info := rfl
@[simp] theorem Part.modClocks_ctl (p : Part) (f : Clocks → Clocks) : (p.modClocks f).ctl = p.ctl := rfl
@[simp] theorem Part.modClocks_feed (p : Part) (f : Clocks → Clocks) : (p.modClocks f).feed = p.feed := rfl
@[simp] theorem Part.modClocks_resetDue (p : Part) (f : Clocks → Clocks) : (p.modClocks f).resetDue = p.resetDue := rfl
@[simp] theorem Part.modClocks_ev (p : Part) (f : Clocks → Clocks) : (p.modClocks f).ev = p.ev := rfl

/-! ## Part.modStore -/

@[simp] theorem Part.modStore_powered (p : Part) (f : Store → Store) : (p.modStore f).powered = p.powered := rfl
@[simp] theorem Part.modStore_elapsed (p : Part) (f : Store → Store) : (p.modStore f).elapsed = p.elapsed := rfl
@[simp] theorem Part.modStore_free (p : Part) (f : Store → Store) : (p.modStore f).free = p.free := rfl
@[simp] theorem Part.modStore_time (p : Part) (f : Store → Store) : (p.modStore f).time = p.time := rfl
@[simp] theorem Part.modStore_table (p : Part) (f : Store → Store) : (p.modStore f).table = p.table := rfl
@[simp] theorem Part.modStore_own (p : Part) (f : Store → Store) : (p.modStore f).own = p.own := rfl
@[simp] theorem Part.modStore_notices (p : Part) (f : Store → Store) : (p.modStore f).notices = p.notices := rfl
@[simp] theorem Part.modStore_image (p : Part) (f : Store → Store) : (p.modStore f).image = p.image := rfl
@[simp] theorem Part.modStore_chain (p : Part) (f : Store → Store) : (p.modStore f).chain = p.chain := rfl
@[simp] theorem Part.modStore_cues (p : Part) (f : Store → Store) : (p.modStore f).cues = p.cues := rfl
@[simp] theorem Part.modStore_clocks (p : Part) (f : Store → Store) : (p.modStore f).clocks = p.clocks := rfl
@[simp] theorem Part.modStore_inputs (p : Part) (f : Store → Store) : (p.modStore f).inputs = p.inputs := rfl
@[simp] theorem Part.modStore_store (p : Part) (f : Store → Store) : (p.modStore f).store = f p.store := rfl
@[simp] theorem Part.modStore_info (p : Part) (f : Store → Store) : (p.modStore f).info = p.info := rfl
@[simp] theorem Part.modStore_ctl (p : Part) (f : Store → Store) : (p.modStore f).ctl = p.ctl := rfl
@[simp] theorem Part.modStore_feed (p : Part) (f : Store → Store) : (p.modStore f).feed = p.feed := rfl
@[simp] theorem Part.modStore_resetDue (p : Part) (f : Store → Store) : (p.modStore f).resetDue = p.resetDue := rfl
@[simp] theorem Part.modStore_ev (p : Part) (f : Store → Store) : (p.modStore f).ev = p.ev := rfl

/-! ## Part.modFeed -/

@[simp] theorem Part.modFeed_powered (p : Part) (f : Feed → Feed) : (p.modFeed f).powered = p.powered := rfl
@[simp] theorem Part.modFeed_elapsed (p : Part) (f : Feed → Feed) : (p.modFeed f).elapsed = p.elapsed := rfl
@[simp] theorem Part.modFeed_free (p : Part) (f : Feed → Feed) : (p.modFeed f).free = p.free := rfl
@[simp] theorem Part.modFeed_time (p : Part) (f : Feed → Feed) : (p.modFeed f).time = p.time := rfl
@[simp] theorem Part.modFeed_table (p : Part) (f : Feed → Feed) : (p.modFeed f).table = p.table := rfl
@[simp] theorem Part.modFeed_own (p : Part) (f : Feed → Feed) : (p.modFeed f).own = p.own := rfl
@[simp] theorem Part.modFeed_notices (p : Part) (f : Feed → Feed) : (p.modFeed f).notices = p.notices := rfl
@[simp] theorem Part.modFeed_image (p : Part) (f : Feed → Feed) : (p.modFeed f).image = p.image := rfl
@[simp] theorem Part.modFeed_chain (p : Part) (f : Feed → Feed) : (p.modFeed f).chain = p.chain := rfl
@[simp] theorem Part.modFeed_cues (p : Part) (f : Feed → Feed) : (p.modFeed f).cues = p.cues := rfl
@[simp] theorem Part.modFeed_clocks (p : Part) (f : Feed → Feed) : (p.modFeed f).clocks = p.clocks := rfl
@[simp] theorem Part.modFeed_inputs (p : Part) (f : Feed → Feed) : (p.modFeed f).inputs = p.inputs := rfl
@[simp] theorem Part.modFeed_store (p : Part) (f : Feed → Feed) : (p.modFeed f).store = p.store := rfl
@[simp] theorem Part.modFeed_info (p : Part) (f : Feed → Feed) : (p.modFeed f).info = p.info := rfl
@[simp] theorem Part.modFeed_ctl (p : Part) (f : Feed → Feed) : (p.modFeed f).ctl = p.ctl := rfl
@[simp] theorem Part.modFeed_feed (p : Part) (f : Feed → Feed) : (p.modFeed f).feed = f p.feed := rfl
@[simp] theorem Part.modFeed_resetDue (p : Part) (f : Feed → Feed) : (p.modFeed f).resetDue = p.resetDue := rfl
@[simp] theorem Part.modFeed_ev (p : Part) (f : Feed → Feed) : (p.modFeed f).ev = p.ev := rfl

/-! ## Part.modInput -/

@[simp] theorem Part.modInput_powered (p : Part) (i : Nat) (f : WallInput → WallInput) : (p.modInput i f).powered = p.powered := rfl
@[simp] theorem Part.modInput_elapsed (p : Part) (i : Nat) (f : WallInput → WallInput) : (p.modInput i f).elapsed = p.elapsed := rfl
@[simp] theorem Part.modInput_free (p : Part) (i : Nat) (f : WallInput → WallInput) : (p.modInput i f).free = p.free := rfl
@[simp] theorem Part.modInput_time (p : Part) (i : Nat) (f : WallInput → WallInput) : (p.modInput i f).time = p.time := rfl
@[simp] theorem Part.modInput_table (p : Part) (i : Nat) (f : WallInput → WallInput) : (p.modInput i f).table = p.table := rfl
@[simp] theorem Part.modInput_own (p : Part) (i : Nat) (f : WallInput → WallInput) : (p.modInput i f).own = p.own := rfl
@[simp] theorem Part.modInput_notices (p : Part) (i : Nat) (f : WallInput → WallInput) : (p.modInput i f).notices = p.notices := rfl
@[simp] theorem Part.modInput_image (p : Part) (i : Nat) (f : WallInput → WallInput) : (p.modInput i f).image = p.image := rfl
@[simp] theorem Part.modInput_chain (p : Part) (i : Nat) (f : WallInput → WallInput) : (p.modInput i f).chain = p.chain := rfl
@[simp] theorem Part.modInput_cues (p : Part) (i : Nat) (f : WallInput → WallInput) : (p.modInput i f).cues = p.cues := rfl
@[simp] theorem Part.modInput_clocks (p : Part) (i : Nat) (f : WallInput → WallInput) : (p.modInput i f).clocks = p.clocks := rfl
@[simp] theorem Part.modInput_inputs (p : Part) (i : Nat) (f : WallInput → WallInput) : (p.modInput i f).inputs = updateAt p.inputs i f := rfl
@[simp] theorem Part.modInput_store (p : Part) (i : Nat) (f : WallInput → WallInput) : (p.modInput i f).store = p.store := rfl
@[simp] theorem Part.modInput_info (p : Part) (i : Nat) (f : WallInput → WallInput) : (p.modInput i f).info = p.info := rfl
@[simp] theorem Part.modInput_ctl (p : Part) (i : Nat) (f : WallInput → WallInput) : (p.modInput i f).ctl = p.ctl := rfl
@[simp] theorem Part.modInput_feed (p : Part) (i : Nat) (f : WallInput → WallInput) : (p.modInput i f).feed = p.feed := rfl
@[simp] theorem Part.modInput_resetDue (p : Part) (i : Nat) (f : WallInput → WallInput) : (p.modInput i f).resetDue = p.resetDue := rfl
@[simp] theorem Part.modInput_ev (p : Part) (i : Nat) (f : WallInput → WallInput) : (p.modInput i f).ev = p.ev := rfl

/-! ## Part.tellWall -/

@[simp] theorem Part.tellWall_powered (p : Part) : p.tellWall.powered = p.powered := rfl
@[simp] theorem Part.tellWall_elapsed (p : Part) : p.tellWall.elapsed = p.elapsed := rfl
@[simp] theorem Part.tellWall_free (p : Part) : p.tellWall.free = p.free := rfl
@[simp] theorem Part.tellWall_time (p : Part) : p.tellWall.time = p.time := rfl
@[simp] theorem Part.tellWall_table (p : Part) : p.tellWall.table = p.table := rfl
@[simp] theorem Part.tellWall_own (p : Part) : p.tellWall.own = p.own := rfl
@[simp] theorem Part.tellWall_notices (p : Part) : p.tellWall.notices = p.notices := rfl
@[simp] theorem Part.tellWall_image (p : Part) : p.tellWall.image = p.image := rfl
@[simp] theorem Part.tellWall_chain (p : Part) : p.tellWall.chain = p.chain := rfl
@[simp] theorem Part.tellWall_cues (p : Part) : p.tellWall.cues = p.cues := rfl
@[simp] theorem Part.tellWall_clocks (p : Part) : p.tellWall.clocks = p.clocks := rfl
@[simp] theorem Part.tellWall_inputs (p : Part) : p.tellWall.inputs = p.inputs := rfl
@[simp] theorem Part.tellWall_store (p : Part) : p.tellWall.store = p.store := rfl
@[simp] theorem Part.tellWall_info (p : Part) : p.tellWall.info = p.info := rfl
@[simp] theorem Part.tellWall_ctl (p : Part) : p.tellWall.ctl = p.ctl := rfl
@[simp] theorem Part.tellWall_feed (p : Part) : p.tellWall.feed = p.feed := rfl
@[simp] theorem Part.tellWall_resetDue (p : Part) : p.tellWall.resetDue = p.resetDue := rfl
@[simp] theorem Part.tellWall_ev (p : Part) : p.tellWall.ev = { p.ev with wallTold := true } := rfl

/-! ## Part.begin -/

@[simp] theorem Part.begin_powered (p : Part) : p.begin.powered = p.powered := rfl
@[simp] theorem Part.begin_elapsed (p : Part) : p.begin.elapsed = p.elapsed := rfl
@[simp] theorem Part.begin_free (p : Part) : p.begin.free = p.free := rfl
@[simp] theorem Part.begin_time (p : Part) : p.begin.time = p.time := rfl
@[simp] theorem Part.begin_table (p : Part) : p.begin.table = p.table := rfl
@[simp] theorem Part.begin_own (p : Part) : p.begin.own = p.own := rfl
@[simp] theorem Part.begin_notices (p : Part) : p.begin.notices = p.notices := rfl
@[simp] theorem Part.begin_image (p : Part) : p.begin.image = p.image := rfl
@[simp] theorem Part.begin_chain (p : Part) : p.begin.chain = p.chain := rfl
@[simp] theorem Part.begin_cues (p : Part) : p.begin.cues = p.cues := rfl
@[simp] theorem Part.begin_clocks (p : Part) : p.begin.clocks = p.clocks := rfl
@[simp] theorem Part.begin_inputs (p : Part) : p.begin.inputs = p.inputs := rfl
@[simp] theorem Part.begin_store (p : Part) : p.begin.store = p.store := rfl
@[simp] theorem Part.begin_info (p : Part) : p.begin.info = p.info := rfl
@[simp] theorem Part.begin_ctl (p : Part) : p.begin.ctl = p.ctl := rfl
@[simp] theorem Part.begin_feed (p : Part) : p.begin.feed = p.feed := rfl
@[simp] theorem Part.begin_resetDue (p : Part) : p.begin.resetDue = p.resetDue := rfl
@[simp] theorem Part.begin_ev (p : Part) : p.begin.ev = { noEvent with arrivalMark := p.cues.nextArrival } := rfl

/-! ## Part.advanceTo -/

@[simp] theorem Part.advanceTo_powered (p : Part) (t : Nat) : (p.advanceTo t).powered = p.powered := rfl
@[simp] theorem Part.advanceTo_elapsed (p : Part) (t : Nat) : (p.advanceTo t).elapsed = max p.elapsed t := rfl
@[simp] theorem Part.advanceTo_free (p : Part) (t : Nat) : (p.advanceTo t).free = p.free := rfl
@[simp] theorem Part.advanceTo_table (p : Part) (t : Nat) : (p.advanceTo t).table = p.table := rfl
@[simp] theorem Part.advanceTo_own (p : Part) (t : Nat) : (p.advanceTo t).own = p.own := rfl
@[simp] theorem Part.advanceTo_notices (p : Part) (t : Nat) : (p.advanceTo t).notices = p.notices := rfl
@[simp] theorem Part.advanceTo_image (p : Part) (t : Nat) : (p.advanceTo t).image = p.image := rfl
@[simp] theorem Part.advanceTo_chain (p : Part) (t : Nat) : (p.advanceTo t).chain = p.chain := rfl
@[simp] theorem Part.advanceTo_cues (p : Part) (t : Nat) : (p.advanceTo t).cues = p.cues := rfl
@[simp] theorem Part.advanceTo_clocks (p : Part) (t : Nat) : (p.advanceTo t).clocks = p.clocks := rfl
@[simp] theorem Part.advanceTo_inputs (p : Part) (t : Nat) : (p.advanceTo t).inputs = p.inputs := rfl
@[simp] theorem Part.advanceTo_store (p : Part) (t : Nat) : (p.advanceTo t).store = p.store := rfl
@[simp] theorem Part.advanceTo_info (p : Part) (t : Nat) :
    (p.advanceTo t).info = p.info.carry (p.summary .information) p.elapsed (max p.elapsed t) := rfl
@[simp] theorem Part.advanceTo_ctl (p : Part) (t : Nat) :
    (p.advanceTo t).ctl = p.ctl.carry (p.summary .control) p.elapsed (max p.elapsed t) := rfl
@[simp] theorem Part.advanceTo_feed (p : Part) (t : Nat) : (p.advanceTo t).feed = p.feed := rfl
@[simp] theorem Part.advanceTo_resetDue (p : Part) (t : Nat) : (p.advanceTo t).resetDue = p.resetDue := rfl
@[simp] theorem Part.advanceTo_ev (p : Part) (t : Nat) : (p.advanceTo t).ev = p.ev := rfl

/-! ## Part.show -/

@[simp] theorem Part.show_powered (p : Part) (id page : Nat) : (p.show id page).powered = p.powered := rfl
@[simp] theorem Part.show_elapsed (p : Part) (id page : Nat) : (p.show id page).elapsed = p.elapsed := rfl
@[simp] theorem Part.show_free (p : Part) (id page : Nat) : (p.show id page).free = p.free := rfl
@[simp] theorem Part.show_time (p : Part) (id page : Nat) : (p.show id page).time = p.time := rfl
@[simp] theorem Part.show_table (p : Part) (id page : Nat) : (p.show id page).table = p.table := rfl
@[simp] theorem Part.show_own (p : Part) (id page : Nat) : (p.show id page).own = p.own := rfl
@[simp] theorem Part.show_image (p : Part) (id page : Nat) : (p.show id page).image = p.image := rfl
@[simp] theorem Part.show_chain (p : Part) (id page : Nat) : (p.show id page).chain = p.chain := rfl
@[simp] theorem Part.show_cues (p : Part) (id page : Nat) : (p.show id page).cues = p.cues := rfl
@[simp] theorem Part.show_clocks (p : Part) (id page : Nat) : (p.show id page).clocks = p.clocks := rfl
@[simp] theorem Part.show_inputs (p : Part) (id page : Nat) : (p.show id page).inputs = p.inputs := rfl
@[simp] theorem Part.show_store (p : Part) (id page : Nat) : (p.show id page).store = p.store := rfl
@[simp] theorem Part.show_info (p : Part) (id page : Nat) : (p.show id page).info = p.info := rfl
@[simp] theorem Part.show_ctl (p : Part) (id page : Nat) : (p.show id page).ctl = p.ctl := rfl
@[simp] theorem Part.show_feed (p : Part) (id page : Nat) : (p.show id page).feed = p.feed := rfl
@[simp] theorem Part.show_resetDue (p : Part) (id page : Nat) : (p.show id page).resetDue = p.resetDue := rfl
@[simp] theorem Part.show_ev (p : Part) (id page : Nat) : (p.show id page).ev = p.ev := rfl

/-! ## Part.modPort -/

@[simp] theorem Part.modPort_powered (p : Part) (l : Link) (f : Port → Port) : (p.modPort l f).powered = p.powered := by
  cases l <;> rfl
@[simp] theorem Part.modPort_elapsed (p : Part) (l : Link) (f : Port → Port) : (p.modPort l f).elapsed = p.elapsed := by
  cases l <;> rfl
@[simp] theorem Part.modPort_free (p : Part) (l : Link) (f : Port → Port) : (p.modPort l f).free = p.free := by
  cases l <;> rfl
@[simp] theorem Part.modPort_time (p : Part) (l : Link) (f : Port → Port) : (p.modPort l f).time = p.time := by
  cases l <;> rfl
@[simp] theorem Part.modPort_table (p : Part) (l : Link) (f : Port → Port) : (p.modPort l f).table = p.table := by
  cases l <;> rfl
@[simp] theorem Part.modPort_own (p : Part) (l : Link) (f : Port → Port) : (p.modPort l f).own = p.own := by
  cases l <;> rfl
@[simp] theorem Part.modPort_notices (p : Part) (l : Link) (f : Port → Port) : (p.modPort l f).notices = p.notices := by
  cases l <;> rfl
@[simp] theorem Part.modPort_image (p : Part) (l : Link) (f : Port → Port) : (p.modPort l f).image = p.image := by
  cases l <;> rfl
@[simp] theorem Part.modPort_chain (p : Part) (l : Link) (f : Port → Port) : (p.modPort l f).chain = p.chain := by
  cases l <;> rfl
@[simp] theorem Part.modPort_cues (p : Part) (l : Link) (f : Port → Port) : (p.modPort l f).cues = p.cues := by
  cases l <;> rfl
@[simp] theorem Part.modPort_clocks (p : Part) (l : Link) (f : Port → Port) : (p.modPort l f).clocks = p.clocks := by
  cases l <;> rfl
@[simp] theorem Part.modPort_inputs (p : Part) (l : Link) (f : Port → Port) : (p.modPort l f).inputs = p.inputs := by
  cases l <;> rfl
@[simp] theorem Part.modPort_store (p : Part) (l : Link) (f : Port → Port) : (p.modPort l f).store = p.store := by
  cases l <;> rfl
@[simp] theorem Part.modPort_feed (p : Part) (l : Link) (f : Port → Port) : (p.modPort l f).feed = p.feed := by
  cases l <;> rfl
@[simp] theorem Part.modPort_resetDue (p : Part) (l : Link) (f : Port → Port) : (p.modPort l f).resetDue = p.resetDue := by
  cases l <;> rfl
@[simp] theorem Part.modPort_ev (p : Part) (l : Link) (f : Port → Port) : (p.modPort l f).ev = p.ev := by
  cases l <;> rfl

@[simp] theorem Part.modPort_port_same (p : Part) (l : Link) (f : Port → Port) : (p.modPort l f).port l = f (p.port l) := by
  cases l <;> rfl

theorem Part.modPort_port_other (p : Part) (l m : Link) (f : Port → Port) (h : l ≠ m) :
    (p.modPort l f).port m = p.port m := by
  cases l <;> cases m <;> first | rfl | exact absurd rfl h

@[simp] theorem Part.port_information (p : Part) : p.port .information = p.info := rfl

@[simp] theorem Part.port_control (p : Part) : p.port .control = p.ctl := rfl

/-! ## Updates of one record, one zone, one panel, one line -/

@[simp] theorem Part.modRecord_names (p : Part) (id : Nat) (f : Record → Record) :
    (p.modRecord id f).table.names = p.table.names := rfl

@[simp] theorem Part.modRecord_records (p : Part) (id : Nat) (f : Record → Record) :
    (p.modRecord id f).table.records = p.table.records.map fun r => if r.id == id then f r else r := rfl

@[simp] theorem Part.modPanel_eq (p : Part) (a : Nat) (f : Panel → Panel) :
    p.modPanel a f = p.modChain fun c => { c with panels := updateAt c.panels (a - 1) f } := rfl

@[simp] theorem Part.modLine_eq (p : Part) (i : Nat) (f : ClockLine → ClockLine) :
    p.modLine i f = p.modClocks fun c => { c with lines := updateAt c.lines i f } := rfl

@[simp] theorem Part.modTest_eq (p : Part) (f : LinkTest → LinkTest) :
    p.modTest f = p.modChain fun c => { c with test := f c.test } := rfl

/-! ## What is overtaken, and what a reply writes (R126, R133, R142) -/

@[simp] theorem Chain.supersede_panels (c : Chain) (sel : Nat → Bool) : (c.supersede sel).panels = c.panels := rfl
@[simp] theorem Chain.supersede_duty (c : Chain) (sel : Nat → Bool) : (c.supersede sel).duty = c.duty := rfl
@[simp] theorem Chain.supersede_mode (c : Chain) (sel : Nat → Bool) : (c.supersede sel).mode = c.mode := rfl
@[simp] theorem Chain.supersede_test (c : Chain) (sel : Nat → Bool) : (c.supersede sel).test = c.test := rfl
@[simp] theorem Chain.supersede_reset (c : Chain) (sel : Nat → Bool) : (c.supersede sel).reset = c.reset := rfl
@[simp] theorem Chain.supersede_cycleRest (c : Chain) (sel : Nat → Bool) : (c.supersede sel).cycleRest = c.cycleRest := rfl

/-- Superseding a poll leaves its frame. -/
theorem Chain.supersede_frame (c : Chain) (sel : Nat → Bool) :
    (c.supersede sel).poll.map (·.frame) = c.poll.map (·.frame) := by
  unfold Chain.supersede
  cases c.poll <;> rfl

@[simp] theorem Panel.heard_state (n : Panel) (q : Poll) (t : Int) (d : Bool) : (n.heard q t d).state = n.state := rfl
@[simp] theorem Panel.heard_misses (n : Panel) (q : Poll) (t : Int) (d : Bool) : (n.heard q t d).misses = n.misses := rfl
@[simp] theorem Panel.heard_recovery (n : Panel) (q : Poll) (t : Int) (d : Bool) : (n.heard q t d).recovery = n.recovery := rfl

/-- The reply to a superseded poll acknowledges nothing. -/
theorem Panel.heard_superseded (n : Panel) (q : Poll) (t : Int) (d : Bool) (h : q.superseded = true) :
    (n.heard q t d).ack = n.ack ∧ (n.heard q t d).refresh = n.refresh := by
  simp [Panel.heard, h]

/-- The reply to any other poll acknowledges its generation. -/
theorem Panel.heard_current (n : Panel) (q : Poll) (t : Int) (d : Bool) (h : q.superseded = false) :
    (n.heard q t d).ack = q.frame.generation ∧ (n.heard q t d).refresh = false := by
  simp [Panel.heard, h]

/-! ## Source time (R1) -/

@[simp] theorem Part.advanceTo_sourceMs (p : Part) (t : Nat) :
    (p.advanceTo t).time.sourceMs = p.time.sourceMs + (max p.elapsed t - p.elapsed) := rfl

/-- Source time and elapsed time advance together. -/
theorem Part.advanceTo_source_elapsed (p : Part) (t : Nat) :
    (p.advanceTo t).time.sourceMs + p.elapsed = p.time.sourceMs + (p.advanceTo t).elapsed := by
  simp
  omega

/-- No source time is lost at the end of a station second. -/
theorem Timebase.tick_sourceMs (t : Timebase) (h : t.secondLength ≤ t.sourceMs) :
    t.tick.sourceMs + t.secondLength = t.sourceMs := by
  simp [Timebase.tick]
  omega

/-! ## A line as time passes (R186) -/

/-- Either port is carried by the same rule. -/
theorem Part.advanceTo_port (p : Part) (t : Nat) (l : Link) :
    (p.advanceTo t).port l = (p.port l).carry (p.summary l) p.elapsed (max p.elapsed t) := by
  cases l <;> rfl

/-- Carrying a line writes its frames, its end and the notice frame that waits, and nothing else. -/
theorem Port.carry_frame (q : Port) (summary : Byte) (start now : Nat) :
    q.carry summary start now = { q with
      tx := (q.carry summary start now).tx
      lineEnd := (q.carry summary start now).lineEnd
      noticeDue := (q.carry summary start now).noticeDue } := by
  unfold Port.carry
  split <;> rfl

@[simp] theorem Port.carry_latched (q : Port) (m : Byte) (s n : Nat) : (q.carry m s n).latched = q.latched := by
  rw [Port.carry_frame]
@[simp] theorem Port.carry_subjects (q : Port) (m : Byte) (s n : Nat) : (q.carry m s n).subjects = q.subjects := by
  rw [Port.carry_frame]
@[simp] theorem Port.carry_mask (q : Port) (m : Byte) (s n : Nat) : (q.carry m s n).mask = q.mask := by
  rw [Port.carry_frame]
@[simp] theorem Port.carry_resetSeen (q : Port) (m : Byte) (s n : Nat) : (q.carry m s n).resetSeen = q.resetSeen := by
  rw [Port.carry_frame]
@[simp] theorem Port.carry_linkError (q : Port) (m : Byte) (s n : Nat) : (q.carry m s n).linkError = q.linkError := by
  rw [Port.carry_frame]
@[simp] theorem Port.carry_frameErrors (q : Port) (m : Byte) (s n : Nat) : (q.carry m s n).frameErrors = q.frameErrors := by
  rw [Port.carry_frame]
@[simp] theorem Port.carry_inFrame (q : Port) (m : Byte) (s n : Nat) : (q.carry m s n).inFrame = q.inFrame := by
  rw [Port.carry_frame]
@[simp] theorem Port.carry_buffer (q : Port) (m : Byte) (s n : Nat) : (q.carry m s n).buffer = q.buffer := by
  rw [Port.carry_frame]
@[simp] theorem Port.carry_waiting (q : Port) (m : Byte) (s n : Nat) : (q.carry m s n).waiting = q.waiting := by
  rw [Port.carry_frame]
@[simp] theorem Port.carry_rate (q : Port) (m : Byte) (s n : Nat) : (q.carry m s n).rate = q.rate := by
  rw [Port.carry_frame]

/-- A line that is free stays as it is while no notice frame waits. -/
theorem Port.carry_free (q : Port) (m : Byte) (s n : Nat) (hd : q.noticeDue = false) (he : q.lineEnd = none) :
    q.carry m s n = q := by
  unfold Port.carry Port.flow
  rw [hd, he]
  simp only [lineAt, Bool.false_and, Bool.false_eq_true, if_false]
  rw [← hd, ← he]

/-- Until the frame being sent ends the line stays as it is. -/
theorem Port.carry_before (q : Port) (m : Byte) (s n e : Nat) (he : q.lineEnd = some e) (h : n < e) : q.carry m s n = q := by
  have hn : ¬ e ≤ n := Nat.not_le.mpr h
  have hs : ¬ e < n := Nat.not_lt.mpr (Nat.le_of_lt h)
  have hl : lineAt q.rate n q.noticeDue q.tx (some e) = (q.tx, some e) := by
    cases q.tx <;> simp [lineAt, hn]
  unfold Port.carry Port.flow
  simp only [he, Option.getD_some, decide_eq_false hs, Bool.and_false, Bool.false_eq_true, if_false, hl]
  rw [← he]

/-- As the frame being sent ends, the next begins, while no notice frame waits. -/
theorem Port.carry_next (q : Port) (m : Byte) (s n e : Nat) (f g : OutFrame) (rest : List OutFrame)
    (hd : q.noticeDue = false) (he : q.lineEnd = some e) (ht : q.tx = f :: g :: rest) (h : e ≤ n) :
    q.carry m s n = ({ q with tx := g :: rest, lineEnd := some (e + g.duration q.rate) } : Port).carry m s n := by
  simp [Port.carry, Port.flow, hd, he, ht, h, lineAt]

/-- The line is free when its last frame has ended, while no notice frame waits. -/
theorem Port.carry_last (q : Port) (m : Byte) (s n e : Nat) (f : OutFrame)
    (hd : q.noticeDue = false) (he : q.lineEnd = some e) (ht : q.tx = [f]) (h : e ≤ n) :
    q.carry m s n = { q with tx := [], lineEnd := none } := by
  simp [Port.carry, Port.flow, hd, he, ht, h, lineAt]

/-- At the very instant the frame being sent ends, a notice frame that waits stays, and no reply begins. -/
theorem Port.carry_held (q : Port) (m : Byte) (s n : Nat) (hd : q.noticeDue = true) (he : q.lineEnd = some n) :
    q.carry m s n = { q with tx := q.tx.drop 1, lineEnd := none } := by
  unfold Port.carry Port.flow
  rw [hd, he]
  cases q.tx <;> simp [lineAt]

/-- When time goes on beyond the instant the line is free, a notice frame that waits begins at it, ahead of replies not begun. -/
theorem Port.carry_notice (q : Port) (m : Byte) (s n : Nat) (hd : q.noticeDue = true) (h : q.lineEnd.getD s < n) :
    q.carry m s n = (({ q with
      tx := if q.lineEnd.isSome then q.tx.drop 1 else q.tx, lineEnd := none } : Port).beginNotice m (q.lineEnd.getD s)).carry m s n := by
  have hf : q.flow (q.lineEnd.getD s) =
      { q with tx := if q.lineEnd.isSome then q.tx.drop 1 else q.tx, lineEnd := none } := by
    unfold Port.flow
    rw [hd]
    cases q.lineEnd <;> cases q.tx <;> simp [lineAt]
  unfold Port.carry
  simp [hd, h, hf, Port.beginNotice]

/-! ## A port after a request has left its place, or while it waits (R185, R186) -/

@[simp] theorem Port.freePlace_buffer (q : Port) : q.freePlace.buffer = q.buffer.drop 1 := rfl
@[simp] theorem Port.freePlace_tx (q : Port) : q.freePlace.tx = q.tx := rfl
@[simp] theorem Port.freePlace_waiting (q : Port) : q.freePlace.waiting = q.waiting := rfl
@[simp] theorem Port.freePlace_latched (q : Port) : q.freePlace.latched = q.latched := rfl
@[simp] theorem Port.await_waiting (q : Port) (f : RequestFrame) (w : Waiting) : (q.await f w).waiting = some w := rfl
@[simp] theorem Port.await_tx (q : Port) (f : RequestFrame) (w : Waiting) : (q.await f w).tx = q.tx := rfl
@[simp] theorem Port.await_latched (q : Port) (f : RequestFrame) (w : Waiting) : (q.await f w).latched = q.latched := rfl

/-- A port that executes a request hunts when the request has arrived in the same event. -/
theorem Port.freePlace_inFrame (q : Port) (h : q.buffer = []) : q.freePlace.inFrame = false := by
  simp [Port.freePlace, h]

/-! ## Commands and the queue -/

/-- With power a command has its effect. -/
theorem act_powered (f : Part → Part) (s : State) (h : s.part.powered = true) :
    act f s = .next { s with part := f s.part } := by
  simp [act, h]

/-- Without power a command has no effect. -/
theorem act_unpowered (f : Part → Part) (s : State) (h : s.part.powered = false) : act f s = .next s := by
  simp [act, h]

/-- Every command's meaning over `act` answers a next state with the queue it found. -/
theorem act_next (f : Part → Part) (s : State) : ∃ q, act f s = .next { s with part := q } := ⟨_, rfl⟩

end Sys2Proof.Machine
end

