-- ==== Sys2Proof/Laws/Frames.lean ====
section
/-! SUPPORT. What each shared operation leaves alone. A mask blanks the fields an operation may write; an operation keeps the
part under its mask, and with it every field the mask does not blank (Part.beyondPorts_time and the like are by `rfl`). -/

namespace Sys2Proof.Machine

/-- The part with its two ports blanked. -/
def Part.beyondPorts (p : Part) : Part := { p with info := resetPort 0 0, ctl := resetPort 0 0 }

/-- The part with the Notice List and the event's marks blanked. -/
def Part.beyondNotices (p : Part) : Part := { p with notices := resetNotices, ev := noEvent }

/-- The part with the Cue Scheduler and the ports blanked. -/
def Part.beyondCues (p : Part) : Part := { p with cues := Part.reset.cues, info := resetPort 0 0, ctl := resetPort 0 0 }

/-- The part with everything blanked that an event of the Departure Table may write: the table, the notices, the image, the cues,
the ports, the event's marks. -/
def Part.beyondTable (p : Part) : Part :=
  { p with table := resetTable, notices := resetNotices, image := Part.reset.image, cues := Part.reset.cues,
           info := resetPort 0 0, ctl := resetPort 0 0, ev := noEvent }

/-- The part with the clock lines, the store and the ports blanked. -/
def Part.beyondClocks (p : Part) : Part :=
  { p with clocks := Part.reset.clocks, store := Part.reset.store, info := resetPort 0 0, ctl := resetPort 0 0 }

/-- The part with the chain and the ports blanked. -/
def Part.beyondChain (p : Part) : Part := { p with chain := Part.reset.chain, info := resetPort 0 0, ctl := resetPort 0 0 }

theorem Part.beyondCues_of_ports {p q : Part} (h : q.beyondPorts = p.beyondPorts) : q.beyondCues = p.beyondCues := by
  have e : q.beyondPorts.beyondCues = p.beyondPorts.beyondCues := congrArg _ h
  exact e

theorem Part.beyondTable_of_ports {p q : Part} (h : q.beyondPorts = p.beyondPorts) : q.beyondTable = p.beyondTable := by
  have e : q.beyondPorts.beyondTable = p.beyondPorts.beyondTable := congrArg _ h
  exact e

theorem Part.beyondClocks_of_ports {p q : Part} (h : q.beyondPorts = p.beyondPorts) : q.beyondClocks = p.beyondClocks := by
  have e : q.beyondPorts.beyondClocks = p.beyondPorts.beyondClocks := congrArg _ h
  exact e

theorem Part.beyondChain_of_ports {p q : Part} (h : q.beyondPorts = p.beyondPorts) : q.beyondChain = p.beyondChain := by
  have e : q.beyondPorts.beyondChain = p.beyondPorts.beyondChain := congrArg _ h
  exact e

theorem Part.beyondTable_of_notices {p q : Part} (h : q.beyondNotices = p.beyondNotices) : q.beyondTable = p.beyondTable := by
  have e : q.beyondNotices.beyondTable = p.beyondNotices.beyondTable := congrArg _ h
  exact e

theorem Part.beyondTable_of_cues {p q : Part} (h : q.beyondCues = p.beyondCues) : q.beyondTable = p.beyondTable := by
  have e : q.beyondCues.beyondTable = p.beyondCues.beyondTable := congrArg _ h
  exact e

/-! ## Ports -/

@[simp] theorem Part.modPort_beyondPorts (p : Part) (l : Link) (f : Port → Port) :
    (p.modPort l f).beyondPorts = p.beyondPorts := by
  cases l <;> rfl

@[simp] theorem Part.latch_beyondPorts (p : Part) (k : EventKind) (x : BitVec 16) :
    (p.latch k x).beyondPorts = p.beyondPorts := rfl

@[simp] theorem Part.latchNat_beyondPorts (p : Part) (k : EventKind) (n : Nat) :
    (p.latchNat k n).beyondPorts = p.beyondPorts := rfl

@[simp] theorem Part.send_beyondPorts (p : Part) (l : Link) (f : OutFrame) : (p.send l f).beyondPorts = p.beyondPorts := by
  simp [Part.send]

@[simp] theorem Part.compose_beyondPorts (p : Part) (l : Link) (k t : Byte) (r : Result) (b : List Byte) :
    (p.compose l k t r b).beyondPorts = p.beyondPorts := by
  simp [Part.compose]

@[simp] theorem Part.answer_beyondPorts (p : Part) (l : Link) (k t : Byte) (r : Result) (b : List Byte) :
    (p.answer l k t r b).beyondPorts = p.beyondPorts := by
  simp [Part.answer]

@[simp] theorem Part.receive_beyondPorts (p : Part) (l : Link) (f : RequestFrame) :
    (p.receive l f).beyondPorts = p.beyondPorts := by
  unfold Part.receive
  split <;> simp

@[simp] theorem Part.freePlace_beyondPorts (p : Part) (l : Link) : (p.freePlace l).beyondPorts = p.beyondPorts := by
  simp [Part.freePlace]

@[simp] theorem Part.frameErrorOn_beyondPorts (p : Part) (l : Link) (b : Bool) :
    (p.frameErrorOn l b).beyondPorts = p.beyondPorts := by
  simp [Part.frameErrorOn]

@[simp] theorem Part.answerWaiting_beyondPorts (p : Part) (l : Link) (k t : Byte) (r : Result) (b : List Byte) :
    (p.answerWaiting l k t r b).beyondPorts = p.beyondPorts := by
  simp [Part.answerWaiting]

/-! ## Notices -/

@[simp] theorem Part.tellWall_beyondNotices (p : Part) : p.tellWall.beyondNotices = p.beyondNotices := rfl

@[simp] theorem Part.begin_beyondNotices (p : Part) : p.begin.beyondNotices = p.beyondNotices := rfl

@[simp] theorem Part.show_beyondNotices (p : Part) (id page : Nat) : (p.show id page).beyondNotices = p.beyondNotices := rfl

@[simp] theorem Part.rotateFrom_beyondNotices (p : Part) (n : Notice) :
    (p.rotateFrom n).beyondNotices = p.beyondNotices := by
  unfold Part.rotateFrom
  split <;> rfl

@[simp] theorem Part.dropNotice_beyondNotices (p : Part) (n : Notice) :
    (p.dropNotice n).beyondNotices = p.beyondNotices := by
  simp only [Part.dropNotice]
  split
  · split
    · simp only [Part.tellWall_beyondNotices, Part.rotateFrom_beyondNotices]
      rfl
    · rfl
  · rfl

@[simp] theorem Part.createNotice_beyondNotices (p : Part) (k : NoticeKind) (pr : Nat) (sv : Option Nat) (t : Text)
    (e : Option Nat) (o : NoticeOrigin) : (p.createNotice k pr sv t e o).1.beyondNotices = p.beyondNotices := by
  simp only [Part.createNotice]
  split <;> rfl

theorem Part.noticeRoom_beyondNotices (p q : Part) (pr : Nat) (h : p.noticeRoom pr = some q) :
    q.beyondNotices = p.beyondNotices := by
  unfold Part.noticeRoom at h
  split at h
  · cases h
    rfl
  · obtain ⟨n, _, rfl⟩ := Option.map_eq_some_iff.mp h
    simp

@[simp] theorem Part.askNotice_beyondNotices (p : Part) (k : NoticeKind) (sv : Option Nat) :
    (p.askNotice k sv).beyondNotices = p.beyondNotices := by
  unfold Part.askNotice
  split
  · simp
  · split
    · next h => simp [Part.noticeRoom_beyondNotices _ _ _ h]
    · rfl

@[simp] theorem Part.withdrawNotice_beyondNotices (p : Part) (k : NoticeKind) (sv : Option Nat) :
    (p.withdrawNotice k sv).beyondNotices = p.beyondNotices := by
  unfold Part.withdrawNotice
  split <;> simp

@[simp] theorem Part.withdrawAll_beyondNotices (p : Part) (id : Nat) :
    (p.withdrawAll id).beyondNotices = p.beyondNotices := by
  simp [Part.withdrawAll]

@[simp] theorem Part.dwellEnd_beyondNotices (p : Part) : p.dwellEnd.beyondNotices = p.beyondNotices := by
  simp only [Part.dwellEnd]
  (repeat' split) <;> simp

/-! ## Cues -/

@[simp] theorem Part.modCues_beyondCues (p : Part) (f : CueSched → CueSched) : (p.modCues f).beyondCues = p.beyondCues := rfl

@[simp] theorem Part.latchNat_beyondCues (p : Part) (k : EventKind) (n : Nat) :
    (p.latchNat k n).beyondCues = p.beyondCues := rfl

@[simp] theorem Part.dropCue_beyondCues (p : Part) (id : Nat) : (p.dropCue id).beyondCues = p.beyondCues := rfl

@[simp] theorem Part.failCue_beyondCues (p : Part) (id : Nat) : (p.failCue id).beyondCues = p.beyondCues := rfl

@[simp] theorem Part.stopCue_beyondCues (p : Part) (id : Nat) (w : StopReason) : (p.stopCue id w).beyondCues = p.beyondCues := rfl

@[simp] theorem Part.endQuietly_beyondCues (p : Part) (id : Nat) : (p.endQuietly id).beyondCues = p.beyondCues := rfl

@[simp] theorem Part.removeQueued_beyondCues (p : Part) (sel : Cue → Bool) :
    (p.removeQueued sel).beyondCues = p.beyondCues := rfl

@[simp] theorem Part.removeAuto_beyondCues (p : Part) (id : Nat) (ts : List Template) :
    (p.removeAuto id ts).beyondCues = p.beyondCues := rfl

@[simp] theorem Part.dropReference_beyondCues (p : Part) (id z : Nat) : (p.dropReference id z).beyondCues = p.beyondCues := rfl

@[simp] theorem Part.insertReference_beyondCues (p : Part) (id : Nat) (c : CueClass) (z : Nat) :
    (p.insertReference id c z).beyondCues = p.beyondCues := by
  simp only [Part.insertReference]
  (repeat' split) <;> simp

@[simp] theorem Part.preemptZone_beyondCues (p : Part) (z : Nat) : (p.preemptZone z).beyondCues = p.beyondCues := by
  unfold Part.preemptZone
  (repeat' split) <;> simp

@[simp] theorem Part.insertCue_beyondCues (p : Part) (id : Nat) (c : CueClass) (zs : List Nat) :
    (p.insertCue id c zs).beyondCues = p.beyondCues := by
  simp only [Part.insertCue]
  split
  · rw [foldl_keeps Part.beyondCues _ (fun a b => Part.preemptZone_beyondCues a b),
      foldl_keeps Part.beyondCues _ (fun a b => Part.insertReference_beyondCues a id c b)]
  · rw [foldl_keeps Part.beyondCues _ (fun a b => Part.insertReference_beyondCues a id c b)]

@[simp] theorem Part.createCue_beyondCues (p : Part) (n : NewCue) (zs : List Nat) :
    (p.createCue n zs).1.beyondCues = p.beyondCues := rfl

theorem Part.poolRoom_beyondCues (p q : Part) (o : CueOrigin) (c : CueClass) (h : p.poolRoom o c = some q) :
    q.beyondCues = p.beyondCues := by
  unfold Part.poolRoom at h
  split at h
  · cases h
    rfl
  · split at h
    · obtain ⟨v, _, rfl⟩ := Option.map_eq_some_iff.mp h
      simp
    · cases h

@[simp] theorem Part.place_beyondCues (p : Part) (n : NewCue) : (p.place n).1.beyondCues = p.beyondCues := by
  simp only [Part.place]
  split
  · rfl
  · split
    · rfl
    · next h => simp [Part.poolRoom_beyondCues _ _ _ _ h]

@[simp] theorem Part.placeOrDrop_beyondCues (p : Part) (n : NewCue) : (p.placeOrDrop n).beyondCues = p.beyondCues := by
  have h := Part.place_beyondCues p n
  unfold Part.placeOrDrop
  split <;> next heq => rw [heq] at h; simpa using h

@[simp] theorem Part.askCue_beyondCues (p : Part) (t : Template) (id pl : Nat) (zs : List Nat) :
    (p.askCue t id pl zs).beyondCues = p.beyondCues := by
  simp only [Part.askCue]
  (repeat' split) <;> simp

@[simp] theorem Part.askRecordCue_beyondCues (p : Part) (t : Template) (id : Nat) :
    (p.askRecordCue t id).beyondCues = p.beyondCues := by
  unfold Part.askRecordCue
  split <;> simp

@[simp] theorem Part.purgeAuto_beyondCues (p : Part) : p.purgeAuto.beyondCues = p.beyondCues := by
  simp only [Part.purgeAuto]
  rw [foldl_keeps Part.beyondCues _ (fun a b => Part.dropCue_beyondCues a b)]

@[simp] theorem Part.loseAnnouncer_beyondCues (p : Part) : p.loseAnnouncer.beyondCues = p.beyondCues := by
  simp only [Part.loseAnnouncer, Part.latchNat_beyondCues, Part.modCues_beyondCues]
  rw [foldl_keeps Part.beyondCues _ (fun a b => Part.failCue_beyondCues a b)]

@[simp] theorem Part.bumpSilence_beyondCues (p : Part) : p.bumpSilence.beyondCues = p.beyondCues := by
  simp only [Part.bumpSilence]
  split <;> simp

@[simp] theorem Part.heardFrame_beyondCues (p : Part) : p.heardFrame.beyondCues = p.beyondCues := rfl

@[simp] theorem Part.replay_beyondCues (p : Part) (c : Cue) (zs : List Nat) : (p.replay c zs).beyondCues = p.beyondCues := by
  simp only [Part.replay]
  split <;> simp

@[simp] theorem Part.endPreempted_beyondCues (p : Part) (c : Cue) : (p.endPreempted c).beyondCues = p.beyondCues := by
  unfold Part.endPreempted
  split <;> simp

@[simp] theorem Part.setRepeat_beyondCues (p : Part) (i : Nat) (t : Option Nat) :
    (p.setRepeat i t).beyondCues = p.beyondCues := rfl

@[simp] theorem Part.makeInputCue_beyondCues (p : Part) (i : Nat) : (p.makeInputCue i).beyondCues = p.beyondCues := by
  simp [Part.makeInputCue]

@[simp] theorem Part.startRepeat_beyondCues (p : Part) (i : Nat) : (p.startRepeat i).beyondCues = p.beyondCues := by
  simp [Part.startRepeat]

@[simp] theorem Part.inputStart_beyondCues (p : Part) (i : Nat) : (p.inputStart i).beyondCues = p.beyondCues := by
  unfold Part.inputStart
  split <;> simp

@[simp] theorem Part.cancelFlight_beyondCues (p : Part) (c : Cue) : (p.cancelFlight c).beyondCues = p.beyondCues := by
  unfold Part.cancelFlight
  split <;> simp

@[simp] theorem Part.removeInputQueued_beyondCues (p : Part) (i : Nat) :
    (p.removeInputQueued i).beyondCues = p.beyondCues := rfl

@[simp] theorem Part.inputRepeat_beyondCues (p : Part) (i : Nat) : (p.inputRepeat i).beyondCues = p.beyondCues := by
  simp [Part.inputRepeat]

@[simp] theorem Part.inputEnd_beyondCues (p : Part) (i : Nat) : (p.inputEnd i).beyondCues = p.beyondCues := by
  simp only [Part.inputEnd]
  rw [foldl_keeps Part.beyondCues _ (fun a b => Part.cancelFlight_beyondCues a b)]
  simp

/-! ## Composition and the end of an event -/

@[simp] theorem Part.recompose_beyondTable (p : Part) : p.recompose.beyondTable = p.beyondTable := rfl

@[simp] theorem Part.nameGenerations_beyondCues (p : Part) : p.nameGenerations.beyondCues = p.beyondCues := rfl

@[simp] theorem Part.mapRecords_beyondTable (p : Part) (f : List Record → List Record) :
    (p.mapRecords f).beyondTable = p.beyondTable := rfl

@[simp] theorem Part.modRecord_beyondTable (p : Part) (id : Nat) (f : Record → Record) :
    (p.modRecord id f).beyondTable = p.beyondTable := rfl

@[simp] theorem Part.modCues_beyondTable (p : Part) (f : CueSched → CueSched) :
    (p.modCues f).beyondTable = p.beyondTable := rfl

@[simp] theorem Part.latch_beyondTable (p : Part) (k : EventKind) (x : BitVec 16) :
    (p.latch k x).beyondTable = p.beyondTable := rfl

@[simp] theorem Part.latchNat_beyondTable (p : Part) (k : EventKind) (n : Nat) :
    (p.latchNat k n).beyondTable = p.beyondTable := rfl

@[simp] theorem Part.tellWall_beyondTable (p : Part) : p.tellWall.beyondTable = p.beyondTable := rfl

@[simp] theorem Part.begin_beyondTable (p : Part) : p.begin.beyondTable = p.beyondTable := rfl

@[simp] theorem Part.tellPlay_beyondTable (p : Part) (c : Cue) : (p.tellPlay c).beyondTable = p.beyondTable := by
  unfold Part.tellPlay
  split <;> rfl

@[simp] theorem Part.releaseCue_beyondTable (p : Part) (c : Cue) : (p.releaseCue c).beyondTable = p.beyondTable := by
  simp only [Part.releaseCue, Part.tellPlay_beyondTable]
  split <;> rfl

@[simp] theorem Part.examine_beyondTable (p : Part) : p.examine.beyondTable = p.beyondTable := by
  simp only [Part.examine]
  rw [foldl_keeps Part.beyondTable _ (fun a b => Part.releaseCue_beyondTable a b)]

/-- The end of an event writes nothing but the image, the cues, the announced flags, the ports and the event's marks. -/
@[simp] theorem Part.finish_beyondTable (p : Part) : p.finish.beyondTable = p.beyondTable := by
  have h : ∀ q : Part, ({ q with ev := noEvent } : Part).beyondTable = q.beyondTable := fun _ => rfl
  simp only [Part.finish, h, Part.examine_beyondTable]
  split <;> rfl

/-! ## Records -/

@[simp] theorem Part.askNotice_beyondTable (p : Part) (k : NoticeKind) (sv : Option Nat) :
    (p.askNotice k sv).beyondTable = p.beyondTable := Part.beyondTable_of_notices (by simp)

@[simp] theorem Part.withdrawNotice_beyondTable (p : Part) (k : NoticeKind) (sv : Option Nat) :
    (p.withdrawNotice k sv).beyondTable = p.beyondTable := Part.beyondTable_of_notices (by simp)

@[simp] theorem Part.withdrawAll_beyondTable (p : Part) (id : Nat) : (p.withdrawAll id).beyondTable = p.beyondTable :=
  Part.beyondTable_of_notices (by simp)

@[simp] theorem Part.dropNotice_beyondTable (p : Part) (n : Notice) : (p.dropNotice n).beyondTable = p.beyondTable :=
  Part.beyondTable_of_notices (by simp)

@[simp] theorem Part.askCue_beyondTable (p : Part) (t : Template) (id pl : Nat) (zs : List Nat) :
    (p.askCue t id pl zs).beyondTable = p.beyondTable := Part.beyondTable_of_cues (by simp)

@[simp] theorem Part.askRecordCue_beyondTable (p : Part) (t : Template) (id : Nat) :
    (p.askRecordCue t id).beyondTable = p.beyondTable := Part.beyondTable_of_cues (by simp)

@[simp] theorem Part.removeAuto_beyondTable (p : Part) (id : Nat) (ts : List Template) :
    (p.removeAuto id ts).beyondTable = p.beyondTable := rfl

@[simp] theorem Part.removeQueued_beyondTable (p : Part) (sel : Cue → Bool) :
    (p.removeQueued sel).beyondTable = p.beyondTable := rfl

@[simp] theorem Part.purgeAuto_beyondTable (p : Part) : p.purgeAuto.beyondTable = p.beyondTable :=
  Part.beyondTable_of_cues (by simp)

@[simp] theorem Part.triggerWithdrawals_beyondTable (p : Part) (b : Running) (r : Record) :
    (p.triggerWithdrawals b r).beyondTable = p.beyondTable := by
  simp only [Part.triggerWithdrawals]
  (repeat' split) <;> simp

@[simp] theorem Part.triggerRequests_beyondTable (p : Part) (b : Running) (r : Record) :
    (p.triggerRequests b r).beyondTable = p.beyondTable := by
  simp only [Part.triggerRequests]
  (repeat' split) <;> simp

@[simp] theorem Part.triggers_beyondTable (p : Part) (b : Running) (id : Nat) :
    (p.triggers b id).beyondTable = p.beyondTable := by
  simp only [Part.triggers]
  (repeat' split) <;> simp

@[simp] theorem Part.startMark_beyondTable (p : Part) (id old : Nat) : (p.startMark id old).beyondTable = p.beyondTable := rfl

@[simp] theorem Part.endMark_beyondTable (p : Part) (id : Nat) : (p.endMark id).beyondTable = p.beyondTable := rfl

@[simp] theorem Part.changeNotice_beyondTable (p : Part) (r : Record) : (p.changeNotice r).beyondTable = p.beyondTable := by
  unfold Part.changeNotice
  split <;> simp

@[simp] theorem Part.dropEarlierBoarding_beyondTable (p : Part) (id : Nat) :
    (p.dropEarlierBoarding id).beyondTable = p.beyondTable := rfl

@[simp] theorem Part.trackPlatform_beyondTable (p : Part) (b : Running) (r : Record) :
    (p.trackPlatform b r).beyondTable = p.beyondTable := by
  simp only [Part.trackPlatform, Part.platformReversed, Part.platformAllocated, Part.platformWithdrawn, Part.platformChanged]
  (repeat' split) <;> simp

@[simp] theorem Part.trackStatus_beyondTable (p : Part) (b : Running) (r : Record) :
    (p.trackStatus b r).beyondTable = p.beyondTable := by
  simp only [Part.trackStatus]
  (repeat' split) <;> simp

@[simp] theorem Part.track_beyondTable (p : Part) (b : Running) (id : Nat) : (p.track b id).beyondTable = p.beyondTable := by
  unfold Part.track
  split <;> simp

/-- A record handed on writes nothing beyond the table, the notices, the cues, the ports and the event's marks (R23). -/
@[simp] theorem Part.handOn_beyondTable (p : Part) (b : Running) (id : Nat) : (p.handOn b id).beyondTable = p.beyondTable := by
  have h : (p.handOn b id).beyondTable = (((p.modRecord id p.computed).triggers b id).track b id).beyondTable := rfl
  simp [h]

@[simp] theorem Part.deleteRecord_beyondTable (p : Part) (id : Nat) : (p.deleteRecord id).beyondTable = p.beyondTable := by
  simp [Part.deleteRecord]

@[simp] theorem Part.retire_beyondTable (p : Part) (id : Nat) : (p.retire id).beyondTable = p.beyondTable := by
  simp [Part.retire]

@[simp] theorem Part.retireCheck_beyondTable (p : Part) (sel : Record → Bool) :
    (p.retireCheck sel).beyondTable = p.beyondTable := by
  simp only [Part.retireCheck]
  rw [foldl_keeps Part.beyondTable _ (fun a b => Part.retire_beyondTable a b)]

/-- The end of an event of the table writes nothing beyond it. -/
@[simp] theorem Part.settle_beyondTable (p : Part) : p.settle.beyondTable = p.beyondTable := by simp [Part.settle]

@[simp] theorem Part.tableRollover_beyondTable (p : Part) : p.tableRollover.beyondTable = p.beyondTable := by
  simp only [Part.tableRollover, Part.tellWall_beyondTable, Part.mapRecords_beyondTable]
  rw [foldl_keeps Part.beyondTable _ (fun a b => Part.retire_beyondTable a b)]

@[simp] theorem Part.recomputeAll_beyondTable (p : Part) : p.recomputeAll.beyondTable = p.beyondTable := by
  simp only [Part.recomputeAll, Part.retireCheck_beyondTable, Part.tellWall_beyondTable, Part.mapRecords_beyondTable]
  rw [foldl_keeps Part.beyondTable _ (fun a b => by simp)]

@[simp] theorem Part.change_beyondTable (p : Part) (o n : Record) (w : ChangeOrigin) :
    (p.change o n w).beyondTable = p.beyondTable := by
  simp only [Part.change]
  split <;> simp

/-! ## Clock lines -/

@[simp] theorem Part.modClocks_beyondClocks (p : Part) (f : Clocks → Clocks) :
    (p.modClocks f).beyondClocks = p.beyondClocks := rfl

@[simp] theorem Part.latchNat_beyondClocks (p : Part) (k : EventKind) (n : Nat) :
    (p.latchNat k n).beyondClocks = p.beyondClocks := rfl

@[simp] theorem Part.askWrite_beyondClocks (p : Part) (w : StoreWrite) : (p.askWrite w).beyondClocks = p.beyondClocks := rfl

@[simp] theorem Part.spoilRecord_beyondClocks (p : Part) : p.spoilRecord.beyondClocks = p.beyondClocks := by
  unfold Part.spoilRecord
  split <;> rfl

@[simp] theorem Part.startImpulse_beyondClocks (p : Part) (i : Nat) (r : Bool) :
    (p.startImpulse i r).beyondClocks = p.beyondClocks := by
  simp [Part.startImpulse]

/-- An evaluation writes nothing but the clock lines, the writes asked for and the ports. -/
@[simp] theorem Part.evaluate_beyondClocks (p : Part) (i : Nat) (b r : Bool) :
    (p.evaluate i b r).beyondClocks = p.beyondClocks := by
  simp only [Part.evaluate]
  (repeat' split) <;> simp

@[simp] theorem Part.evaluateAll_beyondClocks (p : Part) (b : Bool) : (p.evaluateAll b).beyondClocks = p.beyondClocks := by
  unfold Part.evaluateAll
  refine foldl_keeps Part.beyondClocks _ (fun a i => ?_) _ _
  unfold Part.evaluateFree
  split <;> simp

/-! ## The chain -/

@[simp] theorem Part.modChain_beyondChain (p : Part) (f : Chain → Chain) : (p.modChain f).beyondChain = p.beyondChain := rfl

@[simp] theorem Part.latchNat_beyondChain (p : Part) (k : EventKind) (n : Nat) :
    (p.latchNat k n).beyondChain = p.beyondChain := rfl

@[simp] theorem Part.setDuty_beyondChain (p : Part) (d : Duty) : (p.setDuty d).beyondChain = p.beyondChain := by
  simp only [Part.setDuty]
  split <;> simp

@[simp] theorem Part.chooseSpare_beyondChain (p : Part) : p.chooseSpare.beyondChain = p.beyondChain := by
  simp only [Part.chooseSpare]
  split <;> simp

@[simp] theorem Part.enterFault_beyondChain (p : Part) (a : Nat) (w : FaultReason) :
    (p.enterFault a w).beyondChain = p.beyondChain := by
  simp only [Part.enterFault]
  split <;> simp

@[simp] theorem Part.judge_beyondChain (p : Part) (a : Nat) (t : Int) (d : Bool) :
    (p.judge a t d).beyondChain = p.beyondChain := by
  simp only [Part.judge, Part.enterUp]
  (repeat' split) <;> simp

@[simp] theorem Part.recover_beyondChain (p : Part) (a : Nat) (t : Int) : (p.recover a t).beyondChain = p.beyondChain := by
  simp only [Part.recover, Part.repin, Part.leaveRecovered]
  (repeat' split) <;> simp

/-- A good reply writes nothing but the chain and the ports. -/
@[simp] theorem Part.goodReply_beyondChain (p : Part) (q : Poll) (t : Int) (d : Bool) :
    (p.goodReply q t d).beyondChain = p.beyondChain := by
  simp only [Part.goodReply, Part.faultedReply, Part.setRecovery]
  (repeat' split) <;> simp

/-- A bad reply writes nothing but the chain and the ports. -/
@[simp] theorem Part.badReply_beyondChain (p : Part) (a : Nat) : (p.badReply a).beyondChain = p.beyondChain := by
  simp only [Part.badReply, Part.setRecovery]
  (repeat' split) <;> simp

/-- A received bit writes nothing but the chain and the ports. -/
@[simp] theorem Part.comparedBit_beyondChain (p : Part) (b : Bool) : (p.comparedBit b).beyondChain = p.beyondChain := by
  simp only [Part.comparedBit, Part.judgeWindow]
  (repeat' split) <;> simp

/-- The detector writes nothing but the chain and the ports. -/
@[simp] theorem Part.detectorWindow_beyondChain (p : Part) (bits : List Bool) :
    (p.detectorWindow bits).beyondChain = p.beyondChain := by
  unfold Part.detectorWindow
  split
  · exact foldl_keeps Part.beyondChain _ (fun a b => Part.comparedBit_beyondChain a b) _ _
  · rfl

end Sys2Proof.Machine
end

