-- ==== Sys2Proof/Laws/Fields.lean ====
section
/-! SUPPORT. The fields each shared operation leaves alone, one lemma per field, read off the frame lemmas. -/

namespace Sys2Proof.Machine

/-! ## What a mask leaves -/

theorem Part.powered_of_table {p q : Part} (h : q.beyondTable = p.beyondTable) : q.powered = p.powered := by
  have e : q.beyondTable.powered = p.beyondTable.powered := congrArg _ h
  exact e

theorem Part.elapsed_of_table {p q : Part} (h : q.beyondTable = p.beyondTable) : q.elapsed = p.elapsed := by
  have e : q.beyondTable.elapsed = p.beyondTable.elapsed := congrArg _ h
  exact e

theorem Part.free_of_table {p q : Part} (h : q.beyondTable = p.beyondTable) : q.free = p.free := by
  have e : q.beyondTable.free = p.beyondTable.free := congrArg _ h
  exact e

theorem Part.time_of_table {p q : Part} (h : q.beyondTable = p.beyondTable) : q.time = p.time := by
  have e : q.beyondTable.time = p.beyondTable.time := congrArg _ h
  exact e

theorem Part.own_of_table {p q : Part} (h : q.beyondTable = p.beyondTable) : q.own = p.own := by
  have e : q.beyondTable.own = p.beyondTable.own := congrArg _ h
  exact e

theorem Part.chain_of_table {p q : Part} (h : q.beyondTable = p.beyondTable) : q.chain = p.chain := by
  have e : q.beyondTable.chain = p.beyondTable.chain := congrArg _ h
  exact e

theorem Part.clocks_of_table {p q : Part} (h : q.beyondTable = p.beyondTable) : q.clocks = p.clocks := by
  have e : q.beyondTable.clocks = p.beyondTable.clocks := congrArg _ h
  exact e

theorem Part.inputs_of_table {p q : Part} (h : q.beyondTable = p.beyondTable) : q.inputs = p.inputs := by
  have e : q.beyondTable.inputs = p.beyondTable.inputs := congrArg _ h
  exact e

theorem Part.store_of_table {p q : Part} (h : q.beyondTable = p.beyondTable) : q.store = p.store := by
  have e : q.beyondTable.store = p.beyondTable.store := congrArg _ h
  exact e

theorem Part.feed_of_table {p q : Part} (h : q.beyondTable = p.beyondTable) : q.feed = p.feed := by
  have e : q.beyondTable.feed = p.beyondTable.feed := congrArg _ h
  exact e

theorem Part.resetDue_of_table {p q : Part} (h : q.beyondTable = p.beyondTable) : q.resetDue = p.resetDue := by
  have e : q.beyondTable.resetDue = p.beyondTable.resetDue := congrArg _ h
  exact e

theorem Part.powered_of_cues {p q : Part} (h : q.beyondCues = p.beyondCues) : q.powered = p.powered := by
  have e : q.beyondCues.powered = p.beyondCues.powered := congrArg _ h
  exact e

theorem Part.elapsed_of_cues {p q : Part} (h : q.beyondCues = p.beyondCues) : q.elapsed = p.elapsed := by
  have e : q.beyondCues.elapsed = p.beyondCues.elapsed := congrArg _ h
  exact e

theorem Part.free_of_cues {p q : Part} (h : q.beyondCues = p.beyondCues) : q.free = p.free := by
  have e : q.beyondCues.free = p.beyondCues.free := congrArg _ h
  exact e

theorem Part.time_of_cues {p q : Part} (h : q.beyondCues = p.beyondCues) : q.time = p.time := by
  have e : q.beyondCues.time = p.beyondCues.time := congrArg _ h
  exact e

theorem Part.table_of_cues {p q : Part} (h : q.beyondCues = p.beyondCues) : q.table = p.table := by
  have e : q.beyondCues.table = p.beyondCues.table := congrArg _ h
  exact e

theorem Part.own_of_cues {p q : Part} (h : q.beyondCues = p.beyondCues) : q.own = p.own := by
  have e : q.beyondCues.own = p.beyondCues.own := congrArg _ h
  exact e

theorem Part.notices_of_cues {p q : Part} (h : q.beyondCues = p.beyondCues) : q.notices = p.notices := by
  have e : q.beyondCues.notices = p.beyondCues.notices := congrArg _ h
  exact e

theorem Part.image_of_cues {p q : Part} (h : q.beyondCues = p.beyondCues) : q.image = p.image := by
  have e : q.beyondCues.image = p.beyondCues.image := congrArg _ h
  exact e

theorem Part.chain_of_cues {p q : Part} (h : q.beyondCues = p.beyondCues) : q.chain = p.chain := by
  have e : q.beyondCues.chain = p.beyondCues.chain := congrArg _ h
  exact e

theorem Part.clocks_of_cues {p q : Part} (h : q.beyondCues = p.beyondCues) : q.clocks = p.clocks := by
  have e : q.beyondCues.clocks = p.beyondCues.clocks := congrArg _ h
  exact e

theorem Part.inputs_of_cues {p q : Part} (h : q.beyondCues = p.beyondCues) : q.inputs = p.inputs := by
  have e : q.beyondCues.inputs = p.beyondCues.inputs := congrArg _ h
  exact e

theorem Part.store_of_cues {p q : Part} (h : q.beyondCues = p.beyondCues) : q.store = p.store := by
  have e : q.beyondCues.store = p.beyondCues.store := congrArg _ h
  exact e

theorem Part.feed_of_cues {p q : Part} (h : q.beyondCues = p.beyondCues) : q.feed = p.feed := by
  have e : q.beyondCues.feed = p.beyondCues.feed := congrArg _ h
  exact e

theorem Part.resetDue_of_cues {p q : Part} (h : q.beyondCues = p.beyondCues) : q.resetDue = p.resetDue := by
  have e : q.beyondCues.resetDue = p.beyondCues.resetDue := congrArg _ h
  exact e

theorem Part.ev_of_cues {p q : Part} (h : q.beyondCues = p.beyondCues) : q.ev = p.ev := by
  have e : q.beyondCues.ev = p.beyondCues.ev := congrArg _ h
  exact e

theorem Part.powered_of_notices {p q : Part} (h : q.beyondNotices = p.beyondNotices) : q.powered = p.powered := by
  have e : q.beyondNotices.powered = p.beyondNotices.powered := congrArg _ h
  exact e

theorem Part.elapsed_of_notices {p q : Part} (h : q.beyondNotices = p.beyondNotices) : q.elapsed = p.elapsed := by
  have e : q.beyondNotices.elapsed = p.beyondNotices.elapsed := congrArg _ h
  exact e

theorem Part.free_of_notices {p q : Part} (h : q.beyondNotices = p.beyondNotices) : q.free = p.free := by
  have e : q.beyondNotices.free = p.beyondNotices.free := congrArg _ h
  exact e

theorem Part.time_of_notices {p q : Part} (h : q.beyondNotices = p.beyondNotices) : q.time = p.time := by
  have e : q.beyondNotices.time = p.beyondNotices.time := congrArg _ h
  exact e

theorem Part.table_of_notices {p q : Part} (h : q.beyondNotices = p.beyondNotices) : q.table = p.table := by
  have e : q.beyondNotices.table = p.beyondNotices.table := congrArg _ h
  exact e

theorem Part.own_of_notices {p q : Part} (h : q.beyondNotices = p.beyondNotices) : q.own = p.own := by
  have e : q.beyondNotices.own = p.beyondNotices.own := congrArg _ h
  exact e

theorem Part.image_of_notices {p q : Part} (h : q.beyondNotices = p.beyondNotices) : q.image = p.image := by
  have e : q.beyondNotices.image = p.beyondNotices.image := congrArg _ h
  exact e

theorem Part.chain_of_notices {p q : Part} (h : q.beyondNotices = p.beyondNotices) : q.chain = p.chain := by
  have e : q.beyondNotices.chain = p.beyondNotices.chain := congrArg _ h
  exact e

theorem Part.cues_of_notices {p q : Part} (h : q.beyondNotices = p.beyondNotices) : q.cues = p.cues := by
  have e : q.beyondNotices.cues = p.beyondNotices.cues := congrArg _ h
  exact e

theorem Part.clocks_of_notices {p q : Part} (h : q.beyondNotices = p.beyondNotices) : q.clocks = p.clocks := by
  have e : q.beyondNotices.clocks = p.beyondNotices.clocks := congrArg _ h
  exact e

theorem Part.inputs_of_notices {p q : Part} (h : q.beyondNotices = p.beyondNotices) : q.inputs = p.inputs := by
  have e : q.beyondNotices.inputs = p.beyondNotices.inputs := congrArg _ h
  exact e

theorem Part.store_of_notices {p q : Part} (h : q.beyondNotices = p.beyondNotices) : q.store = p.store := by
  have e : q.beyondNotices.store = p.beyondNotices.store := congrArg _ h
  exact e

theorem Part.info_of_notices {p q : Part} (h : q.beyondNotices = p.beyondNotices) : q.info = p.info := by
  have e : q.beyondNotices.info = p.beyondNotices.info := congrArg _ h
  exact e

theorem Part.ctl_of_notices {p q : Part} (h : q.beyondNotices = p.beyondNotices) : q.ctl = p.ctl := by
  have e : q.beyondNotices.ctl = p.beyondNotices.ctl := congrArg _ h
  exact e

theorem Part.feed_of_notices {p q : Part} (h : q.beyondNotices = p.beyondNotices) : q.feed = p.feed := by
  have e : q.beyondNotices.feed = p.beyondNotices.feed := congrArg _ h
  exact e

theorem Part.resetDue_of_notices {p q : Part} (h : q.beyondNotices = p.beyondNotices) : q.resetDue = p.resetDue := by
  have e : q.beyondNotices.resetDue = p.beyondNotices.resetDue := congrArg _ h
  exact e

theorem Part.powered_of_ports {p q : Part} (h : q.beyondPorts = p.beyondPorts) : q.powered = p.powered := by
  have e : q.beyondPorts.powered = p.beyondPorts.powered := congrArg _ h
  exact e

theorem Part.elapsed_of_ports {p q : Part} (h : q.beyondPorts = p.beyondPorts) : q.elapsed = p.elapsed := by
  have e : q.beyondPorts.elapsed = p.beyondPorts.elapsed := congrArg _ h
  exact e

theorem Part.free_of_ports {p q : Part} (h : q.beyondPorts = p.beyondPorts) : q.free = p.free := by
  have e : q.beyondPorts.free = p.beyondPorts.free := congrArg _ h
  exact e

theorem Part.time_of_ports {p q : Part} (h : q.beyondPorts = p.beyondPorts) : q.time = p.time := by
  have e : q.beyondPorts.time = p.beyondPorts.time := congrArg _ h
  exact e

theorem Part.table_of_ports {p q : Part} (h : q.beyondPorts = p.beyondPorts) : q.table = p.table := by
  have e : q.beyondPorts.table = p.beyondPorts.table := congrArg _ h
  exact e

theorem Part.own_of_ports {p q : Part} (h : q.beyondPorts = p.beyondPorts) : q.own = p.own := by
  have e : q.beyondPorts.own = p.beyondPorts.own := congrArg _ h
  exact e

theorem Part.notices_of_ports {p q : Part} (h : q.beyondPorts = p.beyondPorts) : q.notices = p.notices := by
  have e : q.beyondPorts.notices = p.beyondPorts.notices := congrArg _ h
  exact e

theorem Part.image_of_ports {p q : Part} (h : q.beyondPorts = p.beyondPorts) : q.image = p.image := by
  have e : q.beyondPorts.image = p.beyondPorts.image := congrArg _ h
  exact e

theorem Part.chain_of_ports {p q : Part} (h : q.beyondPorts = p.beyondPorts) : q.chain = p.chain := by
  have e : q.beyondPorts.chain = p.beyondPorts.chain := congrArg _ h
  exact e

theorem Part.cues_of_ports {p q : Part} (h : q.beyondPorts = p.beyondPorts) : q.cues = p.cues := by
  have e : q.beyondPorts.cues = p.beyondPorts.cues := congrArg _ h
  exact e

theorem Part.clocks_of_ports {p q : Part} (h : q.beyondPorts = p.beyondPorts) : q.clocks = p.clocks := by
  have e : q.beyondPorts.clocks = p.beyondPorts.clocks := congrArg _ h
  exact e

theorem Part.inputs_of_ports {p q : Part} (h : q.beyondPorts = p.beyondPorts) : q.inputs = p.inputs := by
  have e : q.beyondPorts.inputs = p.beyondPorts.inputs := congrArg _ h
  exact e

theorem Part.store_of_ports {p q : Part} (h : q.beyondPorts = p.beyondPorts) : q.store = p.store := by
  have e : q.beyondPorts.store = p.beyondPorts.store := congrArg _ h
  exact e

theorem Part.feed_of_ports {p q : Part} (h : q.beyondPorts = p.beyondPorts) : q.feed = p.feed := by
  have e : q.beyondPorts.feed = p.beyondPorts.feed := congrArg _ h
  exact e

theorem Part.resetDue_of_ports {p q : Part} (h : q.beyondPorts = p.beyondPorts) : q.resetDue = p.resetDue := by
  have e : q.beyondPorts.resetDue = p.beyondPorts.resetDue := congrArg _ h
  exact e

theorem Part.ev_of_ports {p q : Part} (h : q.beyondPorts = p.beyondPorts) : q.ev = p.ev := by
  have e : q.beyondPorts.ev = p.beyondPorts.ev := congrArg _ h
  exact e

theorem Part.powered_of_clocks {p q : Part} (h : q.beyondClocks = p.beyondClocks) : q.powered = p.powered := by
  have e : q.beyondClocks.powered = p.beyondClocks.powered := congrArg _ h
  exact e

theorem Part.elapsed_of_clocks {p q : Part} (h : q.beyondClocks = p.beyondClocks) : q.elapsed = p.elapsed := by
  have e : q.beyondClocks.elapsed = p.beyondClocks.elapsed := congrArg _ h
  exact e

theorem Part.free_of_clocks {p q : Part} (h : q.beyondClocks = p.beyondClocks) : q.free = p.free := by
  have e : q.beyondClocks.free = p.beyondClocks.free := congrArg _ h
  exact e

theorem Part.time_of_clocks {p q : Part} (h : q.beyondClocks = p.beyondClocks) : q.time = p.time := by
  have e : q.beyondClocks.time = p.beyondClocks.time := congrArg _ h
  exact e

theorem Part.table_of_clocks {p q : Part} (h : q.beyondClocks = p.beyondClocks) : q.table = p.table := by
  have e : q.beyondClocks.table = p.beyondClocks.table := congrArg _ h
  exact e

theorem Part.own_of_clocks {p q : Part} (h : q.beyondClocks = p.beyondClocks) : q.own = p.own := by
  have e : q.beyondClocks.own = p.beyondClocks.own := congrArg _ h
  exact e

theorem Part.notices_of_clocks {p q : Part} (h : q.beyondClocks = p.beyondClocks) : q.notices = p.notices := by
  have e : q.beyondClocks.notices = p.beyondClocks.notices := congrArg _ h
  exact e

theorem Part.image_of_clocks {p q : Part} (h : q.beyondClocks = p.beyondClocks) : q.image = p.image := by
  have e : q.beyondClocks.image = p.beyondClocks.image := congrArg _ h
  exact e

theorem Part.chain_of_clocks {p q : Part} (h : q.beyondClocks = p.beyondClocks) : q.chain = p.chain := by
  have e : q.beyondClocks.chain = p.beyondClocks.chain := congrArg _ h
  exact e

theorem Part.cues_of_clocks {p q : Part} (h : q.beyondClocks = p.beyondClocks) : q.cues = p.cues := by
  have e : q.beyondClocks.cues = p.beyondClocks.cues := congrArg _ h
  exact e

theorem Part.inputs_of_clocks {p q : Part} (h : q.beyondClocks = p.beyondClocks) : q.inputs = p.inputs := by
  have e : q.beyondClocks.inputs = p.beyondClocks.inputs := congrArg _ h
  exact e

theorem Part.feed_of_clocks {p q : Part} (h : q.beyondClocks = p.beyondClocks) : q.feed = p.feed := by
  have e : q.beyondClocks.feed = p.beyondClocks.feed := congrArg _ h
  exact e

theorem Part.resetDue_of_clocks {p q : Part} (h : q.beyondClocks = p.beyondClocks) : q.resetDue = p.resetDue := by
  have e : q.beyondClocks.resetDue = p.beyondClocks.resetDue := congrArg _ h
  exact e

theorem Part.ev_of_clocks {p q : Part} (h : q.beyondClocks = p.beyondClocks) : q.ev = p.ev := by
  have e : q.beyondClocks.ev = p.beyondClocks.ev := congrArg _ h
  exact e

theorem Part.powered_of_chain {p q : Part} (h : q.beyondChain = p.beyondChain) : q.powered = p.powered := by
  have e : q.beyondChain.powered = p.beyondChain.powered := congrArg _ h
  exact e

theorem Part.elapsed_of_chain {p q : Part} (h : q.beyondChain = p.beyondChain) : q.elapsed = p.elapsed := by
  have e : q.beyondChain.elapsed = p.beyondChain.elapsed := congrArg _ h
  exact e

theorem Part.free_of_chain {p q : Part} (h : q.beyondChain = p.beyondChain) : q.free = p.free := by
  have e : q.beyondChain.free = p.beyondChain.free := congrArg _ h
  exact e

theorem Part.time_of_chain {p q : Part} (h : q.beyondChain = p.beyondChain) : q.time = p.time := by
  have e : q.beyondChain.time = p.beyondChain.time := congrArg _ h
  exact e

theorem Part.table_of_chain {p q : Part} (h : q.beyondChain = p.beyondChain) : q.table = p.table := by
  have e : q.beyondChain.table = p.beyondChain.table := congrArg _ h
  exact e

theorem Part.own_of_chain {p q : Part} (h : q.beyondChain = p.beyondChain) : q.own = p.own := by
  have e : q.beyondChain.own = p.beyondChain.own := congrArg _ h
  exact e

theorem Part.notices_of_chain {p q : Part} (h : q.beyondChain = p.beyondChain) : q.notices = p.notices := by
  have e : q.beyondChain.notices = p.beyondChain.notices := congrArg _ h
  exact e

theorem Part.image_of_chain {p q : Part} (h : q.beyondChain = p.beyondChain) : q.image = p.image := by
  have e : q.beyondChain.image = p.beyondChain.image := congrArg _ h
  exact e

theorem Part.cues_of_chain {p q : Part} (h : q.beyondChain = p.beyondChain) : q.cues = p.cues := by
  have e : q.beyondChain.cues = p.beyondChain.cues := congrArg _ h
  exact e

theorem Part.clocks_of_chain {p q : Part} (h : q.beyondChain = p.beyondChain) : q.clocks = p.clocks := by
  have e : q.beyondChain.clocks = p.beyondChain.clocks := congrArg _ h
  exact e

theorem Part.inputs_of_chain {p q : Part} (h : q.beyondChain = p.beyondChain) : q.inputs = p.inputs := by
  have e : q.beyondChain.inputs = p.beyondChain.inputs := congrArg _ h
  exact e

theorem Part.store_of_chain {p q : Part} (h : q.beyondChain = p.beyondChain) : q.store = p.store := by
  have e : q.beyondChain.store = p.beyondChain.store := congrArg _ h
  exact e

theorem Part.feed_of_chain {p q : Part} (h : q.beyondChain = p.beyondChain) : q.feed = p.feed := by
  have e : q.beyondChain.feed = p.beyondChain.feed := congrArg _ h
  exact e

theorem Part.resetDue_of_chain {p q : Part} (h : q.beyondChain = p.beyondChain) : q.resetDue = p.resetDue := by
  have e : q.beyondChain.resetDue = p.beyondChain.resetDue := congrArg _ h
  exact e

theorem Part.ev_of_chain {p q : Part} (h : q.beyondChain = p.beyondChain) : q.ev = p.ev := by
  have e : q.beyondChain.ev = p.beyondChain.ev := congrArg _ h
  exact e

/-! ## Part.finish -/

@[simp] theorem Part.finish_powered (p : Part) : p.finish.powered = p.powered :=
  Part.powered_of_table (Part.finish_beyondTable p)
@[simp] theorem Part.finish_elapsed (p : Part) : p.finish.elapsed = p.elapsed :=
  Part.elapsed_of_table (Part.finish_beyondTable p)
@[simp] theorem Part.finish_free (p : Part) : p.finish.free = p.free :=
  Part.free_of_table (Part.finish_beyondTable p)
@[simp] theorem Part.finish_time (p : Part) : p.finish.time = p.time :=
  Part.time_of_table (Part.finish_beyondTable p)
@[simp] theorem Part.finish_own (p : Part) : p.finish.own = p.own :=
  Part.own_of_table (Part.finish_beyondTable p)
@[simp] theorem Part.finish_chain (p : Part) : p.finish.chain = p.chain :=
  Part.chain_of_table (Part.finish_beyondTable p)
@[simp] theorem Part.finish_clocks (p : Part) : p.finish.clocks = p.clocks :=
  Part.clocks_of_table (Part.finish_beyondTable p)
@[simp] theorem Part.finish_inputs (p : Part) : p.finish.inputs = p.inputs :=
  Part.inputs_of_table (Part.finish_beyondTable p)
@[simp] theorem Part.finish_store (p : Part) : p.finish.store = p.store :=
  Part.store_of_table (Part.finish_beyondTable p)
@[simp] theorem Part.finish_feed (p : Part) : p.finish.feed = p.feed :=
  Part.feed_of_table (Part.finish_beyondTable p)
@[simp] theorem Part.finish_resetDue (p : Part) : p.finish.resetDue = p.resetDue :=
  Part.resetDue_of_table (Part.finish_beyondTable p)

/-! ## Part.settle -/

@[simp] theorem Part.settle_powered (p : Part) : p.settle.powered = p.powered :=
  Part.powered_of_table (Part.settle_beyondTable p)
@[simp] theorem Part.settle_elapsed (p : Part) : p.settle.elapsed = p.elapsed :=
  Part.elapsed_of_table (Part.settle_beyondTable p)
@[simp] theorem Part.settle_free (p : Part) : p.settle.free = p.free :=
  Part.free_of_table (Part.settle_beyondTable p)
@[simp] theorem Part.settle_time (p : Part) : p.settle.time = p.time :=
  Part.time_of_table (Part.settle_beyondTable p)
@[simp] theorem Part.settle_own (p : Part) : p.settle.own = p.own :=
  Part.own_of_table (Part.settle_beyondTable p)
@[simp] theorem Part.settle_chain (p : Part) : p.settle.chain = p.chain :=
  Part.chain_of_table (Part.settle_beyondTable p)
@[simp] theorem Part.settle_clocks (p : Part) : p.settle.clocks = p.clocks :=
  Part.clocks_of_table (Part.settle_beyondTable p)
@[simp] theorem Part.settle_inputs (p : Part) : p.settle.inputs = p.inputs :=
  Part.inputs_of_table (Part.settle_beyondTable p)
@[simp] theorem Part.settle_store (p : Part) : p.settle.store = p.store :=
  Part.store_of_table (Part.settle_beyondTable p)
@[simp] theorem Part.settle_feed (p : Part) : p.settle.feed = p.feed :=
  Part.feed_of_table (Part.settle_beyondTable p)
@[simp] theorem Part.settle_resetDue (p : Part) : p.settle.resetDue = p.resetDue :=
  Part.resetDue_of_table (Part.settle_beyondTable p)

/-! ## Part.handOn -/

@[simp] theorem Part.handOn_powered (p : Part) (b : Running) (id : Nat) : (p.handOn b id).powered = p.powered :=
  Part.powered_of_table (Part.handOn_beyondTable p b id)
@[simp] theorem Part.handOn_elapsed (p : Part) (b : Running) (id : Nat) : (p.handOn b id).elapsed = p.elapsed :=
  Part.elapsed_of_table (Part.handOn_beyondTable p b id)
@[simp] theorem Part.handOn_free (p : Part) (b : Running) (id : Nat) : (p.handOn b id).free = p.free :=
  Part.free_of_table (Part.handOn_beyondTable p b id)
@[simp] theorem Part.handOn_time (p : Part) (b : Running) (id : Nat) : (p.handOn b id).time = p.time :=
  Part.time_of_table (Part.handOn_beyondTable p b id)
@[simp] theorem Part.handOn_own (p : Part) (b : Running) (id : Nat) : (p.handOn b id).own = p.own :=
  Part.own_of_table (Part.handOn_beyondTable p b id)
@[simp] theorem Part.handOn_chain (p : Part) (b : Running) (id : Nat) : (p.handOn b id).chain = p.chain :=
  Part.chain_of_table (Part.handOn_beyondTable p b id)
@[simp] theorem Part.handOn_clocks (p : Part) (b : Running) (id : Nat) : (p.handOn b id).clocks = p.clocks :=
  Part.clocks_of_table (Part.handOn_beyondTable p b id)
@[simp] theorem Part.handOn_inputs (p : Part) (b : Running) (id : Nat) : (p.handOn b id).inputs = p.inputs :=
  Part.inputs_of_table (Part.handOn_beyondTable p b id)
@[simp] theorem Part.handOn_store (p : Part) (b : Running) (id : Nat) : (p.handOn b id).store = p.store :=
  Part.store_of_table (Part.handOn_beyondTable p b id)
@[simp] theorem Part.handOn_feed (p : Part) (b : Running) (id : Nat) : (p.handOn b id).feed = p.feed :=
  Part.feed_of_table (Part.handOn_beyondTable p b id)
@[simp] theorem Part.handOn_resetDue (p : Part) (b : Running) (id : Nat) : (p.handOn b id).resetDue = p.resetDue :=
  Part.resetDue_of_table (Part.handOn_beyondTable p b id)

/-! ## Part.retireCheck -/

@[simp] theorem Part.retireCheck_powered (p : Part) (sel : Record → Bool) : (p.retireCheck sel).powered = p.powered :=
  Part.powered_of_table (Part.retireCheck_beyondTable p sel)
@[simp] theorem Part.retireCheck_elapsed (p : Part) (sel : Record → Bool) : (p.retireCheck sel).elapsed = p.elapsed :=
  Part.elapsed_of_table (Part.retireCheck_beyondTable p sel)
@[simp] theorem Part.retireCheck_free (p : Part) (sel : Record → Bool) : (p.retireCheck sel).free = p.free :=
  Part.free_of_table (Part.retireCheck_beyondTable p sel)
@[simp] theorem Part.retireCheck_time (p : Part) (sel : Record → Bool) : (p.retireCheck sel).time = p.time :=
  Part.time_of_table (Part.retireCheck_beyondTable p sel)
@[simp] theorem Part.retireCheck_own (p : Part) (sel : Record → Bool) : (p.retireCheck sel).own = p.own :=
  Part.own_of_table (Part.retireCheck_beyondTable p sel)
@[simp] theorem Part.retireCheck_chain (p : Part) (sel : Record → Bool) : (p.retireCheck sel).chain = p.chain :=
  Part.chain_of_table (Part.retireCheck_beyondTable p sel)
@[simp] theorem Part.retireCheck_clocks (p : Part) (sel : Record → Bool) : (p.retireCheck sel).clocks = p.clocks :=
  Part.clocks_of_table (Part.retireCheck_beyondTable p sel)
@[simp] theorem Part.retireCheck_inputs (p : Part) (sel : Record → Bool) : (p.retireCheck sel).inputs = p.inputs :=
  Part.inputs_of_table (Part.retireCheck_beyondTable p sel)
@[simp] theorem Part.retireCheck_store (p : Part) (sel : Record → Bool) : (p.retireCheck sel).store = p.store :=
  Part.store_of_table (Part.retireCheck_beyondTable p sel)
@[simp] theorem Part.retireCheck_feed (p : Part) (sel : Record → Bool) : (p.retireCheck sel).feed = p.feed :=
  Part.feed_of_table (Part.retireCheck_beyondTable p sel)
@[simp] theorem Part.retireCheck_resetDue (p : Part) (sel : Record → Bool) : (p.retireCheck sel).resetDue = p.resetDue :=
  Part.resetDue_of_table (Part.retireCheck_beyondTable p sel)

/-! ## Part.change -/

@[simp] theorem Part.change_powered (p : Part) (o n : Record) (w : ChangeOrigin) : (p.change o n w).powered = p.powered :=
  Part.powered_of_table (Part.change_beyondTable p o n w)
@[simp] theorem Part.change_elapsed (p : Part) (o n : Record) (w : ChangeOrigin) : (p.change o n w).elapsed = p.elapsed :=
  Part.elapsed_of_table (Part.change_beyondTable p o n w)
@[simp] theorem Part.change_free (p : Part) (o n : Record) (w : ChangeOrigin) : (p.change o n w).free = p.free :=
  Part.free_of_table (Part.change_beyondTable p o n w)
@[simp] theorem Part.change_time (p : Part) (o n : Record) (w : ChangeOrigin) : (p.change o n w).time = p.time :=
  Part.time_of_table (Part.change_beyondTable p o n w)
@[simp] theorem Part.change_own (p : Part) (o n : Record) (w : ChangeOrigin) : (p.change o n w).own = p.own :=
  Part.own_of_table (Part.change_beyondTable p o n w)
@[simp] theorem Part.change_chain (p : Part) (o n : Record) (w : ChangeOrigin) : (p.change o n w).chain = p.chain :=
  Part.chain_of_table (Part.change_beyondTable p o n w)
@[simp] theorem Part.change_clocks (p : Part) (o n : Record) (w : ChangeOrigin) : (p.change o n w).clocks = p.clocks :=
  Part.clocks_of_table (Part.change_beyondTable p o n w)
@[simp] theorem Part.change_inputs (p : Part) (o n : Record) (w : ChangeOrigin) : (p.change o n w).inputs = p.inputs :=
  Part.inputs_of_table (Part.change_beyondTable p o n w)
@[simp] theorem Part.change_store (p : Part) (o n : Record) (w : ChangeOrigin) : (p.change o n w).store = p.store :=
  Part.store_of_table (Part.change_beyondTable p o n w)
@[simp] theorem Part.change_feed (p : Part) (o n : Record) (w : ChangeOrigin) : (p.change o n w).feed = p.feed :=
  Part.feed_of_table (Part.change_beyondTable p o n w)
@[simp] theorem Part.change_resetDue (p : Part) (o n : Record) (w : ChangeOrigin) : (p.change o n w).resetDue = p.resetDue :=
  Part.resetDue_of_table (Part.change_beyondTable p o n w)

/-! ## Part.examine -/

@[simp] theorem Part.examine_powered (p : Part) : p.examine.powered = p.powered :=
  Part.powered_of_table (Part.examine_beyondTable p)
@[simp] theorem Part.examine_elapsed (p : Part) : p.examine.elapsed = p.elapsed :=
  Part.elapsed_of_table (Part.examine_beyondTable p)
@[simp] theorem Part.examine_free (p : Part) : p.examine.free = p.free :=
  Part.free_of_table (Part.examine_beyondTable p)
@[simp] theorem Part.examine_time (p : Part) : p.examine.time = p.time :=
  Part.time_of_table (Part.examine_beyondTable p)
@[simp] theorem Part.examine_own (p : Part) : p.examine.own = p.own :=
  Part.own_of_table (Part.examine_beyondTable p)
@[simp] theorem Part.examine_chain (p : Part) : p.examine.chain = p.chain :=
  Part.chain_of_table (Part.examine_beyondTable p)
@[simp] theorem Part.examine_clocks (p : Part) : p.examine.clocks = p.clocks :=
  Part.clocks_of_table (Part.examine_beyondTable p)
@[simp] theorem Part.examine_inputs (p : Part) : p.examine.inputs = p.inputs :=
  Part.inputs_of_table (Part.examine_beyondTable p)
@[simp] theorem Part.examine_store (p : Part) : p.examine.store = p.store :=
  Part.store_of_table (Part.examine_beyondTable p)
@[simp] theorem Part.examine_feed (p : Part) : p.examine.feed = p.feed :=
  Part.feed_of_table (Part.examine_beyondTable p)
@[simp] theorem Part.examine_resetDue (p : Part) : p.examine.resetDue = p.resetDue :=
  Part.resetDue_of_table (Part.examine_beyondTable p)

/-! ## Part.deleteRecord -/

@[simp] theorem Part.deleteRecord_powered (p : Part) (id : Nat) : (p.deleteRecord id).powered = p.powered :=
  Part.powered_of_table (Part.deleteRecord_beyondTable p id)
@[simp] theorem Part.deleteRecord_elapsed (p : Part) (id : Nat) : (p.deleteRecord id).elapsed = p.elapsed :=
  Part.elapsed_of_table (Part.deleteRecord_beyondTable p id)
@[simp] theorem Part.deleteRecord_free (p : Part) (id : Nat) : (p.deleteRecord id).free = p.free :=
  Part.free_of_table (Part.deleteRecord_beyondTable p id)
@[simp] theorem Part.deleteRecord_time (p : Part) (id : Nat) : (p.deleteRecord id).time = p.time :=
  Part.time_of_table (Part.deleteRecord_beyondTable p id)
@[simp] theorem Part.deleteRecord_own (p : Part) (id : Nat) : (p.deleteRecord id).own = p.own :=
  Part.own_of_table (Part.deleteRecord_beyondTable p id)
@[simp] theorem Part.deleteRecord_chain (p : Part) (id : Nat) : (p.deleteRecord id).chain = p.chain :=
  Part.chain_of_table (Part.deleteRecord_beyondTable p id)
@[simp] theorem Part.deleteRecord_clocks (p : Part) (id : Nat) : (p.deleteRecord id).clocks = p.clocks :=
  Part.clocks_of_table (Part.deleteRecord_beyondTable p id)
@[simp] theorem Part.deleteRecord_inputs (p : Part) (id : Nat) : (p.deleteRecord id).inputs = p.inputs :=
  Part.inputs_of_table (Part.deleteRecord_beyondTable p id)
@[simp] theorem Part.deleteRecord_store (p : Part) (id : Nat) : (p.deleteRecord id).store = p.store :=
  Part.store_of_table (Part.deleteRecord_beyondTable p id)
@[simp] theorem Part.deleteRecord_feed (p : Part) (id : Nat) : (p.deleteRecord id).feed = p.feed :=
  Part.feed_of_table (Part.deleteRecord_beyondTable p id)
@[simp] theorem Part.deleteRecord_resetDue (p : Part) (id : Nat) : (p.deleteRecord id).resetDue = p.resetDue :=
  Part.resetDue_of_table (Part.deleteRecord_beyondTable p id)

/-! ## Part.purgeAuto -/

@[simp] theorem Part.purgeAuto_powered (p : Part) : p.purgeAuto.powered = p.powered :=
  Part.powered_of_cues (Part.purgeAuto_beyondCues p)
@[simp] theorem Part.purgeAuto_elapsed (p : Part) : p.purgeAuto.elapsed = p.elapsed :=
  Part.elapsed_of_cues (Part.purgeAuto_beyondCues p)
@[simp] theorem Part.purgeAuto_free (p : Part) : p.purgeAuto.free = p.free :=
  Part.free_of_cues (Part.purgeAuto_beyondCues p)
@[simp] theorem Part.purgeAuto_time (p : Part) : p.purgeAuto.time = p.time :=
  Part.time_of_cues (Part.purgeAuto_beyondCues p)
@[simp] theorem Part.purgeAuto_table (p : Part) : p.purgeAuto.table = p.table :=
  Part.table_of_cues (Part.purgeAuto_beyondCues p)
@[simp] theorem Part.purgeAuto_own (p : Part) : p.purgeAuto.own = p.own :=
  Part.own_of_cues (Part.purgeAuto_beyondCues p)
@[simp] theorem Part.purgeAuto_notices (p : Part) : p.purgeAuto.notices = p.notices :=
  Part.notices_of_cues (Part.purgeAuto_beyondCues p)
@[simp] theorem Part.purgeAuto_image (p : Part) : p.purgeAuto.image = p.image :=
  Part.image_of_cues (Part.purgeAuto_beyondCues p)
@[simp] theorem Part.purgeAuto_chain (p : Part) : p.purgeAuto.chain = p.chain :=
  Part.chain_of_cues (Part.purgeAuto_beyondCues p)
@[simp] theorem Part.purgeAuto_clocks (p : Part) : p.purgeAuto.clocks = p.clocks :=
  Part.clocks_of_cues (Part.purgeAuto_beyondCues p)
@[simp] theorem Part.purgeAuto_inputs (p : Part) : p.purgeAuto.inputs = p.inputs :=
  Part.inputs_of_cues (Part.purgeAuto_beyondCues p)
@[simp] theorem Part.purgeAuto_store (p : Part) : p.purgeAuto.store = p.store :=
  Part.store_of_cues (Part.purgeAuto_beyondCues p)
@[simp] theorem Part.purgeAuto_feed (p : Part) : p.purgeAuto.feed = p.feed :=
  Part.feed_of_cues (Part.purgeAuto_beyondCues p)
@[simp] theorem Part.purgeAuto_resetDue (p : Part) : p.purgeAuto.resetDue = p.resetDue :=
  Part.resetDue_of_cues (Part.purgeAuto_beyondCues p)
@[simp] theorem Part.purgeAuto_ev (p : Part) : p.purgeAuto.ev = p.ev :=
  Part.ev_of_cues (Part.purgeAuto_beyondCues p)

/-! ## Part.placeOrDrop -/

@[simp] theorem Part.placeOrDrop_powered (p : Part) (n : NewCue) : (p.placeOrDrop n).powered = p.powered :=
  Part.powered_of_cues (Part.placeOrDrop_beyondCues p n)
@[simp] theorem Part.placeOrDrop_elapsed (p : Part) (n : NewCue) : (p.placeOrDrop n).elapsed = p.elapsed :=
  Part.elapsed_of_cues (Part.placeOrDrop_beyondCues p n)
@[simp] theorem Part.placeOrDrop_free (p : Part) (n : NewCue) : (p.placeOrDrop n).free = p.free :=
  Part.free_of_cues (Part.placeOrDrop_beyondCues p n)
@[simp] theorem Part.placeOrDrop_time (p : Part) (n : NewCue) : (p.placeOrDrop n).time = p.time :=
  Part.time_of_cues (Part.placeOrDrop_beyondCues p n)
@[simp] theorem Part.placeOrDrop_table (p : Part) (n : NewCue) : (p.placeOrDrop n).table = p.table :=
  Part.table_of_cues (Part.placeOrDrop_beyondCues p n)
@[simp] theorem Part.placeOrDrop_own (p : Part) (n : NewCue) : (p.placeOrDrop n).own = p.own :=
  Part.own_of_cues (Part.placeOrDrop_beyondCues p n)
@[simp] theorem Part.placeOrDrop_notices (p : Part) (n : NewCue) : (p.placeOrDrop n).notices = p.notices :=
  Part.notices_of_cues (Part.placeOrDrop_beyondCues p n)
@[simp] theorem Part.placeOrDrop_image (p : Part) (n : NewCue) : (p.placeOrDrop n).image = p.image :=
  Part.image_of_cues (Part.placeOrDrop_beyondCues p n)
@[simp] theorem Part.placeOrDrop_chain (p : Part) (n : NewCue) : (p.placeOrDrop n).chain = p.chain :=
  Part.chain_of_cues (Part.placeOrDrop_beyondCues p n)
@[simp] theorem Part.placeOrDrop_clocks (p : Part) (n : NewCue) : (p.placeOrDrop n).clocks = p.clocks :=
  Part.clocks_of_cues (Part.placeOrDrop_beyondCues p n)
@[simp] theorem Part.placeOrDrop_inputs (p : Part) (n : NewCue) : (p.placeOrDrop n).inputs = p.inputs :=
  Part.inputs_of_cues (Part.placeOrDrop_beyondCues p n)
@[simp] theorem Part.placeOrDrop_store (p : Part) (n : NewCue) : (p.placeOrDrop n).store = p.store :=
  Part.store_of_cues (Part.placeOrDrop_beyondCues p n)
@[simp] theorem Part.placeOrDrop_feed (p : Part) (n : NewCue) : (p.placeOrDrop n).feed = p.feed :=
  Part.feed_of_cues (Part.placeOrDrop_beyondCues p n)
@[simp] theorem Part.placeOrDrop_resetDue (p : Part) (n : NewCue) : (p.placeOrDrop n).resetDue = p.resetDue :=
  Part.resetDue_of_cues (Part.placeOrDrop_beyondCues p n)
@[simp] theorem Part.placeOrDrop_ev (p : Part) (n : NewCue) : (p.placeOrDrop n).ev = p.ev :=
  Part.ev_of_cues (Part.placeOrDrop_beyondCues p n)

/-! ## Part.dropNotice -/

@[simp] theorem Part.dropNotice_powered (p : Part) (n : Notice) : (p.dropNotice n).powered = p.powered :=
  Part.powered_of_notices (Part.dropNotice_beyondNotices p n)
@[simp] theorem Part.dropNotice_elapsed (p : Part) (n : Notice) : (p.dropNotice n).elapsed = p.elapsed :=
  Part.elapsed_of_notices (Part.dropNotice_beyondNotices p n)
@[simp] theorem Part.dropNotice_free (p : Part) (n : Notice) : (p.dropNotice n).free = p.free :=
  Part.free_of_notices (Part.dropNotice_beyondNotices p n)
@[simp] theorem Part.dropNotice_time (p : Part) (n : Notice) : (p.dropNotice n).time = p.time :=
  Part.time_of_notices (Part.dropNotice_beyondNotices p n)
@[simp] theorem Part.dropNotice_table (p : Part) (n : Notice) : (p.dropNotice n).table = p.table :=
  Part.table_of_notices (Part.dropNotice_beyondNotices p n)
@[simp] theorem Part.dropNotice_own (p : Part) (n : Notice) : (p.dropNotice n).own = p.own :=
  Part.own_of_notices (Part.dropNotice_beyondNotices p n)
@[simp] theorem Part.dropNotice_image (p : Part) (n : Notice) : (p.dropNotice n).image = p.image :=
  Part.image_of_notices (Part.dropNotice_beyondNotices p n)
@[simp] theorem Part.dropNotice_chain (p : Part) (n : Notice) : (p.dropNotice n).chain = p.chain :=
  Part.chain_of_notices (Part.dropNotice_beyondNotices p n)
@[simp] theorem Part.dropNotice_cues (p : Part) (n : Notice) : (p.dropNotice n).cues = p.cues :=
  Part.cues_of_notices (Part.dropNotice_beyondNotices p n)
@[simp] theorem Part.dropNotice_clocks (p : Part) (n : Notice) : (p.dropNotice n).clocks = p.clocks :=
  Part.clocks_of_notices (Part.dropNotice_beyondNotices p n)
@[simp] theorem Part.dropNotice_inputs (p : Part) (n : Notice) : (p.dropNotice n).inputs = p.inputs :=
  Part.inputs_of_notices (Part.dropNotice_beyondNotices p n)
@[simp] theorem Part.dropNotice_store (p : Part) (n : Notice) : (p.dropNotice n).store = p.store :=
  Part.store_of_notices (Part.dropNotice_beyondNotices p n)
@[simp] theorem Part.dropNotice_info (p : Part) (n : Notice) : (p.dropNotice n).info = p.info :=
  Part.info_of_notices (Part.dropNotice_beyondNotices p n)
@[simp] theorem Part.dropNotice_ctl (p : Part) (n : Notice) : (p.dropNotice n).ctl = p.ctl :=
  Part.ctl_of_notices (Part.dropNotice_beyondNotices p n)
@[simp] theorem Part.dropNotice_feed (p : Part) (n : Notice) : (p.dropNotice n).feed = p.feed :=
  Part.feed_of_notices (Part.dropNotice_beyondNotices p n)
@[simp] theorem Part.dropNotice_resetDue (p : Part) (n : Notice) : (p.dropNotice n).resetDue = p.resetDue :=
  Part.resetDue_of_notices (Part.dropNotice_beyondNotices p n)

/-! ## Part.askNotice -/

@[simp] theorem Part.askNotice_powered (p : Part) (k : NoticeKind) (sv : Option Nat) : (p.askNotice k sv).powered = p.powered :=
  Part.powered_of_notices (Part.askNotice_beyondNotices p k sv)
@[simp] theorem Part.askNotice_elapsed (p : Part) (k : NoticeKind) (sv : Option Nat) : (p.askNotice k sv).elapsed = p.elapsed :=
  Part.elapsed_of_notices (Part.askNotice_beyondNotices p k sv)
@[simp] theorem Part.askNotice_free (p : Part) (k : NoticeKind) (sv : Option Nat) : (p.askNotice k sv).free = p.free :=
  Part.free_of_notices (Part.askNotice_beyondNotices p k sv)
@[simp] theorem Part.askNotice_time (p : Part) (k : NoticeKind) (sv : Option Nat) : (p.askNotice k sv).time = p.time :=
  Part.time_of_notices (Part.askNotice_beyondNotices p k sv)
@[simp] theorem Part.askNotice_table (p : Part) (k : NoticeKind) (sv : Option Nat) : (p.askNotice k sv).table = p.table :=
  Part.table_of_notices (Part.askNotice_beyondNotices p k sv)
@[simp] theorem Part.askNotice_own (p : Part) (k : NoticeKind) (sv : Option Nat) : (p.askNotice k sv).own = p.own :=
  Part.own_of_notices (Part.askNotice_beyondNotices p k sv)
@[simp] theorem Part.askNotice_image (p : Part) (k : NoticeKind) (sv : Option Nat) : (p.askNotice k sv).image = p.image :=
  Part.image_of_notices (Part.askNotice_beyondNotices p k sv)
@[simp] theorem Part.askNotice_chain (p : Part) (k : NoticeKind) (sv : Option Nat) : (p.askNotice k sv).chain = p.chain :=
  Part.chain_of_notices (Part.askNotice_beyondNotices p k sv)
@[simp] theorem Part.askNotice_cues (p : Part) (k : NoticeKind) (sv : Option Nat) : (p.askNotice k sv).cues = p.cues :=
  Part.cues_of_notices (Part.askNotice_beyondNotices p k sv)
@[simp] theorem Part.askNotice_clocks (p : Part) (k : NoticeKind) (sv : Option Nat) : (p.askNotice k sv).clocks = p.clocks :=
  Part.clocks_of_notices (Part.askNotice_beyondNotices p k sv)
@[simp] theorem Part.askNotice_inputs (p : Part) (k : NoticeKind) (sv : Option Nat) : (p.askNotice k sv).inputs = p.inputs :=
  Part.inputs_of_notices (Part.askNotice_beyondNotices p k sv)
@[simp] theorem Part.askNotice_store (p : Part) (k : NoticeKind) (sv : Option Nat) : (p.askNotice k sv).store = p.store :=
  Part.store_of_notices (Part.askNotice_beyondNotices p k sv)
@[simp] theorem Part.askNotice_info (p : Part) (k : NoticeKind) (sv : Option Nat) : (p.askNotice k sv).info = p.info :=
  Part.info_of_notices (Part.askNotice_beyondNotices p k sv)
@[simp] theorem Part.askNotice_ctl (p : Part) (k : NoticeKind) (sv : Option Nat) : (p.askNotice k sv).ctl = p.ctl :=
  Part.ctl_of_notices (Part.askNotice_beyondNotices p k sv)
@[simp] theorem Part.askNotice_feed (p : Part) (k : NoticeKind) (sv : Option Nat) : (p.askNotice k sv).feed = p.feed :=
  Part.feed_of_notices (Part.askNotice_beyondNotices p k sv)
@[simp] theorem Part.askNotice_resetDue (p : Part) (k : NoticeKind) (sv : Option Nat) : (p.askNotice k sv).resetDue = p.resetDue :=
  Part.resetDue_of_notices (Part.askNotice_beyondNotices p k sv)

/-! ## Part.withdrawNotice -/

@[simp] theorem Part.withdrawNotice_powered (p : Part) (k : NoticeKind) (sv : Option Nat) : (p.withdrawNotice k sv).powered = p.powered :=
  Part.powered_of_notices (Part.withdrawNotice_beyondNotices p k sv)
@[simp] theorem Part.withdrawNotice_elapsed (p : Part) (k : NoticeKind) (sv : Option Nat) : (p.withdrawNotice k sv).elapsed = p.elapsed :=
  Part.elapsed_of_notices (Part.withdrawNotice_beyondNotices p k sv)
@[simp] theorem Part.withdrawNotice_free (p : Part) (k : NoticeKind) (sv : Option Nat) : (p.withdrawNotice k sv).free = p.free :=
  Part.free_of_notices (Part.withdrawNotice_beyondNotices p k sv)
@[simp] theorem Part.withdrawNotice_time (p : Part) (k : NoticeKind) (sv : Option Nat) : (p.withdrawNotice k sv).time = p.time :=
  Part.time_of_notices (Part.withdrawNotice_beyondNotices p k sv)
@[simp] theorem Part.withdrawNotice_table (p : Part) (k : NoticeKind) (sv : Option Nat) : (p.withdrawNotice k sv).table = p.table :=
  Part.table_of_notices (Part.withdrawNotice_beyondNotices p k sv)
@[simp] theorem Part.withdrawNotice_own (p : Part) (k : NoticeKind) (sv : Option Nat) : (p.withdrawNotice k sv).own = p.own :=
  Part.own_of_notices (Part.withdrawNotice_beyondNotices p k sv)
@[simp] theorem Part.withdrawNotice_image (p : Part) (k : NoticeKind) (sv : Option Nat) : (p.withdrawNotice k sv).image = p.image :=
  Part.image_of_notices (Part.withdrawNotice_beyondNotices p k sv)
@[simp] theorem Part.withdrawNotice_chain (p : Part) (k : NoticeKind) (sv : Option Nat) : (p.withdrawNotice k sv).chain = p.chain :=
  Part.chain_of_notices (Part.withdrawNotice_beyondNotices p k sv)
@[simp] theorem Part.withdrawNotice_cues (p : Part) (k : NoticeKind) (sv : Option Nat) : (p.withdrawNotice k sv).cues = p.cues :=
  Part.cues_of_notices (Part.withdrawNotice_beyondNotices p k sv)
@[simp] theorem Part.withdrawNotice_clocks (p : Part) (k : NoticeKind) (sv : Option Nat) : (p.withdrawNotice k sv).clocks = p.clocks :=
  Part.clocks_of_notices (Part.withdrawNotice_beyondNotices p k sv)
@[simp] theorem Part.withdrawNotice_inputs (p : Part) (k : NoticeKind) (sv : Option Nat) : (p.withdrawNotice k sv).inputs = p.inputs :=
  Part.inputs_of_notices (Part.withdrawNotice_beyondNotices p k sv)
@[simp] theorem Part.withdrawNotice_store (p : Part) (k : NoticeKind) (sv : Option Nat) : (p.withdrawNotice k sv).store = p.store :=
  Part.store_of_notices (Part.withdrawNotice_beyondNotices p k sv)
@[simp] theorem Part.withdrawNotice_info (p : Part) (k : NoticeKind) (sv : Option Nat) : (p.withdrawNotice k sv).info = p.info :=
  Part.info_of_notices (Part.withdrawNotice_beyondNotices p k sv)
@[simp] theorem Part.withdrawNotice_ctl (p : Part) (k : NoticeKind) (sv : Option Nat) : (p.withdrawNotice k sv).ctl = p.ctl :=
  Part.ctl_of_notices (Part.withdrawNotice_beyondNotices p k sv)
@[simp] theorem Part.withdrawNotice_feed (p : Part) (k : NoticeKind) (sv : Option Nat) : (p.withdrawNotice k sv).feed = p.feed :=
  Part.feed_of_notices (Part.withdrawNotice_beyondNotices p k sv)
@[simp] theorem Part.withdrawNotice_resetDue (p : Part) (k : NoticeKind) (sv : Option Nat) : (p.withdrawNotice k sv).resetDue = p.resetDue :=
  Part.resetDue_of_notices (Part.withdrawNotice_beyondNotices p k sv)

/-! ## Part.latchNat -/

@[simp] theorem Part.latchNat_powered (p : Part) (k : EventKind) (n : Nat) : (p.latchNat k n).powered = p.powered :=
  Part.powered_of_ports (Part.latchNat_beyondPorts p k n)
@[simp] theorem Part.latchNat_elapsed (p : Part) (k : EventKind) (n : Nat) : (p.latchNat k n).elapsed = p.elapsed :=
  Part.elapsed_of_ports (Part.latchNat_beyondPorts p k n)
@[simp] theorem Part.latchNat_free (p : Part) (k : EventKind) (n : Nat) : (p.latchNat k n).free = p.free :=
  Part.free_of_ports (Part.latchNat_beyondPorts p k n)
@[simp] theorem Part.latchNat_time (p : Part) (k : EventKind) (n : Nat) : (p.latchNat k n).time = p.time :=
  Part.time_of_ports (Part.latchNat_beyondPorts p k n)
@[simp] theorem Part.latchNat_table (p : Part) (k : EventKind) (n : Nat) : (p.latchNat k n).table = p.table :=
  Part.table_of_ports (Part.latchNat_beyondPorts p k n)
@[simp] theorem Part.latchNat_own (p : Part) (k : EventKind) (n : Nat) : (p.latchNat k n).own = p.own :=
  Part.own_of_ports (Part.latchNat_beyondPorts p k n)
@[simp] theorem Part.latchNat_notices (p : Part) (k : EventKind) (n : Nat) : (p.latchNat k n).notices = p.notices :=
  Part.notices_of_ports (Part.latchNat_beyondPorts p k n)
@[simp] theorem Part.latchNat_image (p : Part) (k : EventKind) (n : Nat) : (p.latchNat k n).image = p.image :=
  Part.image_of_ports (Part.latchNat_beyondPorts p k n)
@[simp] theorem Part.latchNat_chain (p : Part) (k : EventKind) (n : Nat) : (p.latchNat k n).chain = p.chain :=
  Part.chain_of_ports (Part.latchNat_beyondPorts p k n)
@[simp] theorem Part.latchNat_cues (p : Part) (k : EventKind) (n : Nat) : (p.latchNat k n).cues = p.cues :=
  Part.cues_of_ports (Part.latchNat_beyondPorts p k n)
@[simp] theorem Part.latchNat_clocks (p : Part) (k : EventKind) (n : Nat) : (p.latchNat k n).clocks = p.clocks :=
  Part.clocks_of_ports (Part.latchNat_beyondPorts p k n)
@[simp] theorem Part.latchNat_inputs (p : Part) (k : EventKind) (n : Nat) : (p.latchNat k n).inputs = p.inputs :=
  Part.inputs_of_ports (Part.latchNat_beyondPorts p k n)
@[simp] theorem Part.latchNat_store (p : Part) (k : EventKind) (n : Nat) : (p.latchNat k n).store = p.store :=
  Part.store_of_ports (Part.latchNat_beyondPorts p k n)
@[simp] theorem Part.latchNat_feed (p : Part) (k : EventKind) (n : Nat) : (p.latchNat k n).feed = p.feed :=
  Part.feed_of_ports (Part.latchNat_beyondPorts p k n)
@[simp] theorem Part.latchNat_resetDue (p : Part) (k : EventKind) (n : Nat) : (p.latchNat k n).resetDue = p.resetDue :=
  Part.resetDue_of_ports (Part.latchNat_beyondPorts p k n)
@[simp] theorem Part.latchNat_ev (p : Part) (k : EventKind) (n : Nat) : (p.latchNat k n).ev = p.ev :=
  Part.ev_of_ports (Part.latchNat_beyondPorts p k n)

/-! ## Part.answer -/

@[simp] theorem Part.answer_powered (p : Part) (l : Link) (k t : Byte) (r : Result) (b : List Byte) : (p.answer l k t r b).powered = p.powered :=
  Part.powered_of_ports (Part.answer_beyondPorts p l k t r b)
@[simp] theorem Part.answer_elapsed (p : Part) (l : Link) (k t : Byte) (r : Result) (b : List Byte) : (p.answer l k t r b).elapsed = p.elapsed :=
  Part.elapsed_of_ports (Part.answer_beyondPorts p l k t r b)
@[simp] theorem Part.answer_free (p : Part) (l : Link) (k t : Byte) (r : Result) (b : List Byte) : (p.answer l k t r b).free = p.free :=
  Part.free_of_ports (Part.answer_beyondPorts p l k t r b)
@[simp] theorem Part.answer_time (p : Part) (l : Link) (k t : Byte) (r : Result) (b : List Byte) : (p.answer l k t r b).time = p.time :=
  Part.time_of_ports (Part.answer_beyondPorts p l k t r b)
@[simp] theorem Part.answer_table (p : Part) (l : Link) (k t : Byte) (r : Result) (b : List Byte) : (p.answer l k t r b).table = p.table :=
  Part.table_of_ports (Part.answer_beyondPorts p l k t r b)
@[simp] theorem Part.answer_own (p : Part) (l : Link) (k t : Byte) (r : Result) (b : List Byte) : (p.answer l k t r b).own = p.own :=
  Part.own_of_ports (Part.answer_beyondPorts p l k t r b)
@[simp] theorem Part.answer_notices (p : Part) (l : Link) (k t : Byte) (r : Result) (b : List Byte) : (p.answer l k t r b).notices = p.notices :=
  Part.notices_of_ports (Part.answer_beyondPorts p l k t r b)
@[simp] theorem Part.answer_image (p : Part) (l : Link) (k t : Byte) (r : Result) (b : List Byte) : (p.answer l k t r b).image = p.image :=
  Part.image_of_ports (Part.answer_beyondPorts p l k t r b)
@[simp] theorem Part.answer_chain (p : Part) (l : Link) (k t : Byte) (r : Result) (b : List Byte) : (p.answer l k t r b).chain = p.chain :=
  Part.chain_of_ports (Part.answer_beyondPorts p l k t r b)
@[simp] theorem Part.answer_cues (p : Part) (l : Link) (k t : Byte) (r : Result) (b : List Byte) : (p.answer l k t r b).cues = p.cues :=
  Part.cues_of_ports (Part.answer_beyondPorts p l k t r b)
@[simp] theorem Part.answer_clocks (p : Part) (l : Link) (k t : Byte) (r : Result) (b : List Byte) : (p.answer l k t r b).clocks = p.clocks :=
  Part.clocks_of_ports (Part.answer_beyondPorts p l k t r b)
@[simp] theorem Part.answer_inputs (p : Part) (l : Link) (k t : Byte) (r : Result) (b : List Byte) : (p.answer l k t r b).inputs = p.inputs :=
  Part.inputs_of_ports (Part.answer_beyondPorts p l k t r b)
@[simp] theorem Part.answer_store (p : Part) (l : Link) (k t : Byte) (r : Result) (b : List Byte) : (p.answer l k t r b).store = p.store :=
  Part.store_of_ports (Part.answer_beyondPorts p l k t r b)
@[simp] theorem Part.answer_feed (p : Part) (l : Link) (k t : Byte) (r : Result) (b : List Byte) : (p.answer l k t r b).feed = p.feed :=
  Part.feed_of_ports (Part.answer_beyondPorts p l k t r b)
@[simp] theorem Part.answer_resetDue (p : Part) (l : Link) (k t : Byte) (r : Result) (b : List Byte) : (p.answer l k t r b).resetDue = p.resetDue :=
  Part.resetDue_of_ports (Part.answer_beyondPorts p l k t r b)
@[simp] theorem Part.answer_ev (p : Part) (l : Link) (k t : Byte) (r : Result) (b : List Byte) : (p.answer l k t r b).ev = p.ev :=
  Part.ev_of_ports (Part.answer_beyondPorts p l k t r b)

/-! ## Part.freePlace -/

@[simp] theorem Part.freePlace_powered (p : Part) (l : Link) : (p.freePlace l).powered = p.powered :=
  Part.powered_of_ports (Part.freePlace_beyondPorts p l)
@[simp] theorem Part.freePlace_elapsed (p : Part) (l : Link) : (p.freePlace l).elapsed = p.elapsed :=
  Part.elapsed_of_ports (Part.freePlace_beyondPorts p l)
@[simp] theorem Part.freePlace_free (p : Part) (l : Link) : (p.freePlace l).free = p.free :=
  Part.free_of_ports (Part.freePlace_beyondPorts p l)
@[simp] theorem Part.freePlace_time (p : Part) (l : Link) : (p.freePlace l).time = p.time :=
  Part.time_of_ports (Part.freePlace_beyondPorts p l)
@[simp] theorem Part.freePlace_table (p : Part) (l : Link) : (p.freePlace l).table = p.table :=
  Part.table_of_ports (Part.freePlace_beyondPorts p l)
@[simp] theorem Part.freePlace_own (p : Part) (l : Link) : (p.freePlace l).own = p.own :=
  Part.own_of_ports (Part.freePlace_beyondPorts p l)
@[simp] theorem Part.freePlace_notices (p : Part) (l : Link) : (p.freePlace l).notices = p.notices :=
  Part.notices_of_ports (Part.freePlace_beyondPorts p l)
@[simp] theorem Part.freePlace_image (p : Part) (l : Link) : (p.freePlace l).image = p.image :=
  Part.image_of_ports (Part.freePlace_beyondPorts p l)
@[simp] theorem Part.freePlace_chain (p : Part) (l : Link) : (p.freePlace l).chain = p.chain :=
  Part.chain_of_ports (Part.freePlace_beyondPorts p l)
@[simp] theorem Part.freePlace_cues (p : Part) (l : Link) : (p.freePlace l).cues = p.cues :=
  Part.cues_of_ports (Part.freePlace_beyondPorts p l)
@[simp] theorem Part.freePlace_clocks (p : Part) (l : Link) : (p.freePlace l).clocks = p.clocks :=
  Part.clocks_of_ports (Part.freePlace_beyondPorts p l)
@[simp] theorem Part.freePlace_inputs (p : Part) (l : Link) : (p.freePlace l).inputs = p.inputs :=
  Part.inputs_of_ports (Part.freePlace_beyondPorts p l)
@[simp] theorem Part.freePlace_store (p : Part) (l : Link) : (p.freePlace l).store = p.store :=
  Part.store_of_ports (Part.freePlace_beyondPorts p l)
@[simp] theorem Part.freePlace_feed (p : Part) (l : Link) : (p.freePlace l).feed = p.feed :=
  Part.feed_of_ports (Part.freePlace_beyondPorts p l)
@[simp] theorem Part.freePlace_resetDue (p : Part) (l : Link) : (p.freePlace l).resetDue = p.resetDue :=
  Part.resetDue_of_ports (Part.freePlace_beyondPorts p l)
@[simp] theorem Part.freePlace_ev (p : Part) (l : Link) : (p.freePlace l).ev = p.ev :=
  Part.ev_of_ports (Part.freePlace_beyondPorts p l)

/-! ## Part.evaluate -/

@[simp] theorem Part.evaluate_powered (p : Part) (i : Nat) (b r : Bool) : (p.evaluate i b r).powered = p.powered :=
  Part.powered_of_clocks (Part.evaluate_beyondClocks p i b r)
@[simp] theorem Part.evaluate_elapsed (p : Part) (i : Nat) (b r : Bool) : (p.evaluate i b r).elapsed = p.elapsed :=
  Part.elapsed_of_clocks (Part.evaluate_beyondClocks p i b r)
@[simp] theorem Part.evaluate_free (p : Part) (i : Nat) (b r : Bool) : (p.evaluate i b r).free = p.free :=
  Part.free_of_clocks (Part.evaluate_beyondClocks p i b r)
@[simp] theorem Part.evaluate_time (p : Part) (i : Nat) (b r : Bool) : (p.evaluate i b r).time = p.time :=
  Part.time_of_clocks (Part.evaluate_beyondClocks p i b r)
@[simp] theorem Part.evaluate_table (p : Part) (i : Nat) (b r : Bool) : (p.evaluate i b r).table = p.table :=
  Part.table_of_clocks (Part.evaluate_beyondClocks p i b r)
@[simp] theorem Part.evaluate_own (p : Part) (i : Nat) (b r : Bool) : (p.evaluate i b r).own = p.own :=
  Part.own_of_clocks (Part.evaluate_beyondClocks p i b r)
@[simp] theorem Part.evaluate_notices (p : Part) (i : Nat) (b r : Bool) : (p.evaluate i b r).notices = p.notices :=
  Part.notices_of_clocks (Part.evaluate_beyondClocks p i b r)
@[simp] theorem Part.evaluate_image (p : Part) (i : Nat) (b r : Bool) : (p.evaluate i b r).image = p.image :=
  Part.image_of_clocks (Part.evaluate_beyondClocks p i b r)
@[simp] theorem Part.evaluate_chain (p : Part) (i : Nat) (b r : Bool) : (p.evaluate i b r).chain = p.chain :=
  Part.chain_of_clocks (Part.evaluate_beyondClocks p i b r)
@[simp] theorem Part.evaluate_cues (p : Part) (i : Nat) (b r : Bool) : (p.evaluate i b r).cues = p.cues :=
  Part.cues_of_clocks (Part.evaluate_beyondClocks p i b r)
@[simp] theorem Part.evaluate_inputs (p : Part) (i : Nat) (b r : Bool) : (p.evaluate i b r).inputs = p.inputs :=
  Part.inputs_of_clocks (Part.evaluate_beyondClocks p i b r)
@[simp] theorem Part.evaluate_feed (p : Part) (i : Nat) (b r : Bool) : (p.evaluate i b r).feed = p.feed :=
  Part.feed_of_clocks (Part.evaluate_beyondClocks p i b r)
@[simp] theorem Part.evaluate_resetDue (p : Part) (i : Nat) (b r : Bool) : (p.evaluate i b r).resetDue = p.resetDue :=
  Part.resetDue_of_clocks (Part.evaluate_beyondClocks p i b r)
@[simp] theorem Part.evaluate_ev (p : Part) (i : Nat) (b r : Bool) : (p.evaluate i b r).ev = p.ev :=
  Part.ev_of_clocks (Part.evaluate_beyondClocks p i b r)

/-! ## Part.evaluateAll -/

@[simp] theorem Part.evaluateAll_powered (p : Part) (b : Bool) : (p.evaluateAll b).powered = p.powered :=
  Part.powered_of_clocks (Part.evaluateAll_beyondClocks p b)
@[simp] theorem Part.evaluateAll_elapsed (p : Part) (b : Bool) : (p.evaluateAll b).elapsed = p.elapsed :=
  Part.elapsed_of_clocks (Part.evaluateAll_beyondClocks p b)
@[simp] theorem Part.evaluateAll_free (p : Part) (b : Bool) : (p.evaluateAll b).free = p.free :=
  Part.free_of_clocks (Part.evaluateAll_beyondClocks p b)
@[simp] theorem Part.evaluateAll_time (p : Part) (b : Bool) : (p.evaluateAll b).time = p.time :=
  Part.time_of_clocks (Part.evaluateAll_beyondClocks p b)
@[simp] theorem Part.evaluateAll_table (p : Part) (b : Bool) : (p.evaluateAll b).table = p.table :=
  Part.table_of_clocks (Part.evaluateAll_beyondClocks p b)
@[simp] theorem Part.evaluateAll_own (p : Part) (b : Bool) : (p.evaluateAll b).own = p.own :=
  Part.own_of_clocks (Part.evaluateAll_beyondClocks p b)
@[simp] theorem Part.evaluateAll_notices (p : Part) (b : Bool) : (p.evaluateAll b).notices = p.notices :=
  Part.notices_of_clocks (Part.evaluateAll_beyondClocks p b)
@[simp] theorem Part.evaluateAll_image (p : Part) (b : Bool) : (p.evaluateAll b).image = p.image :=
  Part.image_of_clocks (Part.evaluateAll_beyondClocks p b)
@[simp] theorem Part.evaluateAll_chain (p : Part) (b : Bool) : (p.evaluateAll b).chain = p.chain :=
  Part.chain_of_clocks (Part.evaluateAll_beyondClocks p b)
@[simp] theorem Part.evaluateAll_cues (p : Part) (b : Bool) : (p.evaluateAll b).cues = p.cues :=
  Part.cues_of_clocks (Part.evaluateAll_beyondClocks p b)
@[simp] theorem Part.evaluateAll_inputs (p : Part) (b : Bool) : (p.evaluateAll b).inputs = p.inputs :=
  Part.inputs_of_clocks (Part.evaluateAll_beyondClocks p b)
@[simp] theorem Part.evaluateAll_feed (p : Part) (b : Bool) : (p.evaluateAll b).feed = p.feed :=
  Part.feed_of_clocks (Part.evaluateAll_beyondClocks p b)
@[simp] theorem Part.evaluateAll_resetDue (p : Part) (b : Bool) : (p.evaluateAll b).resetDue = p.resetDue :=
  Part.resetDue_of_clocks (Part.evaluateAll_beyondClocks p b)
@[simp] theorem Part.evaluateAll_ev (p : Part) (b : Bool) : (p.evaluateAll b).ev = p.ev :=
  Part.ev_of_clocks (Part.evaluateAll_beyondClocks p b)

/-! ## Part.goodReply -/

@[simp] theorem Part.goodReply_powered (p : Part) (q : Poll) (t : Int) (d : Bool) : (p.goodReply q t d).powered = p.powered :=
  Part.powered_of_chain (Part.goodReply_beyondChain p q t d)
@[simp] theorem Part.goodReply_elapsed (p : Part) (q : Poll) (t : Int) (d : Bool) : (p.goodReply q t d).elapsed = p.elapsed :=
  Part.elapsed_of_chain (Part.goodReply_beyondChain p q t d)
@[simp] theorem Part.goodReply_free (p : Part) (q : Poll) (t : Int) (d : Bool) : (p.goodReply q t d).free = p.free :=
  Part.free_of_chain (Part.goodReply_beyondChain p q t d)
@[simp] theorem Part.goodReply_time (p : Part) (q : Poll) (t : Int) (d : Bool) : (p.goodReply q t d).time = p.time :=
  Part.time_of_chain (Part.goodReply_beyondChain p q t d)
@[simp] theorem Part.goodReply_table (p : Part) (q : Poll) (t : Int) (d : Bool) : (p.goodReply q t d).table = p.table :=
  Part.table_of_chain (Part.goodReply_beyondChain p q t d)
@[simp] theorem Part.goodReply_own (p : Part) (q : Poll) (t : Int) (d : Bool) : (p.goodReply q t d).own = p.own :=
  Part.own_of_chain (Part.goodReply_beyondChain p q t d)
@[simp] theorem Part.goodReply_notices (p : Part) (q : Poll) (t : Int) (d : Bool) : (p.goodReply q t d).notices = p.notices :=
  Part.notices_of_chain (Part.goodReply_beyondChain p q t d)
@[simp] theorem Part.goodReply_image (p : Part) (q : Poll) (t : Int) (d : Bool) : (p.goodReply q t d).image = p.image :=
  Part.image_of_chain (Part.goodReply_beyondChain p q t d)
@[simp] theorem Part.goodReply_cues (p : Part) (q : Poll) (t : Int) (d : Bool) : (p.goodReply q t d).cues = p.cues :=
  Part.cues_of_chain (Part.goodReply_beyondChain p q t d)
@[simp] theorem Part.goodReply_clocks (p : Part) (q : Poll) (t : Int) (d : Bool) : (p.goodReply q t d).clocks = p.clocks :=
  Part.clocks_of_chain (Part.goodReply_beyondChain p q t d)
@[simp] theorem Part.goodReply_inputs (p : Part) (q : Poll) (t : Int) (d : Bool) : (p.goodReply q t d).inputs = p.inputs :=
  Part.inputs_of_chain (Part.goodReply_beyondChain p q t d)
@[simp] theorem Part.goodReply_store (p : Part) (q : Poll) (t : Int) (d : Bool) : (p.goodReply q t d).store = p.store :=
  Part.store_of_chain (Part.goodReply_beyondChain p q t d)
@[simp] theorem Part.goodReply_feed (p : Part) (q : Poll) (t : Int) (d : Bool) : (p.goodReply q t d).feed = p.feed :=
  Part.feed_of_chain (Part.goodReply_beyondChain p q t d)
@[simp] theorem Part.goodReply_resetDue (p : Part) (q : Poll) (t : Int) (d : Bool) : (p.goodReply q t d).resetDue = p.resetDue :=
  Part.resetDue_of_chain (Part.goodReply_beyondChain p q t d)
@[simp] theorem Part.goodReply_ev (p : Part) (q : Poll) (t : Int) (d : Bool) : (p.goodReply q t d).ev = p.ev :=
  Part.ev_of_chain (Part.goodReply_beyondChain p q t d)

/-! ## Part.badReply -/

@[simp] theorem Part.badReply_powered (p : Part) (a : Nat) : (p.badReply a).powered = p.powered :=
  Part.powered_of_chain (Part.badReply_beyondChain p a)
@[simp] theorem Part.badReply_elapsed (p : Part) (a : Nat) : (p.badReply a).elapsed = p.elapsed :=
  Part.elapsed_of_chain (Part.badReply_beyondChain p a)
@[simp] theorem Part.badReply_free (p : Part) (a : Nat) : (p.badReply a).free = p.free :=
  Part.free_of_chain (Part.badReply_beyondChain p a)
@[simp] theorem Part.badReply_time (p : Part) (a : Nat) : (p.badReply a).time = p.time :=
  Part.time_of_chain (Part.badReply_beyondChain p a)
@[simp] theorem Part.badReply_table (p : Part) (a : Nat) : (p.badReply a).table = p.table :=
  Part.table_of_chain (Part.badReply_beyondChain p a)
@[simp] theorem Part.badReply_own (p : Part) (a : Nat) : (p.badReply a).own = p.own :=
  Part.own_of_chain (Part.badReply_beyondChain p a)
@[simp] theorem Part.badReply_notices (p : Part) (a : Nat) : (p.badReply a).notices = p.notices :=
  Part.notices_of_chain (Part.badReply_beyondChain p a)
@[simp] theorem Part.badReply_image (p : Part) (a : Nat) : (p.badReply a).image = p.image :=
  Part.image_of_chain (Part.badReply_beyondChain p a)
@[simp] theorem Part.badReply_cues (p : Part) (a : Nat) : (p.badReply a).cues = p.cues :=
  Part.cues_of_chain (Part.badReply_beyondChain p a)
@[simp] theorem Part.badReply_clocks (p : Part) (a : Nat) : (p.badReply a).clocks = p.clocks :=
  Part.clocks_of_chain (Part.badReply_beyondChain p a)
@[simp] theorem Part.badReply_inputs (p : Part) (a : Nat) : (p.badReply a).inputs = p.inputs :=
  Part.inputs_of_chain (Part.badReply_beyondChain p a)
@[simp] theorem Part.badReply_store (p : Part) (a : Nat) : (p.badReply a).store = p.store :=
  Part.store_of_chain (Part.badReply_beyondChain p a)
@[simp] theorem Part.badReply_feed (p : Part) (a : Nat) : (p.badReply a).feed = p.feed :=
  Part.feed_of_chain (Part.badReply_beyondChain p a)
@[simp] theorem Part.badReply_resetDue (p : Part) (a : Nat) : (p.badReply a).resetDue = p.resetDue :=
  Part.resetDue_of_chain (Part.badReply_beyondChain p a)
@[simp] theorem Part.badReply_ev (p : Part) (a : Nat) : (p.badReply a).ev = p.ev :=
  Part.ev_of_chain (Part.badReply_beyondChain p a)

/-! ## Owed station seconds -/

/-- While the second under way has not ended, none is owed. -/
theorem Part.owedSeconds_of_lt (p : Part) (h : p.time.sourceMs < p.time.secondLength) : p.owedSeconds = p := by
  apply times_fixed
  rw [if_neg (Nat.not_le.mpr h)]

/-- What the end of a station second keeps, the ends of all that are owed keep. -/
theorem Part.owedSeconds_all (P : Part → Prop) (h : ∀ q : Part, P q → P q.stationSecond) (p : Part) (hp : P p) :
    P p.owedSeconds := by
  refine times_invariant P _ (fun q hq => ?_) _ p hp
  split
  · exact h q hq
  · exact hq

end Sys2Proof.Machine
end

