-- ==== Sys2Proof/Laws/Requests.lean ====
section
/-! SUPPORT. What the execution of a request comes to, said once: the reply its rule gives, its wait, its refusals. And the end
of an event in the words of Sys2Proof/Safety.lean. -/

namespace Sys2Proof.Machine

/-! ## Requests -/

theorem canExecute_of_executes {s : State} {kind : Nat} {rq : Req} (h : Executes s kind rq) :
    s.part.canExecute rq.link { kind := BitVec.ofNat 8 kind, tag := rq.tag, body := rq.body } = true := by
  obtain ⟨_, hw, hr, hb, _⟩ := h
  unfold Part.canExecute
  rw [hw]
  have h2 : (s.part.resetDue && rq.link == Link.information) = false := by
    rcases Bool.eq_false_or_eq_true s.part.resetDue with h | h
    · cases hl : rq.link with
      | information => exact absurd ⟨h, hl⟩ hr
      | control => simp
    · simp [h]
  rw [h2]
  rcases hb with hb | hb
  · simp [hb]
  · cases hB : (s.part.port rq.link).buffer with
    | nil => simp
    | cons g l =>
      rw [hB] at hb
      have e : g = requestFrame rq kind := by simpa using hb
      simp [e, requestFrame]

theorem kind_add (kind : Nat) : BitVec.ofNat 8 kind + 0x80#8 = BitVec.ofNat 8 (kind + 0x80) := by
  rw [BitVec.ofNat_add]

/-- A request that executes and whose rule replies: the reply is composed on the part its rule leaves. -/
theorem runRequest_reply {α : Type} {kind : Nat} {read : List Byte → Option α} {handler : Link → α → Part → Answer} {rq : Req}
    {s : State} {a : α} {p : Part} {r : Result} {body : List Byte} (he : Executes s kind rq) (hr : read rq.body = some a)
    (hh : handler rq.link a s.part = .reply p r body) :
    act (runRequest kind read handler rq) s = .next (answered s p kind rq r body) := by
  have hc := canExecute_of_executes he
  obtain ⟨hp, _, _, _, hk⟩ := he
  have hn : (rq.link == Link.control && informationKinds.contains kind) = false := by
    cases hl : rq.link with
    | information => rfl
    | control => simpa using hk hl
  unfold answered
  rw [← kind_add]
  unfold act runRequest
  simp only [hp, if_true, hc, hr, hn, hh]
  rfl

/-- A request that executes and whose rule waits: the port waits, and the request keeps its place. -/
theorem runRequest_wait {α : Type} {kind : Nat} {read : List Byte → Option α} {handler : Link → α → Part → Answer} {rq : Req}
    {s : State} {a : α} {p : Part} {w : Waiting} (he : Executes s kind rq) (hr : read rq.body = some a)
    (hh : handler rq.link a s.part = .wait p w) :
    act (runRequest kind read handler rq) s =
      .next { s with part := p.modPort rq.link (·.await (requestFrame rq kind) w) } := by
  have hc := canExecute_of_executes he
  obtain ⟨hp, _, _, _, hk⟩ := he
  have hn : (rq.link == Link.control && informationKinds.contains kind) = false := by
    cases hl : rq.link with
    | information => rfl
    | control => simpa using hk hl
  unfold act runRequest
  simp only [hp, if_true, hc, hr, hn, hh]
  rfl

/-! ## The end of an event -/

/-- The part with other marks of the event under way. -/
def Part.withEv (p : Part) (e : Event) : Part := { p with ev := e }

theorem Part.releaseCue_withEv (p : Part) (e : Event) (c : Cue) : (p.withEv e).releaseCue c = (p.releaseCue c).withEv e := by
  unfold Part.releaseCue Part.tellPlay
  dsimp only
  have h (q r : Part) (hqr : q = r.withEv e) :
      (match c.template, c.service with
        | some .change, some id => q.modRecord id fun r => { r with mark := r.mark.map fun m => { m with announced := true } }
        | _, _ => q) =
      Part.withEv (match c.template, c.service with
        | some .change, some id => r.modRecord id fun r => { r with mark := r.mark.map fun m => { m with announced := true } }
        | _, _ => r) e := by
    subst hqr
    split <;> rfl
  apply h
  split
  · rename_i h1
    rw [if_pos (by exact h1)]
    rfl
  · rename_i h1
    rw [if_neg (by exact h1)]
    rfl

theorem Part.foldl_releaseCue_withEv (l : List Cue) (p : Part) (e : Event) :
    l.foldl Part.releaseCue (p.withEv e) = (l.foldl Part.releaseCue p).withEv e := by
  induction l generalizing p with
  | nil => rfl
  | cons c l ih => rw [List.foldl_cons, List.foldl_cons, Part.releaseCue_withEv, ih]

theorem Part.examine_withEv (p : Part) (e : Event) : (p.withEv e).examine = p.examine.withEv e :=
  Part.foldl_releaseCue_withEv _ _ _

/-- The end of an event reads no mark of the event but whether the Composer was told. -/
theorem Part.finish_eq_ended (p : Part) : p.finish = p.ended p.ev.wallTold := by
  unfold Part.ended Part.finish
  dsimp only
  have h (q : Part) (e : Event) :
      ({ (q.withEv e).nameGenerations.examine with ev := noEvent } : Part) = { q.nameGenerations.examine with ev := noEvent } := by
    have : (q.withEv e).nameGenerations = q.nameGenerations.withEv e := rfl
    rw [this, Part.examine_withEv]
    rfl
  rcases Bool.eq_false_or_eq_true p.ev.wallTold with ht | ht
  · rw [ht]
    exact (h p.recompose _).symm
  · rw [ht]
    exact (h p _).symm

end Sys2Proof.Machine
end

