-- ==== Sys2Proof/Tests/Slice0.lean ====
section
/-! SUPPORT. Tests on small states: the operand checks with an ill-formed command for each, worked values of the specification, and
for every statement with hypotheses a state and operands that meet them (`witness_<statement>`). -/

namespace Sys2Proof.Tests

set_option Elab.async false
set_option synthInstance.maxSize 1024

open Sys2Proof Sys2Proof.Machine

/-! ## Builders -/

/-- The state after power-on reset, with the part changed. -/
def st (f : Part → Part) : State := { part := f Part.reset, pending := [] }

/-- A request on the Information link. -/
def inf (b : List Byte) : Req := { link := .information, tag := 7, body := b }

/-- A request on the Control link. -/
def con (b : List Byte) : Req := { link := .control, tag := 7, body := b }

/-- Running fields on a platform at a status. -/
def on (platform : Option Nat) (status : Status) : Running :=
  { platform := platform, expected := none, unknown := false, status := status }

/-- A service record with an Information copy and perhaps a Control copy. -/
def service (id : Nat) (info : Running) (ctl : Option Running) : Record :=
  { id := id, label := [], sched := 36000, dest := 1, calls := [], autoCue := true, info := info, ctl := ctl, minutes := none,
    late := false, key := 36000, eff := 36000, display := .onTime, announcedDelay := none, mark := none, departedAt := none,
    origin := .noChange }

/-- The part with some records in its table. -/
def withRecords (l : List Record) (p : Part) : Part := { p with table := { p.table with records := l } }

/-- The part with platform `n` Control-owned. -/
def owning (n : Nat) (p : Part) : Part :=
  { p with own := { p.own with platforms := updateAt p.own.platforms (n - 1) fun _ => .control } }

/-- A notice of a kind. -/
def notice (id : Nat) (kind : NoticeKind) (priority : Nat) (svc : Option Nat) : Notice :=
  { id := id, kind := kind, priority := priority, creation := id, service := svc, text := [65], expiry := none, origin := .part }

/-- The part with some notices, the first of them shown. -/
def withNotices (l : List Notice) (p : Part) : Part :=
  { p with notices := { notices := l, nextId := 100, nextCreation := 100,
                        shown := l.head?.map fun n => { id := n.id, page := 1, dwellEnd := 8000 } } }

/-- A cue record in a flight state. -/
def cue (id : Nat) (cls : CueClass) (origin : CueOrigin) (flight : Flight) : Cue :=
  { id := id, cls := cls, origin := origin, arrival := id, service := none, template := none, input := none,
    zones := [(1, .pending)], tokens := [1], required := none, replayed := false, created := 0, flight := flight }

/-- The part with some cue records. -/
def withCues (l : List Cue) (p : Part) : Part := { p with cues := { p.cues with pool := l } }

/-- The part with the panel at a chain address in a state. -/
def withPanel (a : Nat) (state : PanelState) (p : Part) : Part :=
  p.modPanel a fun n => { n with state := state }

/-- The part with the first clock line changed. -/
def withLine (f : ClockLine → ClockLine) (p : Part) : Part := p.modLine 0 f

/-- An impulse in flight. -/
def impulse (driving : Bool) : Impulse :=
  { polarity := .plus, driving := driving, gap := 1000, startedAt := 0, phaseEnd := 1000, openRead := false }

/-- The part with a byte of its working copy changed. -/
def withByte (r off : Nat) (b : Byte) (p : Part) : Part :=
  p.modStore fun s => { s with working := updateAt s.working r fun row => updateAt row off fun _ => b }

/-- The part with station time valid at a second of a day. -/
def timed (day second : Nat) (p : Part) : Part :=
  p.modTime fun t => { t with day := day, second := second, valid := true, serviceDay := some (day - 1) }

/-- The part with the first wall input in a state. -/
def withInput (state : InputState) (asserted : Bool) (timer : Option Nat) (p : Part) : Part :=
  p.modInput 0 fun _ => { asserted := asserted, state := state, timer := timer, acting := false }

/-- Whether a command answers a next state whose part satisfies a check. -/
def leaves (c : Instr) (s : State) (f : Part → Bool) : Bool :=
  match exec c s with
  | .next t => f t.part
  | .fault _ => false
  | .refused _ => false

/-! ## Operands that no command can carry -/

theorem test_illFormed_request_too_long :
    (Instr.requestFrameReceived .control { kind := 1, tag := 0, body := zeros 1021 }).wellFormed = false := by decide +kernel
theorem test_illFormed_body_too_long : (Instr.identify (inf (zeros 1021))).wellFormed = false := by decide +kernel
theorem test_illFormed_length_that_is_permitted : (Instr.frameError .control (.badLength 2)).wellFormed = false := by decide
theorem test_illFormed_length_beyond_two_bytes : (Instr.frameError .control (.badLength 65536)).wellFormed = false := by decide
theorem test_illFormed_known_kind :
    (Instr.unknownKindRequest .control { kind := 0x44, tag := 0, body := [] }).wellFormed = false := by decide
theorem test_illFormed_service_id : (Instr.changeMarkExpiry 0).wellFormed = false := by decide
theorem test_illFormed_notice_id : (Instr.noticeExpiry 256).wellFormed = false := by decide
theorem test_illFormed_pin_of_a_release : (Instr.panelSparePin (inf [1, 0])).wellFormed = false := by decide
theorem test_illFormed_release_of_a_pin : (Instr.panelSpareRelease (inf [0, 1])).wellFormed = false := by decide
theorem test_illFormed_automatic_of_a_release : (Instr.panelSpareAutomatic (inf [1, 1])).wellFormed = false := by decide
theorem test_illFormed_start_of_a_stop : (Instr.wallTestStart (inf [1, 0, 0])).wellFormed = false := by decide
theorem test_illFormed_stop_of_a_start : (Instr.wallTestStop (inf [0, 0, 9])).wellFormed = false := by decide
theorem test_illFormed_insert_of_a_start : (Instr.wallTestInsertError (inf [0, 0, 9])).wellFormed = false := by decide
theorem test_illFormed_cue_id : (Instr.cueAgeOut 0).wellFormed = false := by decide
theorem test_illFormed_cue_id_of_frame : (Instr.cuePortAccept 65536).wellFormed = false := by decide
theorem test_illFormed_zone : (Instr.cuePortZoneState 256 .ok).wellFormed = false := by decide
theorem test_illFormed_window_of_no_bit : (Instr.detectorWindow []).wellFormed = false := by decide
theorem test_illFormed_window_too_long : (Instr.detectorWindow (List.replicate 257 true)).wellFormed = false := by decide +kernel
theorem test_wellFormed_boundaries :
    (Instr.identify (inf (zeros 1020))).wellFormed && (Instr.frameError .control (.badLength 1023)).wellFormed
      && (Instr.detectorWindow [true]).wellFormed && (Instr.detectorWindow (List.replicate 256 true)).wellFormed
      && (Instr.noticeExpiry 255).wellFormed && (Instr.cuePortAccept 65535).wellFormed
      && (Instr.panelSparePin (inf [0, 1])).wellFormed && (Instr.panelSpareRelease (inf [1, 1])).wellFormed
      && (Instr.wallTestStart (inf [0, 0, 9])).wellFormed && (Instr.wallTestStop (inf [1, 0, 0])).wellFormed = true := by
  decide +kernel

/-! ## Worked values -/

theorem test_crc16_of_the_digits : crc16 [0x31, 0x32, 0x33, 0x34, 0x35, 0x36, 0x37, 0x38, 0x39] = 0x29B1 := by decide +kernel
theorem test_default_checks : (List.range 11).map (fun r => crc8 (defaultRow r)) = defaultChecks := by decide +kernel
theorem test_default_rows_are_in_range : ∀ r ∈ List.range 11, clampRow r (defaultRow r) = defaultRow r := by decide +kernel
theorem test_dates_round_trip_at_the_ends : dateOfDay 0 = (2000, 1, 1) ∧ dateOfDay 59 = (2000, 2, 29) ∧
    dateOfDay lastDay = (2099, 12, 31) ∧ dayOfDate 2099 12 31 = some lastDay ∧ dayOfDate 2100 1 1 = none ∧
    dayOfDate 2001 2 29 = none := by decide
theorem test_time_display_convention : hhmm 3 (-60) = chars ['0', '2', ':', '5', '9'] ∧
    hhmm 3 86399 = chars ['0', '2', ':', '5', '9'] := by decide
theorem test_pattern_first_bits : (times 11 patternNext (BitVec.allOnes 11)).getLsbD 0 = false := by decide
theorem test_generations_go_round : countNext countMax = 1 ∧ notOlder 1 countMax = true ∧ notOlder countMax 1 = false ∧
    notOlder 0 1 = false := by decide
theorem test_first_millisecond_probes : step State.reset = exec .pollCycleStart State.reset ∨
    step State.reset = exec .probeTimer State.reset := Or.inr rfl
theorem test_identify_reply_joins_the_line : leaves (.identify (con [])) State.reset
    (fun p => p.ctl.tx.length == 1 && p.ctl.lineEnd.isSome && !p.ctl.resetSeen && p.info.resetSeen) = true := by decide +kernel
theorem test_identify_ends_with_the_spare_state : leaves (.identify (con [])) State.reset (fun p => match p.ctl.tx with
    | [.reply _ _ _ 0 body] => body.drop (body.length - 3) == [12, 1, 2]
    | _ => false) = true := by decide +kernel
theorem test_put_shows_a_service : leaves (.servicePut (inf ([1] ++ be 2 9 ++ be 4 36000 ++ be 4 0xFFFFFFFF ++ [4, 2, 0, 1, 0, 0])))
    State.reset (fun p => p.table.records.map (·.id) == [9] && p.image.generation == 2 &&
      (p.image.lines.map (·.content.service)).contains (some 9)) = true := by decide +kernel
theorem test_heartbeat_twice_is_out_of_sequence : leaves (.heartbeat (inf [0])) (st fun p => { p with feed := { p.feed with
    lastToggle := some 0 } }) (fun p => match p.info.tx with
      | [.reply _ _ _ r _] => r == 16
      | _ => false) = true := by decide +kernel
theorem test_power_loss_tears_the_write : leaves .powerLoss (st fun p => p.askWrite (.save 0))
    (fun p => p.free == 1 && p.store.writes.isEmpty && !p.powered) = true := by decide +kernel

/-! ## Witnesses of the statements' hypotheses -/

theorem witness_EmptyQueueRunsDueEventOrMillisecond :
    (st id).pending = [] ∧ (st fun p => { p with powered := false }).part.powered = false ∧
    (st id).part.due = some .probeTimer ∧
    (st fun p => { p with cues := { p.cues with probeAt := 9 }, chain := { p.chain with nextCycleAt := 9 } }).part.due = none := by
  decide +kernel

theorem witness_EveryCommandCompletesAndKeepsTheQueue :
    (st fun p => { p with powered := false }).part.powered = false ∧ Instr.powerLoss ≠ .powerOnReset ∧
    ∀ i l, Instr.powerLoss ≠ .inputLevelChange i l := ⟨rfl, by decide, by intro i l h; cases h⟩

/-- A CHANGE cue that waits for its required generation. -/
def changeCue : Cue := { cue 5 .change .auto .queued with template := some .change, service := some 1 }

/-- The part with the announcer up and a queued cue at the head of the queue of zone 1. -/
def waitingCue (p : Part) : Part :=
  (withCues [cue 1 .service .information .queued] p).modCues fun q =>
    { q with announcer := .up, queues := updateAt q.queues 0 fun _ => [1] }

theorem witness_EventEndFrame :
    ((withCues [changeCue] Part.reset).cues.pool.map (·.id)).Nodup ∧
    (((withCues [changeCue] Part.reset).ended false).cues.pool.map (·.required)) = [some 1] ∧
    Part.reset.image.lines.length = 48 ∧
    ((waitingCue Part.reset).ended false).cues.pool.map (·.flight) = [.sent 2000] ∧
    ((waitingCue Part.reset).ended false).cues.zone 1 = .playing 1 ∧
    ((waitingCue Part.reset).ended false).cues.tx = [.play 0 1 [1] [1]] ∧
    ((waitingCue Part.reset).cues.pool.all fun c => c.zones.all fun z => 1 ≤ z.1 && z.1 ≤ 8) = true := by decide +kernel

/-- A part whose input 1 is in ACT mode with banner text A and blanking, in a state. -/
def acting (state : InputState) (p : Part) : Part := withByte 5 16 22 (withInput state true none p)

theorem witness_EventEndFrame_lines :
    let r : Record := { service 1 (on (some 2) .normal) none with mark := some { original := 1, expiry := 9, announced := false } }
    let p := withByte 2 3 2 (withByte 2 4 42 (withByte 2 5 81 (withRecords [r] Part.reset)))
    [p.cfg 2 0, p.cfg 2 1, p.cfg 2 2, p.cfg 2 3, p.cfg 2 4, p.cfg 2 5, p.cfg 3 9] = [0, 1, 2, 2, 42, 81, 41] ∧ 81 < p.cfg 3 10 ∧
    ((p.composeAll.take 6).map (·.role)) = [.banner, .clock, .departure 1, .blank, .detail 1, .detail 40] ∧
    ((p.composeAll.take 6).map (·.service)) = [none, none, some 1, none, some 1, none] ∧
    (p.composeAll.take 3).map (fun x => (x.blink.getLsbD 16, x.blink.getLsbD 13)) =
      [(false, false), (false, false), (true, false)] ∧
    ((acting .active p).inputConfig 0).mode = .act ∧ ((acting .active p).inputConfig 0).banner = .textA ∧
    ((acting .active p).inputConfig 0).blank = true ∧ (acting .active p).bannerSource = .input 1 ∧
    (((acting .active p).composeAll.take 6).map (·.service)) = [none, none, none, none, none, none] ∧
    (acting .qualifying p).bannerSource = .blank ∧
    ({ p with feed := { p.feed with state := .lost } } : Part).bannerSource = .fallback ∧
    ({ p with own := { p.own with bannerInfo := { emptyShadow with enabled := true } } } : Part).bannerSource = .override ∧
    (withNotices [notice 1 .change 1 (some 1)] p).bannerSource = .rotation ∧
    (withNotices [notice 1 .change 1 (some 1)] p).notices.byId 1 = some (notice 1 .change 1 (some 1)) ∧
    ((notice 1 .change 1 (some 1)).service.bind (withNotices [notice 1 .change 1 (some 1)] p).record?) = some r := by
  decide +kernel

theorem witness_LatchingSetsFlagAndSubject :
    (Part.reset.port .control).subjects.length = 29 ∧ EventKind.resetDone ≠ .settingsFault := by decide +kernel

theorem witness_BothResetsEmptyTheTables : (st id).part.powered = true := by decide

/-- A stored row 5 in which input 1 is in ACT mode, with its check byte. -/
def actRow : StoredRow :=
  let bytes := updateAt (defaultRow 5) 16 fun _ => 2
  { bytes := bytes, check := crc8 bytes, saves := 1, failed := false, worn := false }

/-- A part whose stored settings hold that row, and whose input 1 is asserted. -/
def actPart (p : Part) : Part :=
  (withInput .idle true none p).modStore fun s => { s with stored := updateAt s.stored 5 fun _ => actRow }

theorem witness_PowerOnResetLeaves :
    (st actPart).part.inputs.length = 4 ∧
    leaves .powerOnReset (st actPart) (fun p => (p.inputConfig 0).mode == .act && (p.input 0).asserted &&
      (p.inputConfig 1).mode == .off && !p.clocks.recordValid) = true := by decide +kernel

/-- A stored row 10 whose record is valid, line 1 at position 5 with polarity MINUS. -/
def parkRow : StoredRow :=
  let bytes : List Byte := [1, 0, 5, 1] ++ zeros 60
  { bytes := bytes, check := crc8 bytes, saves := 1, failed := false, worn := false }

theorem witness_PowerOnResetLeaves_polarity :
    leaves .powerOnReset (st fun p => p.modStore fun s => { s with stored := updateAt s.stored 10 fun _ => parkRow }) (fun p =>
      p.clocks.recordValid && byteField (p.row 10) 3 == 1 && (p.clocks.line 0).polarity == .minus &&
        (p.clocks.line 1).polarity == .plus) = true := by decide +kernel

theorem witness_SoftResetKeeps :
    let s := st fun p => (withLine (fun k => { k with impulse := some (impulse true) }) (actPart p)).modStore fun s =>
      { s with working := updateAt s.working 5 fun _ => actRow.bytes }
    s.part.powered = true ∧ s.part.clocks.lines.length = 4 ∧ (s.part.clocks.line 0).impulse.isSome = true ∧
    (s.part.inputConfig 0).mode ≠ .off ∧
    leaves .softReset s (fun p => (p.inputConfig 0).mode == .act && p.cues.pool.isEmpty) = true ∧
    (s.part.edgeLimit .control = none) ∧ s.part.resetDue = false ∧
    (st fun p => { p with ctl := { p.ctl with waiting := some (.edge 3 2) } }).part.edgeLimit .control = some 2 ∧
    (st fun p => p.askWrite (.save 3)).part.store.writes = [.save 3] ∧
    ((st (withLine fun k => { k with state := .parked })).part.clocks.line 0).impulse = none ∧
    ((st (withLine fun k => { k with state := .faultedOpen })).part.clocks.line 0).isFaulted = true := by decide +kernel

/-- The reply to a RESET_PART. -/
def resetReply : OutFrame := .reply 0x85 7 0 0 []

/-- A part that has answered RESET_PART, with its frames and the end of the one being sent. -/
def leaving (tx : List OutFrame) (lineEnd : Option Nat) (p : Part) : Part :=
  { p with resetDue := true, info := { p.info with tx := tx, lineEnd := lineEnd } }

theorem witness_SoftResetKeeps_reply :
    (leaving [resetReply] none Part.reset).sendResetReply.elapsed = resetReply.duration 3 ∧
    (leaving [resetReply] (some 5) Part.reset).sendResetReply.elapsed = 5 ∧
    (leaving [.notice 0 1, resetReply] (some 5) Part.reset).sendResetReply.elapsed = 5 + resetReply.duration 3 ∧
    resetReply.isResetReply = true ∧ (OutFrame.notice 0 1).isResetReply = false ∧
    leaves .softReset (st (leaving [resetReply] (some 5))) (fun p => p.elapsed == 5 && p.info.tx.isEmpty) = true := by
  decide +kernel

theorem witness_CycleBeginsWithPositionOne :
    ∀ r ∈ [ChainReset.discarded, .complete],
      let c : Chain := { Part.reset.chain with reset := r }
      c.polled = 1 :: (numbersFrom 2 11 ++ [13]) ∧ c.poll = none ∧ c.cycleRest = [] ∧ c.test.isRunning = false := by
  decide +kernel

theorem witness_PowerLossEndsActivity :
    (st id).part.powered = true ∧ (st id).part.store.writes = [] ∧
    (st fun p => p.askWrite (.save 3)).part.store.writes = [.save 3] ∧ 2 ≠ (StoreWrite.save 3).row := by decide +kernel

/-- A part that holds `n` requests on the Control link. -/
def holding (n : Nat) (p : Part) : Part :=
  { p with ctl := { p.ctl with buffer := List.replicate n { kind := 1, tag := 0, body := [] } } }

theorem witness_FramesReceivedAndNoticeFrameSent :
    (st (holding 3)).part.powered = true ∧ ((st (holding 3)).part.port .control).buffer.length < 4 ∧
    4 ≤ ((st (holding 4)).part.port .control).buffer.length ∧ knownKind 0x7E = false ∧ knownKind 0x01 = true ∧
    ((st fun p => p.latchNat .feedLost 0).part.port .control).noticeDue = false ∧
    ((st fun p => { p with ctl := { p.ctl with noticeDue := true } }).part.port .control).noticeDue = true := by decide +kernel

/-- A Control port that sends a reply until 9 ms, another composed behind it, with a notice frame that waits or not. -/
def sending (due : Bool) (p : Part) : Part :=
  { p with ctl := { p.ctl with tx := [resetReply, resetReply], lineEnd := some 9, noticeDue := due, rate := 0 } }

theorem witness_FramesReceivedAndNoticeFrameSent_line :
    let d := resetReply.duration 0
    let n := (OutFrame.notice 0 0).duration 0
    let at' (due : Bool) (t : Nat) : Port := ((sending due Part.reset).advanceTo t).ctl
    (at' false 8).lineEnd = some 9 ∧ (at' false 9).lineEnd = some (9 + d) ∧ (at' false 9).tx = [resetReply] ∧
    (at' false (9 + d)).tx = [] ∧ (at' false (9 + d)).lineEnd = none ∧
    (at' true 9).noticeDue = true ∧ (at' true 9).tx = [resetReply] ∧ (at' true 9).lineEnd = none ∧
    (at' true 10).noticeDue = false ∧ (at' true 10).lineEnd = some (9 + n) ∧ (at' true 10).tx.length = 2 ∧
    (at' true (9 + n)).tx = [resetReply] ∧ (at' true (9 + n)).lineEnd = some (9 + n + d) ∧
    leaves (.noticeFrameSend .control) (st (sending true)) (fun p => p.elapsed == 9 && p.ctl.tx.length == 2) = true ∧
    leaves .probeTimer (st fun p => (sending false p).modCues fun q => { q with probeAt := 10 })
      (fun p => p.ctl.tx == [resetReply] && p.ctl.lineEnd == some (9 + d)) = true := by decide +kernel

theorem witness_FrameErrorCountsAndLatchesOnItsLink : (st id).part.powered = true := by decide

theorem witness_RequestChecksComeFirst :
    (st id).part.canExecute .control { kind := 0, tag := 0, body := [] } = true ∧ knownKind 0 = false ∧
    (st id).part.canExecute .control { kind := 0x01, tag := 0, body := [0] } = true ∧ fixedLength 0x01 = some 0 ∧
    (st id).part.canExecute .control { kind := 0x04, tag := 0, body := [0] } = true ∧ fixedLength 0x04 = some 1 ∧
    0x04 ∈ informationKinds ∧
    (∀ k ∈ [(0x10 : Byte), 0x12, 0x15, 0x18, 0x1B, 0x28, 0x41],
      (st id).part.canExecute .control { kind := k, tag := 0, body := [] } = true) ∧
    (∀ k ∈ [0x10, 0x12, 0x15, 0x41], k ∈ informationKinds) ∧
    readServicePut [1] = none ∧ (readServicePut (1 :: (be 2 9 ++ be 4 36000 ++ be 4 0xFFFFFFFF ++ [4, 2, 0, 1, 0, 0]))).isSome ∧
    readServiceRemove [1, 0] = none ∧ (readServiceRemove [1, 0, 9]).isSome ∧ readNameLoad [0, 1, 2, 65] = none ∧
    (readNameLoad [0, 1, 1, 65]).isSome ∧ readNoticePost [0, 0, 0, 0, 9, 2, 65] = none ∧
    (readNoticePost [0, 0, 0, 0, 9, 1, 65]).isSome ∧ readBannerSet [0, 0, 0, 0, 9] = none ∧
    (readBannerSet [0, 0, 0, 0, 9, 0]).isSome ∧ readCuePost [0, 1, 0, 0, 0, 1, 0] = none ∧
    (readCuePost [0, 1, 0, 0, 0, 1, 0, 1]).isSome ∧ readSettingsWrite [0, 0] = none ∧
    (readSettingsWrite (0 :: 0 :: zeros 64)).isSome ∧ readSettingsWrite (0 :: 0 :: zeros 65) = none := by decide +kernel

theorem witness_EventSetReadClearedAndMasked :
    Executes (st id) 0x02 (con (setBytes 1)) ∧ ((st id).part.port .control).subjects.length = 29 ∧
    Executes (st id) 0x03 (con (setBytes 0x20000000)) ∧ 0x1FFFFFFF < (0x20000000 : BitVec 32).toNat ∧
    Executes (st id) 0x03 (con (setBytes 0x1FFFFFFF)) ∧ (0x1FFFFFFF : BitVec 32).toNat ≤ 0x1FFFFFFF := by decide +kernel

theorem witness_ResetPartStopsTheInformationPort : Executes (st id) 0x05 (inf []) := by decide +kernel

/-- The part with a feed state and a last taken toggle. -/
def fed (state : FeedState) (toggle : Option Nat) (p : Part) : Part :=
  { p with feed := { p.feed with state := state, lastToggle := toggle } }

theorem witness_HeartbeatTakenOrOutOfSequence :
    (∀ t ∈ [(0 : Byte), 1, 2], Executes (st (fed .stale (some 0))) 0x04 (inf [t])) ∧ 1 < (2 : Byte).toNat ∧
    (st (fed .stale (some 0))).part.feed.lastToggle = some (0 : Byte).toNat ∧
    (st (fed .stale (some 0))).part.feed.lastToggle ≠ some (1 : Byte).toNat ∧
    (∀ f ∈ [FeedState.live, .stale, .lost], Executes (st (fed f none)) 0x04 (inf [0]) ∧ (st (fed f none)).part.feed.state = f ∧
      (st (fed f none)).part.feed.lastToggle ≠ some 0) := by decide +kernel

theorem witness_FeedTimersExpireAndPurge :
    (let p := withCues [cue 1 .service .auto .queued, cue 2 .service .auto .queued] Part.reset;
      (p.cues.pool.map (·.id)).Nodup ∧ (p.cues.pool.all fun c => p.orphaned c) = true) ∧
    (st id).part.powered = true ∧ (st id).part.feed.heartbeatAt = some 15000 ∧
    (st fun p => { p with feed := { p.feed with staleAt := some 3 } }).part.feed.staleAt = some 3 := by decide +kernel

theorem witness_FeedTimersExpireAndPurge_subject :
    let p := withCues [cue 1 .service .auto .queued, cue 2 .change .auto .queued, cue 3 .service .control .queued] Part.reset
    (p.port .control).subjects.length = 29 ∧ countLower (cue 1 .service .auto .queued).arrival (cue 2 .change .auto .queued).arrival
      = true ∧
    (p.purgeAuto.port .control).isLatched .cueDropped = true ∧ (p.purgeAuto.port .control).subject .cueDropped = 2 ∧
    p.purgeAuto.cues.pool.map (·.id) = [3] := by decide +kernel

theorem witness_AssignChecksAndWallWideEffect :
    (∀ l ∈ [[(0 : Byte), 0], [45, 0], [32, 2], [33, 3], [44, 0], [1, 1], [41, 1], [40, 2]], Executes (st id) 0x06 (con l)) ∧
    (∀ c ∈ [(0 : Byte), 45], c.toNat = 0 ∨ 44 < c.toNat) ∧
    resourceOf 32 = some (.platform 32) ∧ 1 < (2 : Byte).toNat ∧ resourceOf 33 = some (.zone 1) ∧ 2 < (3 : Byte).toNat ∧
    resourceOf 44 = some .wall ∧ (0 : Byte).toNat = (st id).part.holds .wall ∧
    resourceOf 1 = some (.platform 1) ∧ (1 : Byte).toNat ≠ (st id).part.holds (.platform 1) ∧ (st id).part.feed.state = .live ∧
    resourceOf 40 = some (.zone 8) ∧ (Resource.zone 8).allows 2 = true ∧ (st (fed .stale none)).part.holds (.zone 8) ≠ 2 ∧
    (st (fed .stale none)).part.feed.state ≠ .live ∧ Executes (st (fed .stale none)) 0x06 (con [40, 2]) := by decide +kernel

theorem witness_SeizureMakesControlCopies :
    let s := st (withRecords [service 1 (on (some 32) .normal) none])
    Executes s 0x06 (inf [32, 1]) ∧ s.part.own.platforms.length = 32 ∧ s.part.controlOwned 32 = false := by decide +kernel

/-- A part in which the Control link owns platform 2 and one record holds a Control copy there. -/
def seized (p : Part) : Part :=
  owning 2 (withRecords [service 1 (on (some 1) .normal) (some (on (some 2) .normal))] p)

theorem witness_tables_seized : (seized Part.reset).table.ok ∧ (seized Part.reset).copiesOk := by
  refine ⟨?_, ?_⟩
  · unfold Table.ok
    decide +kernel
  · refine ⟨by decide +kernel, ?_⟩
    intro r hr
    have e : r = service 1 (on (some 1) .normal) (some (on (some 2) .normal)) := by simpa [seized, owning, withRecords] using hr
    subst e
    refine ⟨?_, ?_, ?_⟩
    · intro n h
      cases h
      omega
    · intro c h n hn
      cases h
      cases hn
      omega
    · show (seized Part.reset).controlOwned 2 = true
      decide +kernel

theorem witness_ReturnDropsControlCopies :
    Executes (st seized) 0x06 (inf [2, 0]) ∧ (st seized).part.own.platforms.length = 32 ∧
    (st seized).part.controlOwned 2 = true := by decide +kernel

/-- The part with a reference state, the last valid telegram having come a second ago. -/
def refAt (r : RefState) (p : Part) : Part :=
  { p with
    elapsed := 1000
    time := { p.time with ref := r, lastValid := some { arrival := 0, announced := 86399 } } }

/-- A TIME_SET body for a day of February 2004. -/
def timeBody (d sec : Nat) (flags : Byte) : List Byte := be 2 2004 ++ be 1 2 ++ be 1 d ++ be 4 sec ++ [flags]

theorem witness_TimeSetStepsStationTime :
    Executes (st id) 0x09 (con (timeBody 29 0 0)) ∧ (st id).part.own.time ≠ .control ∧
    Executes (st id) 0x09 (inf (timeBody 30 0 0)) ∧ dayOfDate 2004 2 30 = none ∧
    Executes (st id) 0x09 (inf (timeBody 29 86400 0)) ∧ (st id).part.own.time = .information ∧
    Executes (st (refAt (.locked 0 []))) 0x09 (inf (timeBody 29 86399 0)) ∧ (dayOfDate 2004 2 29).isSome = true ∧
    (st (refAt (.locked 0 []))).part.time.ref.isLocked = true ∧ (0 : Byte).getLsbD 0 = false ∧
    Executes (st (timed 1 90)) 0x09 (inf (timeBody 29 86399 1)) ∧ (1 : Byte).getLsbD 0 = true ∧
    (st (timed 1 90)).part.time.valid = true ∧ (st (timed 1 90)).part.time.serviceDay = some 0 := by decide +kernel

/-- The part counting from the derived source, a TIMEBASE_SELECT waiting on the Information link or none. -/
def derived (elapsed : Nat) (waits : Option Waiting) (p : Part) : Part :=
  { p with elapsed := elapsed, time := { p.time with source := .derived }, info := { p.info with waiting := waits } }

theorem witness_TimebaseSelectEdgeAndGap :
    Executes (st id) 0x0A (con []) ∧ (st id).part.own.time ≠ .control ∧ Executes (st id) 0x0A (inf []) ∧
    (st id).part.time.source = .oscillator ∧ Executes (st (derived 9999 none)) 0x0A (inf []) ∧
    (st (derived 9999 none)).part.runningTime < 10000 ∧ Executes (st (derived 10000 none)) 0x0A (inf []) ∧
    10000 ≤ (st (derived 10000 none)).part.runningTime ∧ (st (derived 10000 none)).part.time.source = .derived ∧
    ((st (derived 10000 (some (.edge 3 10000)))).part.port .information).waiting = some (.edge 3 10000) ∧
    some .oscillatorGap ∈ (st (derived 10000 (some (.edge 3 10000)))).part.dueInTime ∧
    leaves .timebaseSelectEdge (st (derived 9999 (some (.edge 3 10000)))) (fun p => p.time.source == .oscillator) = true ∧
    leaves .timebaseSelectEdge (st (derived 10001 (some (.edge 3 10000)))) (fun p => p.time.source == .derived) = true := by
  decide +kernel

/-- The telegram of the first second of 2000-01-02. -/
def telegram : List Byte := [0, 1, 2, 0, 0, 0, 253]

theorem witness_TelegramsQualifyAndReferenceTimersExpire :
    telegramSeconds [] = none ∧ telegramSeconds telegram = some 86400 ∧ (st id).part.time.ref = .absent ∧
    (st (refAt (.qualifying 3))).part.inStep 86400 = true ∧ (st (refAt (.qualifying 3))).part.inStep 86401 = false ∧
    (st (refAt (.qualifying 3))).part.time.ref = .qualifying 3 ∧ (st (refAt (.holdover 5))).part.time.ref = .holdover 5 ∧
    (st (refAt (.locked 0 []))).part.time.lastValid = some { arrival := 0, announced := 86399 } := by decide +kernel

theorem witness_TelegramsQualifyAndReferenceTimersExpire_valid : telegramLaw telegram 86400 ∧
    telegramSeconds [0, 2, 29, 23, 59, 59, 84] = some 5183999 ∧ telegramSeconds [1, 2, 29, 23, 59, 59, 83] = none ∧
    telegramSeconds [99, 12, 31, 23, 59, 59, 229] = some (lastDay * 86400 + 86399) ∧
    telegramSeconds [100, 1, 1, 0, 0, 0, 154] = none ∧ telegramSeconds [0, 1, 2, 0, 0, 0, 252] = none ∧
    (∀ x ∈ [(979, false), (980, true), (1020, true), (1021, false)],
      ({ refAt (.qualifying 3) Part.reset with elapsed := x.1 } : Part).inStep 86400 = x.2) := by
  exact ⟨⟨0, 1, 2, 0, 0, 0, 253, by decide⟩, by decide +kernel⟩

theorem witness_LockedTelegramsCorrectStationTime :
    let off (s : State) : Int := (86400 : Int) * 1000 - s.part.owedSeconds.time.instant
    let lock (n : Nat) (run : List Int) (day sec : Nat) := st fun p => timed day sec (refAt (.locked n run) p)
    (st (refAt (.qualifying 4))).part.inStep 86400 = true ∧ (st (refAt (.qualifying 4))).part.time.valid = false ∧
    (off (st fun p => timed 1 2 (refAt (.qualifying 4) p))).natAbs ≤ 2000 ∧
    2000 < (off (st fun p => timed 1 3 (refAt (.qualifying 4) p))).natAbs ∧
    (off (lock 0 [-90000] 1 2)).natAbs ≤ 2000 ∧ (lock 0 [-90000] 1 2).part.time.valid = true ∧
    (lock 0 [-90000, -90500] 1 90).part.inStep 86400 = true ∧ 2000 < (off (lock 0 [-90000, -90500] 1 90)).natAbs ∧
    (∀ o ∈ [(-90000 : Int), -90500], (o - off (lock 0 [-90000, -90500] 1 90)).natAbs ≤ 1000) ∧
    ((st fun p => { (refAt (.locked 4 []) (timed 1 0 p)) with elapsed := 2500 }).part.inStep 86400) = false := by
  decide +kernel

theorem witness_LockedTelegramsCorrectStationTime_runs :
    let lock (elapsed n : Nat) (run : List Int) := st fun p => { timed 1 90 (refAt (.locked n run) p) with elapsed := elapsed }
    let now (s : State) : Timebase := (s.part.owedSeconds.advanceTo (s.part.elapsed + 21)).owedSeconds.time
    let gives (s : State) (r : RefState) (glitches : Nat) := leaves (.referenceTelegram telegram) s fun p =>
      p.time.ref == r && p.time.glitches == glitches
    (now (st (refAt (.locked 0 [5])))).valid = false ∧ gives (st (refAt (.locked 0 [5]))) (.locked 0 []) 0 = true ∧
    (now (lock 1000 0 [])).valid = true ∧ (lock 1000 0 []).part.inStep 86400 = true ∧ (lock 2500 0 []).part.inStep 86400 = false ∧
    gives (lock 1000 0 []) (.locked 0 [-90000]) 0 = true ∧ gives (lock 1000 0 [-89000]) (.locked 0 [-89000, -90000]) 0 = true ∧
    gives (lock 1000 0 [-88999]) (.locked 0 [-90000]) 1 = true ∧ gives (lock 2500 3 [0, 0]) (.locked 4 [-90000]) 2 = true ∧
    gives (lock 2500 4 [0, 0]) (.holdover 2521) 3 = true := by decide +kernel

theorem witness_TelegramsQualifyAndReferenceTimersExpire_late :
    let lock (elapsed : Nat) := st fun p => { refAt (.locked 0 [5]) p with elapsed := elapsed }
    let gives (s : State) (r : RefState) (glitches : Nat) (left : Bool) := leaves (.referenceTelegram telegram) s fun p =>
      p.time.ref == r && p.time.glitches == glitches && p.ctl.isLatched .timeLockChanged == left
    0 + 3000 < (lock 3001).part.elapsed ∧ (lock 3000).part.elapsed ≤ 0 + 3000 ∧
    gives (lock 3001) (.qualifying 1) 1 true = true ∧ gives (lock 3000) (.locked 1 []) 0 false = true ∧
    leaves (.referenceTelegram [1]) (lock 3001) (fun p => p.time.ref == .locked 0 [5]) = true := by decide +kernel

/-- A locked part, two agreeing large offsets behind it, whose station second of day 1 has 10 ms left. -/
def nearlyOver (second : Nat) (p : Part) : Part :=
  (refAt (.locked 0 [-3600000, -3600000]) (timed 1 second p)).modTime fun t => { t with sourceMs := 990 }

theorem test_second_that_ends_in_the_gap_ends_before_the_step :
    leaves (.referenceTelegram telegram) (st (nearlyOver 3599)) (fun p => p.time.day == 1 && p.time.second == 0 &&
      p.time.sourceMs == 21 && p.time.serviceDay == some 0 && p.ctl.isLatched .timeStepped) = true ∧
    leaves (.referenceTelegram telegram) (st fun p => (refAt .absent (timed 1 10799 p)).modTime fun t => { t with sourceMs := 990 })
      (fun p => p.time.second == 10800 && p.time.sourceMs == 11 && p.time.serviceDay == some 1) = true ∧
    leaves (.timeSet (inf (be 2 2000 ++ [1, 2] ++ be 4 0 ++ [0]))) (st fun p => (timed 1 10799 p).modTime fun t => { t with sourceMs := 1500 })
      (fun p => p.ctl.isLatched .rolloverDone && p.time.sourceMs == 0) = true ∧
    (nearlyOver 3599 Part.reset).time.sourceMs < (nearlyOver 3599 Part.reset).time.secondLength ∧
    ((nearlyOver 3599 Part.reset).advanceTo 1010).time.secondLength ≤ ((nearlyOver 3599 Part.reset).advanceTo 1010).time.sourceMs := by
  decide +kernel

/-- A second slewed forward is over and 1010 ms of source time stand in it: the second that follows is of 1000 ms, and is owed too. -/
theorem test_owed_seconds_end_before_the_instant_is_captured :
    leaves (.referenceTelegram telegram) (st fun p => (refAt .absent (timed 0 86398 p)).modTime fun t =>
        { t with sourceMs := 1995, secondLength := 990, slew := some 15 }) (fun p => p.time.lastOffset == some (-5) &&
      p.time.day == 1 && p.time.second == 0 && p.time.sourceMs == 26 && p.time.secondLength == 1000) = true := by decide +kernel

theorem witness_StationSecondAdvances :
    (st (timed 36524 86399)).part.powered = true ∧ (st (timed 36524 86399)).part.time.second = 86399 ∧
    (st (timed 36524 86399)).part.time.day = 36524 ∧ (st id).part.time.slew = none ∧ (st id).part.time.valid = false ∧
    (let t := (st (fun p => p.modTime fun t => { t with slew := some (-30), secondLength := 1010 })).part.time;
      t.slew = some (-30) ∧ 10 < (-30 : Int).natAbs ∧ t.secondLength = (if (0 : Int) < -30 then 990 else 1010)) ∧
    (∀ x ∈ [(10799, true), (10798, false)],
      leaves .stationSecond (st (timed 1 x.1)) (fun p => p.time.serviceDay == some (if x.2 then 1 else 0)) = true ∧
      (decide ((86400 : Int) ≤ (1 * 86400 + (x.1 + 1) : Nat) - (0 * 86400 + 3 * 3600)) = x.2)) ∧
    (st (timed 1 59)).part.time.valid = true ∧ (59 + 1) % 60 = 0 := by
  decide +kernel

theorem witness_RolloverShiftsTheTable :
    let p := timed 1 0 (withRecords [service 1 (on none .normal) none] Part.reset)
    p.time.serviceDay = some 0 ∧ (p.table.records.map (·.id)).Nodup ∧ (p.port .control).subjects.length = 29 := by
  decide +kernel

theorem witness_RolloverShiftsTheTable_kept :
    let late (c : Running) : Running := { c with expected := some 90000 }
    let r : Record := { service 1 (late (on none .normal)) (some (late (on (some 2) .normal))) with
      sched := 90000, eff := 90000, key := 90000 }
    let q := (timed 1 0 (withRecords [r] Part.reset)).rollover
    q.table.records.map (fun x => x.ctl.map (·.expected)) = [some (some 3600)] ∧
      q.table.records.map (·.eff) = [3600] := by decide +kernel

/-- A record with an expected departure. -/
def expecting (e : Int) (late : Bool) : Record :=
  { service 1 { (on (some 1) .normal) with expected := some e } none with late := late }

theorem witness_DelayMinutesAndShownLateFlag :
    (service 1 (on none .normal) none).running.expected = none ∧ (expecting 36000 false).running.expected = some 36000 ∧
    (expecting 36000 false).running.unknown = false ∧ (Part.reset.computed (expecting 36090 false)).minutes = some 2 ∧
    (Part.reset.computed (expecting 36089 true)).minutes = some 1 ∧ Part.reset.hystH ≤ Part.reset.lateL ∧
    (withByte 1 1 3 Part.reset).lateL < (withByte 1 1 3 Part.reset).hystH ∧
    999 < ((95940 + 60 : Int) - 36000 + 30) / 60 ∧ (Part.reset.computed (expecting 96000 true)).late = true := by decide +kernel

theorem witness_DisplayStateDepartureAndKey :
    (∀ st ∈ [Status.departed, .cancelled, .closed, .boarding], (service 1 (on none st) none).running.status = st) ∧
    (service 1 { (on none .normal) with unknown := true } none).running.unknown = true ∧
    (Part.reset.computed (expecting 36180 false)).late = true ∧ (Part.reset.computed (expecting 36180 false)).minutes = some 3 ∧
    (Part.reset.computed (expecting 36000 false)).late = false ∧ 0 < Part.reset.reseqQ ∧
    (Part.reset.computed (expecting 37200 false)).minutes = some Part.reset.reseqQ ∧
    (Part.reset.computed (expecting 37140 false)).minutes = some (Part.reset.reseqQ - 1) ∧
    (∀ x ∈ [(Status.departed, Display.departed), (.cancelled, .cancelled), (.closed, .closed), (.boarding, .boarding),
      (.normal, .onTime)], (Part.reset.computed (service 1 (on none x.1) none)).display = x.2) ∧
    (Part.reset.computed (service 1 { (on none .normal) with unknown := true } none)).display = .delayed ∧
    (Part.reset.computed (expecting 36180 false)).display = .expected 3 := by decide +kernel

theorem witness_RetireInstant :
    ({ service 1 (on none .departed) none with departedAt := some 5 } : Record).departedAt = some 5 ∧
    (service 1 (on none .cancelled) none).running.status = .cancelled ∧
    (service 1 (on none .closed) none).running.status = .closed := by decide +kernel

/-- A record of a SERVICE_PUT body. -/
def put (id status : Nat) (platform : Option Nat) : PutRecord :=
  { id := id, sched := 36000, expected := none, platform := platform, unknown := false, autoCue := true, status := status,
    dest := 1, label := [], calls := [] }

theorem witness_PutRefusals :
    (Part.reset.putOne (put 0 0 none)).2 = .invalidField ∧ (Part.reset.putOne (put 1 3 none)).2 = .invalidField ∧
    ((owning 2 Part.reset).putOne (put 1 0 (some 2))).2 = .notOwner ∧
    ((withRecords ((List.range 96).map fun i => service (i + 2) (on none .normal) none) Part.reset).putOne (put 1 0 none)).2
      = .tableFull ∧
    ((withRecords [service 1 (on none .normal) none] Part.reset).putOne (put 1 2 none)).2 = .invalidField ∧
    ((withRecords ((List.range 96).map fun i => service (i + 1) (on none .normal) none) Part.reset).putOne (put 1 0 none)).2
      = .ok ∧
    ((owning 2 (withRecords ((List.range 96).map fun i => service (i + 2) (on none .normal) none) Part.reset)).putOne
      (put 1 0 (some 2))).2 = .notOwner ∧
    ((withRecords [service 1 (on (some 1) .normal) (some (on (some 2) .normal))] (owning 2 Part.reset)).putOne
      (put 1 0 (some 2))).2 = .ok := by decide +kernel

/-- The bytes of a SERVICE_PUT record with service id 9. -/
def putBytes : List Byte := be 2 9 ++ be 4 36000 ++ be 4 0xFFFFFFFF ++ [4, 2, 0, 1, 0, 0]

theorem witness_ServicePutAnswersEachRecordAndCreates :
    Executes (st id) 0x10 (inf [0]) ∧ readServicePut [0] = some [] ∧
    (readServicePut (9 :: (List.replicate 9 putBytes).flatten)).map List.length = some 9 ∧
    readServicePut (1 :: putBytes) = some [put 9 0 (some 4)] ∧ (st id).part.table.records.length < 96 ∧
    (st id).part.record? 9 = none ∧ ((st id).part.putOne (put 9 0 (some 4))).2 = .ok ∧ statusOfCode 0 = some .normal := by
  decide +kernel

theorem witness_tables_at_reset : Part.reset.table.ok := by
  unfold Table.ok
  decide +kernel

theorem witness_tables_one (platform : Option Nat) :
    (st (withRecords [service 1 (on platform .normal) none])).part.table.ok := by
  refine ⟨Nat.le_of_ble_eq_true rfl, List.nodup_singleton _, List.pairwise_singleton _ _, witness_tables_at_reset.2.2.2⟩

/-- The bytes of a SERVICE_PUT record that gives service 1 a platform, 0 for none. -/
def putAgain (platform : Byte) : List Byte := be 2 1 ++ be 4 36000 ++ be 4 0xFFFFFFFF ++ [platform, 2, 0, 1, 0, 0]

theorem witness_ServicePut_replaces :
    let one := st (withRecords [service 1 (on none .normal) none])
    (∀ x ∈ [((4 : Byte), some 4), (0, none)],
      Executes one 0x10 (inf (1 :: putAgain x.1)) ∧ readServicePut (1 :: putAgain x.1) = some [put 1 0 x.2] ∧
      (one.part.putOne (put 1 0 x.2)).2 = .ok) ∧ statusOfCode 0 = some .normal ∧
    one.part.record? 1 = some (service 1 (on none .normal) none) ∧
    leaves (.servicePut (inf (1 :: putAgain 4))) one (fun p => p.table.records.map (·.origin) == [.put] && p.image.generation == 2)
      = true ∧
    leaves (.servicePut (inf (1 :: putAgain 0))) one (fun p => p.table.records.map (·.origin) == [.noChange]) = true := by
  decide +kernel

/-- A SERVICE_UPDATE body for service 1. -/
def update (mask platform status : Byte) : List Byte := be 2 1 ++ [mask, platform] ++ be 4 0 ++ [status]

/-- The result code of the last reply on a link after a command. -/
def resultOn (l : Link) (c : Instr) (s : State) : Option Byte :=
  match exec c s with
  | .next t =>
    match (t.part.port l).tx.getLast? with
    | some (.reply _ _ _ r _) => some r
    | some (.notice _ _) => none
    | none => none
  | .fault _ => none
  | .refused _ => none

theorem test_update_refusals :
    let one (s : Status) := st fun p => owning 3 (withRecords [service 1 (on (some 1) s) none] p)
    let asked (s : Status) (b : List Byte) := resultOn .information (.serviceUpdate (inf b)) (one s)
    asked .normal (update 3 2 0) = some Result.invalidField.code ∧ asked .normal (update 1 33 0) = some Result.invalidField.code ∧
    asked .normal (update 64 0 5) = some Result.invalidField.code ∧ asked .normal (update 64 0 2) = some Result.invalidField.code ∧
    asked .departed (update 1 3 0) = some Result.invalidField.code ∧ asked .normal (update 1 3 0) = some Result.notOwner.code ∧
    asked .boarding (update 1 2 0) = some Result.locked.code ∧ asked .normal (update 65 2 1) = some Result.ok.code ∧
    resultOn .control (.serviceUpdate (con (update 1 2 0))) (one .normal) = some Result.notOwner.code ∧
    resultOn .control (.serviceUpdate (con (update 1 1 0))) (st seized) = some Result.notOwner.code ∧
    resultOn .control (.serviceUpdate (con (update 2 0 0))) (st seized) = some Result.ok.code := by decide +kernel

theorem witness_UpdateOfTheOtherCopyChangesNothingElse :
    let one := st (withRecords [service 1 (on (some 1) .normal) none])
    Executes one 0x11 (con (update 1 2 0)) ∧ (readServiceUpdate (update 1 2 0)).map (·.malformed) = some false ∧
    one.part.record? 1 = some (service 1 (on (some 1) .normal) none) ∧ (one.part.table.records.map (·.id)).Nodup ∧
    Executes (st seized) 0x11 (inf (update 1 2 0)) ∧
    (st seized).part.record? 1 = some (service 1 (on (some 1) .normal) (some (on (some 2) .normal))) ∧
    statusPermitted .normal .normal = true ∧
    (Status.normal = .departed ↔ (service 1 (on none .normal) none).departedAt.isSome = true) := by decide +kernel

theorem witness_UpdateOfTheEffectiveCopy :
    let one (s : Status) := st (withRecords [service 1 (on (some 1) s) none])
    Executes (st id) 0x11 (inf (update 1 2 0)) ∧ (st id).part.record? 1 = none ∧
    (∀ s ∈ [Status.departed, .normal], Executes (one s) 0x11 (inf (update 1 2 0)) ∧
      (one s).part.record? 1 = some (service 1 (on (some 1) s) none) ∧
      (service 1 (on (some 1) s) none).copyOf .information = some (service 1 (on (some 1) s) none).running) ∧
    (one .normal).part.controlOwned 2 = false ∧ Executes (st seized) 0x11 (con (update 1 2 0)) ∧
    (st seized).part.controlOwned 2 = true ∧ (readServiceUpdate (update 1 2 0)).map (·.id) = some 1 ∧
    (readServiceUpdate (update 1 2 0)).map (fun u => u.apply (on (some 1) .normal)) = some (on (some 2) .normal) ∧
    (readServiceUpdate (update 1 1 0)).map (fun u => u.apply (on (some 1) .normal)) = some (on (some 1) .normal) := by
  decide +kernel

/-- A record with its delay minutes, its shown-late flag and its announced delay. -/
def delayed (status : Status) (late : Bool) (minutes : Nat) (announced : Option Nat) : Record :=
  { service 1 (on (some 1) status) none with late := late, minutes := some minutes, announcedDelay := announced }

theorem witness_UpdateOfTheEffectiveCopy_triggers :
    (∀ r ∈ [delayed .normal true 20 none, delayed .cancelled true 20 (some 20), delayed .departed true 20 none,
        delayed .boarding false 0 (some 20), service 1 { (on none .normal) with unknown := true } none],
      ((withRecords [r] Part.reset).table.records.map (·.id)).Nodup ∧ r ∈ (withRecords [r] Part.reset).table.records) ∧
    Part.reset.noticeN ≤ 20 ∧
    (((withRecords [delayed .normal true 20 none] Part.reset).triggers (on none .normal) 1).table.records.map (·.announcedDelay))
      = [some 20] ∧
    (((withRecords [delayed .normal true 20 (some 20)] Part.reset).triggers (on none .normal) 1).notices.notices) = [] ∧
    (((withRecords [delayed .normal true 20 none] Part.reset).triggers (on none .normal) 1).notices.notices.map (·.kind))
      = [.delay] ∧
    (((withRecords [delayed .cancelled true 20 (some 20)] Part.reset).triggers (on none .normal) 1).notices.notices.map (·.kind))
      = [.cancel] ∧ Part.reset.notices.notices.length < 16 := by decide +kernel

theorem witness_BoardingLockRefuses :
    ∀ x ∈ [Status.boarding, .closed],
      let r := service 1 (on (some 1) x) none
      let s := st (withRecords [r])
      Executes s 0x11 (inf (update 1 2 0)) ∧ s.part.record? 1 = some r ∧ statusPermitted x x = true ∧
      r.info.platform ≠ some 2 ∧ s.part.controlOwned 2 = false ∧ Executes s 0x11 (inf (update 2 0 0)) ∧ r.info.platform ≠ none := by
  decide +kernel

/-- The Notice List of a part is in order when these decidable facts hold of it. -/
theorem notices_ok_of {l : NoticeList} (h : l.notices.length ≤ 16 ∧ (l.notices.map (·.id)).Nodup ∧
    l.notices.Pairwise (fun a b => keyBefore a b = true) ∧
    l.notices.Pairwise (fun a b => a.kind ≠ .posted → ¬(a.kind = b.kind ∧ a.service = b.service)) ∧
    (∀ n ∈ l.notices, 1 ≤ n.id ∧ n.id ≤ 255 ∧ n.priority ≤ 3 ∧ n.creation < l.nextCreation) ∧
    1 ≤ l.nextId ∧ l.nextId ≤ 255) (s : Shown) (hs : l.shown = some s) (hm : s.id ∈ l.notices.map (·.id)) : l.ok := by
  obtain ⟨h1, h2, h3, h4, h5, h6, h7⟩ := h
  refine ⟨h1, h2, h3, h4, h5, ⟨h6, h7⟩, ?_⟩
  rw [hs]
  exact hm

/-- A full list: fifteen posted notices of priority 2 and an automatic one. -/
def fullList : List Notice :=
  (List.range 15).map (fun i => notice (i + 1) .posted 2 none) ++ [notice 16 .delay 2 (some 1)]

theorem witness_fullList_ok : (withNotices fullList Part.reset).notices.ok := by
  refine notices_ok_of (by decide +kernel) { id := 1, page := 1, dwellEnd := 8000 } rfl (by decide +kernel)

/-- A part with one service. -/
def oneService : State := st (withRecords [service 1 (on none .normal) none])

theorem witness_ServiceRemoveAndNameLoad :
    readServiceRemove [0] = some [] ∧ Executes oneService 0x12 (inf [0]) ∧ readServiceRemove (1 :: be 2 1) = some [1] ∧
    (readServiceRemove (17 :: zeros 34)).map List.length = some 17 ∧
    Executes oneService 0x12 (inf (1 :: be 2 1)) ∧ oneService.part.record? 1 = some (service 1 (on none .normal) none) ∧
    (st id).part.record? 1 = none ∧ ((st seized).part.record? 1).map (·.ctl.isSome) = some true ∧
    readNameLoad [255, 1, 1, 65] = some (255, [[65]]) ∧ Executes oneService 0x15 (inf [255, 1, 1, 65]) ∧
    oneService.part.table.names.length = 256 ∧ readNameLoad [255, 2, 1, 65, 0] = some (255, [[65], []]) ∧ 256 < 255 + 2 := by
  decide +kernel

theorem witness_notices_at_reset : Part.reset.notices.ok := by
  refine ⟨by decide, by decide, by decide, by decide, by decide, by decide, rfl⟩

/-- A record under an ACTIVE mark whose original platform is 1. -/
def marked (platform : Option Nat) : Record :=
  { service 1 (on platform .normal) none with mark := some { original := 1, expiry := 100, announced := false } }

theorem witness_ChangeTrackerMarksAndExpiry :
    (st (withRecords [marked (some 2)])).part.record? 1 = some (marked (some 2)) ∧
    ((withRecords [marked (some 2)] Part.reset).table.records.map (·.id)).Nodup ∧
    marked (some 2) ∈ (withRecords [marked (some 2)] Part.reset).table.records ∧
    (marked (some 2)).running.platform = some 2 ∧ (marked none).running.platform = none ∧
    (marked (some 1)).running.platform = some 1 := by decide +kernel

theorem witness_ChangeTrackerMarksAndExpiry_cues :
    let p := withRecords [marked (some 2)] Part.reset
    let full := withCues ((numbersFrom 1 24).map fun n => cue n .change .auto .queued) p
    p.record? 1 = some (marked (some 2)) ∧ p.cues.queues.length = 8 ∧ 1 ≤ p.cues.nextId ∧ p.cues.nextId ≤ 65535 ∧
    p.cues.idTaken 1 = false ∧ (full.cues.pool.map (·.id)).Nodup ∧ full.cues.idTaken 25 = false ∧
    ((p.track (on (some 3) .normal) 1).cues.pool.map (·.template)) = [some .change] ∧
    ((p.track (on (some 3) .normal) 1).notices.notices.map (·.kind)) = [.change] ∧
    (p.askCue .delay 1 2 [1]).cues.pool.map (·.tokens) = [p.tokenLaw (marked (some 2)) 2 .delay] ∧
    (p.askCue .delay 1 2 [9]).cues.pool = [] ∧
    ({ p with feed := { p.feed with state := .stale } } : Part).feedBars (marked (some 2)) = true ∧
    (full.askCue .change 1 2 [1]).info.isLatched .cueDropped = true ∧ full.cues.ofOrigin .auto = 24 := by decide +kernel

/-- A part whose first cue is held with id 1. -/
def oneCue : State := st (withCues [cue 1 .service .information .queued])

theorem witness_ReadsAnswerAndChangeNothing :
    (∀ k ∈ [0x01, 0x07, 0x08, 0x21, 0x30, 0x38], Executes (st id) k (inf [])) ∧
    (∀ i ∈ [1, 2], Executes oneService 0x13 (con (be 2 i))) ∧ oneService.part.record? 2 = none ∧
    (oneService.part.record? 1).isSome = true ∧
    (∀ b ∈ [[(0 : Byte), 1], [1, 0], [1, 17], [1, 16], [1, 1]], Executes oneService 0x14 (con b)) ∧
    (∀ b ∈ [[(0 : Byte), 1], [17, 1], [16, 6], [1, 7]], Executes oneService 0x1A (con b)) ∧
    (∀ b ∈ [[(0 : Byte), 1], [42, 8], [41, 8], [48, 1], [1, 9]], Executes oneService 0x20 (con b)) ∧
    (∀ i ∈ [0, 1, 2], Executes oneCue 0x2A (con (be 2 i))) ∧ oneCue.part.cues.cue? 2 = none ∧
    (oneCue.part.cues.cue? 1).isSome = true ∧
    (∀ b ∈ [[(11 : Byte), 0], [10, 2], [10, 1], [0, 0]], Executes (st id) 0x40 (inf b)) := by decide +kernel

/-- A NOTICE_POST body that never expires. -/
def post (priority : Byte) (text : List Byte) : List Byte :=
  [priority] ++ be 4 0xFFFFFFFF ++ [BitVec.ofNat 8 text.length] ++ text

theorem witness_NoticePostAndWithdraw :
    Executes (st (withNotices fullList)) 0x18 (con (post 3 [65])) ∧ readNoticePost (post 3 [65]) = some (3, none, [65]) ∧
    readNoticePost (post 1 [65]) = some (1, none, [65]) ∧ readNoticePost (post 4 [65]) = some (4, none, [65]) ∧
    readNoticePost (post 1 []) = some (1, none, []) ∧
    readNoticePost ([0] ++ be 4 9 ++ [1, 65]) = some (0, some 9, [65]) ∧ ¬(10 ≤ 9 ∧ 9 ≤ 86400) ∧
    16 ≤ fullList.length ∧ (∀ v ∈ fullList, ¬(v.kind ≠ .posted ∧ 2 < v.priority)) ∧
    (∃ v ∈ fullList, v.kind ≠ .posted ∧ 1 < v.priority) ∧ Part.reset.notices.notices.length < 16 ∧
    Executes (st (withNotices fullList)) 0x19 (con [16]) ∧ (st id).part.notices.byId 16 = none ∧
    (st (withNotices fullList)).part.notices.byId 16 = some (notice 16 .delay 2 (some 1)) ∧
    (st (withNotices fullList)).part.notices.byId 1 = some (notice 1 .posted 2 none) ∧
    (st (withNotices [{ notice 1 .posted 2 none with origin := .information }])).part.notices.byId 1
      = some { notice 1 .posted 2 none with origin := .information } := by decide +kernel

theorem witness_NoticesExpireAndRotate :
    let n := { notice 2 .posted 1 none with expiry := some 50, text := List.replicate 49 65 }
    let s := st (withNotices [n, notice 3 .posted 2 none])
    s.part.powered = true ∧ s.part.notices.byId 2 = some n ∧ n.expiry = some 50 ∧
    s.part.notices.shown = some { id := 2, page := 1, dwellEnd := 8000 } ∧ s.part.notices.eligible.contains n = true ∧
    1 < pageCount (s.part.noticeText n) ∧
    ((st (withNotices [notice 3 .posted 2 none])).part.notices.eligible.find? fun m =>
      keyBefore (notice 3 .posted 2 none) m) = none ∧
    (s.part.notices.eligible.find? fun m => keyBefore n m) = some (notice 3 .posted 2 none) := by decide +kernel

theorem witness_BannerAndBrightnessShadows :
    Executes (st id) 0x1B (con ([1] ++ be 4 10 ++ [1, 65])) ∧ readBannerSet ([1] ++ be 4 10 ++ [1, 65]) = some (true, some 10, [65]) ∧
    (readBannerSet ([1] ++ be 4 10 ++ [49] ++ List.replicate 49 65)).map (·.2.2.length) = some 49 ∧
    Executes (st id) 0x22 (con [16]) ∧
    ((st fun p => { p with own := p.own.setBanner .control { text := [], enabled := true, expiry := some 10 } }).part.own.bannerOf
      .control).expiry = some 10 := by decide +kernel

/-- A part that awaits a panel's reply, the panel being in a state. -/
def polled (a : Nat) (state : PanelState) (misses recovery : Nat) (p : Part) : Part :=
  let p := p.modPanel a fun n => { n with state := state, misses := misses, recovery := recovery }
  p.sendPoll a []

/-- A good reply to a poll of address 1 at generation 1. -/
def replied (q : Poll) (temperature : BitVec 8) : PanelReplyFrame :=
  { checkOk := true, address := 1, generation := 1, temperature := temperature, flags := 0, lineCheck := lineCheck q.shows }

theorem witness_PanelRepliesAreJudged :
    (∀ a ∈ [1, 12, 13], ∀ x ∈ [PanelState.starting, .warm, .faulted .silent], ∀ k ∈ [0, 2, 7],
      let c := (polled a x k k Part.reset).chain
      (c.poll.map (·.frame.address)) = some a ∧ c.reset = .complete ∧ c.panels.length = 13 ∧ (c.panel a).state = x ∧
      (c.panel a).misses = k ∧ (c.panel a).recovery = k) ∧
    (∀ t ∈ [(64 : BitVec 8), 65, 69, 70, 84, 85, 216, 125], -40 ≤ t.toInt ∧ t.toInt ≤ 125) ∧
    ((polled 1 .active 0 0 Part.reset).chain.poll.map fun q => (q.frame.address, q.frame.generation)) = some (1, 1) ∧
    ({ Part.reset.chain with reset := .awaitingReply } : Chain).reset = .awaitingReply ∧
    (let p := (polled 3 .warm 2 0 (withPanel 13 .active Part.reset)).modChain fun c => { c with cycleRest := [4, 13] };
      p.chain.cycleRest = [4, 13] ∧ p.chain.duty ≠ .notFitted ∧ p.chain.mode = .automatic ∧
      leaves .panelReplyMiss (st fun _ => p) (fun q => q.chain.duty == .engaged 3 && q.chain.cycleRest == [13] &&
        q.chain.poll.map (·.frame.address) == some 4) = true) ∧
    (∀ m ∈ [SpareMode.released, .pinned 3], (Part.reset.modChain fun c => { c with mode := m, duty := .engaged 3 }).chain.mode ≠
      .automatic) := by decide +kernel

theorem witness_PanelRepliesAreJudged_good (q : Poll) (t : BitVec 8) : (replied q t).checkOk = true ∧
    (replied q t).address.toNat = 1 ∧ (replied q t).generation.toNat = 1 ∧ (replied q t).temperature = t ∧
    (replied q t).lineCheck = lineCheck q.shows := ⟨rfl, rfl, rfl, rfl, rfl⟩

/-- The spare is up and position 3 is FAULTED. -/
def spareUp (p : Part) : Part := withPanel 13 .warm (withPanel 3 (.faulted .silent) p)

theorem witness_PanelSpareActions :
    (∀ b ∈ [[(0 : Byte), 3], [1, 0], [2, 0], [3, 0], [0, 0], [0, 13], [0, 4]], Executes (st spareUp) 0x23 (inf b)) ∧
    (st spareUp).part.spareChoice = some 3 ∧ (st spareUp).part.own.wall ≠ .control ∧ (st spareUp).part.chain.duty = .standby ∧
    ((st spareUp).part.chain.panel 3).isFaulted = true ∧ ((st spareUp).part.chain.panel 13).isUp = true ∧
    ((st (withPanel 3 (.faulted .silent))).part.chain.panel 13).isUp = false ∧
    (st fun p => p.acceptTest .partLoop 1).part.chain.test.phase ≠ .idle ∧
    (st fun p => p.modChain fun c => { c with duty := .notFitted }).part.chain.duty = .notFitted := by decide +kernel

/-- A part whose link test sends the pattern, the detector in a state. -/
def testing (detector : Option (BitVec 11)) (locked : Bool) (pending : Nat) (p : Part) : Part :=
  p.modTest fun t =>
    { t with phase := .running 0 5000, pending := pending, detector := detector,
             report := some { newReport .chainEcho with locked := locked } }

theorem witness_LinkTestRunsAndEnds :
    (∀ b ∈ [[(0 : Byte), 1, 120], [0, 0, 1], [0, 2, 1], [0, 0, 0], [0, 0, 121], [3, 0, 1], [1, 0, 0], [2, 0, 0]],
      Executes (st id) 0x24 (inf b) ∧ Executes (st (testing none false 0)) 0x24 (inf b)) ∧
    (st id).part.own.wall = .information ∧ (st id).part.chain.test.phase = .idle ∧ testModeOf 1 = some .partLoop ∧
    (st (testing none false 255)).part.chain.test.phase = .running 0 5000 ∧
    (st fun p => p.acceptTest .chainEcho 120).part.chain.test.phase = .accepted 120 ∧
    (st fun p => p.acceptTest .chainEcho 120).part.chain.poll = none ∧
    (st (testing none false 255)).part.chain.mode = .automatic ∧ (st (testing none false 255)).part.chain.duty ≠ .notFitted ∧
    leaves (.wallTestStop (inf [1, 0, 0])) (st fun p => testing none false 0 (polled 3 .active 0 0 p)) (fun p =>
      p.chain.poll.map (·.superseded) == some true) = true := by decide +kernel

/-- A window of that many bits and errors. -/
def windowed (bits errors : Nat) (p : Part) : Part := p.modTest fun t => { t with window := { bits := bits, errors := errors } }

theorem witness_PatternAndDetector :
    (st (testing (some 0) true 1)).part.chain.test.phase = .running 0 5000 ∧
    (st (testing (some 0) true 1)).part.chain.test.detector = some 0 ∧
    (st (testing none false 0)).part.chain.test.detector = none ∧
    (st (testing none false 0)).part.chain.test.report = some { newReport .chainEcho with locked := false } ∧
    (∀ x ∈ [(false, 1, some 0#11), (false, 2, none), (true, 15, some 0#11), (true, 16, none)],
      leaves (.detectorWindow [true]) (st fun p => windowed 255 x.2.1 (testing (some 0) x.1 0 p)) (fun p =>
        p.chain.test.detector == x.2.2 && p.chain.test.window.bits == 0) = true) ∧
    leaves (.detectorWindow [true]) (st fun p => windowed 254 9 (testing (some 0) true 0 p)) (fun p =>
      p.chain.test.window.bits == 255 && p.chain.test.window.errors == 10) = true := by decide +kernel

/-- A CUE_POST body to zone 1 without a service. -/
def posted (cls : Byte) (tokens : List Nat) : List Byte :=
  [cls, 1, 0, 0, 0] ++ be 1 tokens.length ++ tokens.flatMap (be 2)

/-- A part in which zone 1 is shared. -/
def sharing (p : Part) : Part := { p with own := { p.own with zones := updateAt p.own.zones 0 fun _ => .shared } }

theorem witness_CuePostAndCancel :
    Executes (st id) 0x28 (inf (posted 0 [1])) ∧ readCuePost (posted 0 [1]) = some (0, [1], none, [1]) ∧
    readCuePost (posted 5 [1]) = some (5, [1], none, [1]) ∧ classOfCode 5 = none ∧ classOfCode 0 = some .emergency ∧
    readCuePost (posted 0 [4096]) = some (0, [1], none, [4096]) ∧
    (readCuePost (posted 0 (List.replicate 25 1))).map (·.2.2.2.length) = some 25 ∧ (st id).part.zoneMode 1 = .infoOnly ∧
    Executes (st sharing) 0x28 (con (posted 0 [1])) ∧ (st sharing).part.zoneMode 1 = .shared ∧
    (st id).part.cues.hasRoom 1 .service = true ∧ (st id).part.cues.quotaFull .information = false ∧
    (st (withCues ((List.range 24).map fun i => cue (i + 1) .service .information .queued))).part.cues.quotaFull .information = true ∧
    (st fun p => p.modCues fun q => { q with queues := updateAt q.queues 0 fun _ => [1, 2, 3, 4, 5, 6] }).part.cues.hasRoom 1
      .general = false ∧
    (st id).part.cues.nextId = 1 ∧ (st id).part.cues.idTaken 1 = false ∧
    (∀ f ∈ [Flight.queued, .sent 5, .accepted 5, .stopping .preemption 5, .stopping .timeout 5, .stopping .cancellation 5],
      let s := st (withCues [cue 1 .service .information f])
      Executes s 0x29 (inf (be 2 1)) ∧ s.part.cues.cue? 1 = some (cue 1 .service .information f) ∧
      s.part.cues.cue? 2 = none ∧
      ((st (withCues [cue 1 .service .auto f])).part.cues.cue? 1).map (·.origin) = some .auto) := by decide +kernel

theorem witness_AnnouncerFramesAreTaken :
    (∀ f ∈ [Flight.queued, .sent 5, .accepted 5, .stopping .preemption 5, .stopping .timeout 5, .stopping .cancellation 5],
      let s := st (withCues [{ cue 1 .service .information f with replayed := true }])
      s.part.powered = true ∧ (s.part.cues.cue? 1).map (·.flight) = some f ∧ (s.part.cues.cue? 1).map (·.replayed) = some true ∧
      s.part.cues.cue? 2 = none) ∧
    (∀ z ∈ [ZoneState.idle, .playing 1, .stopping 1, .offline],
      (st fun p => p.modCues fun q => q.setZone 8 z).part.cues.zone 8 = z) := by decide +kernel

/-- The part with cue 1 preempted in zones 1 and 2, whose queues hold `a` and `b` records of its class. -/
def preempted (a b : Nat) (p : Part) : Part :=
  (withCues ({ cue 1 .service .information (.stopping .preemption 5) with zones := [(1, .pending), (2, .pending)] } ::
      (List.range 6).map fun i => cue (i + 10) .service .information .queued) p).modCues fun q =>
    { q with queues := [(List.range a).map (· + 10), (List.range b).map (· + 10)] ++ List.replicate 6 []
             zones := [.stopping 1, .stopping 1] ++ List.replicate 6 .idle }

theorem witness_AnnouncerFramesAreTaken_replay :
    (preempted 0 6 Part.reset).cues.ok ∧
    (∀ x ∈ [(0, 6), (6, 6)], let s := st (preempted x.1 x.2)
      s.part.cues.queues.length = 8 ∧ s.part.cues.zones.length = 8 ∧
      (s.part.cues.cue? 1).map (s.part.cues.superseded ·) = some false ∧
      ((numbersFrom 1 8).filter fun z => s.part.cues.zone z == .stopping 1) = [1, 2] ∧
      (s.part.cues.hasRoom 1 .service = true ↔ x.1 = 0) ∧ s.part.cues.hasRoom 2 .service = false) ∧
    leaves (.cuePortEnded 1 .stopped) (st (preempted 0 6)) (fun p => (p.cues.cue? 1).map (fun c => (c.replayed, c.flight, c.zones))
      == some (true, .queued, [(1, .pending), (2, .dropped)]) && p.cues.queue 1 == [1]) = true ∧
    leaves (.cuePortEnded 1 .stopped) (st (preempted 6 6)) (fun p => (p.cues.cue? 1).isNone && p.ctl.isLatched .cueDropped) = true := by
  refine ⟨?_, by decide +kernel⟩
  unfold CueSched.ok
  decide +kernel

theorem witness_AnnouncerFramesAreTaken_late :
    let at_ (elapsed : Nat) (f : Flight) := st fun p => { withCues [cue 1 .service .information f] p with elapsed := elapsed }
    let probed (elapsed : Nat) := st fun p =>
      { p.modCues (fun q => { q with probeWait := some 5, silence := 2, announcer := .up }) with elapsed := elapsed }
    (∀ f ∈ [Flight.sent 5, .accepted 5, .stopping .preemption 5],
      (at_ 6 f).part.cues.cue? 1 = some (cue 1 .service .information f) ∧ 5 < (at_ 6 f).part.elapsed ∧ (at_ 5 f).part.elapsed ≤ 5) ∧
    leaves (.cuePortAccept 1) (at_ 6 (.sent 5)) (fun p => p.cues.pool.isEmpty && p.ctl.isLatched .cueFailed) = true ∧
    leaves (.cuePortAccept 1) (at_ 5 (.sent 5)) (fun p => p.cues.pool.map (·.flight) == [.accepted 13005]) = true ∧
    (∀ f ∈ [Flight.sent 5, .accepted 5, .stopping .preemption 5], leaves (.cuePortEnded 1 .complete) (at_ 6 f)
      (fun p => p.cues.pool.isEmpty && p.ctl.isLatched .cueFailed && !p.ctl.isLatched .cueDone) = true) ∧
    leaves .cuePortProbeReply (probed 6) (fun p => p.ctl.isLatched .announcerRestored && p.cues.announcer == .up) = true ∧
    leaves .cuePortProbeReply (probed 5) (fun p => !p.ctl.isLatched .announcerRestored && p.cues.announcer == .up) = true := by
  decide +kernel

theorem test_ended_wait_that_loses_the_announcer_has_sent_stop :
    leaves (.endedWaitExpiry 1) (st fun p => (withCues [cue 1 .service .information (.accepted 5)] p).modCues fun q =>
      { q with silence := 2, announcer := .up }) (fun p => p.cues.announcer == .lost && p.cues.pool.isEmpty &&
        p.cues.tx == [.stop 0 1]) = true := by decide +kernel

theorem witness_CueWaitsAndTimersRunOut :
    (let p := (withCues [cue 1 .service .information (.sent 5), cue 2 .service .information .queued] Part.reset).modCues fun q =>
        { q with silence := 2, announcer := .up };
      2 ≤ p.cues.silence ∧ p.cues.announcer = .up ∧ (p.cues.pool.map (·.id)).Nodup) ∧ Part.reset.cues.silence < 2 ∧
    (∀ f ∈ [Flight.queued, .sent 5, .accepted 5, .stopping .preemption 5],
      (st (withCues [cue 1 .service .information f])).part.cues.cue? 1 = some (cue 1 .service .information f)) ∧
    (st id).part.ageLimit .service = some 300000 ∧
    (st fun p => p.modCues fun q => { q with probeWait := some 4, reserved := [(9, 4)], repeats := [some 4] }).part.cues.probeWait
      = some 4 ∧
    (leaves .probeTimer (st fun p => p.modCues fun q => { q with probeWait := some 4, probeAt := 4 })
      (fun p => p.cues.silence == 1 && p.cues.probeWait == some 2004)) = true ∧
    (leaves .probeTimer (st fun p => p.modCues fun q => { q with probeWait := some 5, probeAt := 4 })
      (fun p => p.cues.silence == 0 && p.cues.probeWait == some 2004)) = true ∧
    (st fun p => p.modCues fun q => { q with reserved := [(9, 4)] }).part.cues.reserved.find? (·.1 == 9) = some (9, 4) ∧
    (st fun p => p.modCues fun q => { q with repeats := [some 4] }).part.cues.repeats[(0 : Fin 4).val]? = some (some 4) := by
  decide +kernel

/-- The part with the first clock line enabled, its dial of twelve hours and its position 0. -/
def clocked (state : ClockState) (p : Part) : Part :=
  withLine (fun k => { k with state := state, position := some 0 }) (withByte 5 0 1 p)

theorem witness_ClockLineEvaluation :
    (clocked .running Part.reset).clocks.lines.length = 4 ∧ ((clocked .parked Part.reset).clocks.line 0).state = .parked ∧
    ((clocked .faultedOpen Part.reset).clocks.line 0).isFaulted = true ∧
    ((clocked .running Part.reset).clocks.line 0).isFaulted = false ∧ (Part.reset.clockConfig 0).enabled = false ∧
    ((clocked .running Part.reset).clockConfig 0).enabled = true ∧ (clocked .running Part.reset).time.valid = false ∧
    (timed 0 59 Part.reset).time.valid = true ∧ lagOf 59 720 0 = 0 ∧ lagOf 60 720 0 = 1 ∧
    lagOf (660 * 60) 720 0 = 660 ∧ 720 - 660 ≤ ((clocked .running Part.reset).clockConfig 0).hold ∧
    lagOf (659 * 60) 720 0 = 659 ∧ ((clocked .running Part.reset).clockConfig 0).hold < 720 - 659 := by decide +kernel

theorem witness_ClockLineRequests :
    (∀ b ∈ [[(0 : Byte), 0, 0, 255], [4, 2, 207, 0], [1, 2, 208, 255], [1, 0, 0, 2], [1, 0, 0, 1]],
      Executes (st id) 0x31 (inf b) ∧ Executes (st (clocked .running)) 0x31 (inf b)) ∧
    (st id).part.own.clockLines = .information ∧ ((st id).part.clockConfig 0).dial = 720 ∧
    (∀ b ∈ [[(0 : Byte)], [5], [4]], Executes (st id) 0x32 (con b) ∧ Executes (st id) 0x32 (inf b)) ∧
    Executes (st (clocked .running)) 0x33 (inf []) ∧ Executes (st id) 0x33 (con []) ∧ (st id).part.clocks.park = none ∧
    ((st id).part.clocks.line 0).impulse = none ∧ ((st (clocked .running)).part.clocks.line 0).position ≠ none ∧
    ((st (clocked .parked)).part.clocks.line 0).state = .parked ∧
    (st fun p => p.modClocks fun c => { c with park := some { lines := [], asked := true } }).part.clocks.park.isSome = true ∧
    ((st (withLine fun k => { k with impulse := some (impulse true) })).part.clocks.line 0).impulse.isSome = true ∧
    (st (clocked .running)).part.clocks.lines.length = 4 := by decide +kernel

theorem witness_ClockLineRequests_park :
    let s := st fun p => withLine (fun k => { k with impulse := some (impulse true) }) (clocked .running p)
    Executes s 0x33 (inf []) ∧ s.part.clocks.park = none ∧
    ((List.range 4).filter fun i => (s.part.clockConfig i).enabled) = [0] ∧ ((s.part.clocks.line 0).impulse).isSome = true ∧
    leaves (.parkClocks (inf [])) s (fun p => p.clocks.park == some { lines := [0], asked := false } && p.store.writes.isEmpty) = true := by
  decide +kernel

theorem witness_ImpulseEvents :
    (∀ d ∈ [true, false], ((st (withLine fun k => { k with impulse := some (impulse d) })).part.clocks.line 0).impulse
      = some (impulse d)) ∧ (impulse true).openRead = false ∧ (st id).part.clocks.toPark 0 = false ∧
    (st fun p => p.modClocks fun c => { c with park := some { lines := [0], asked := false } }).part.clocks.park
      = some { lines := [0], asked := false } ∧
    ((st (withLine fun k => { k with retryAt := some 3 })).part.clocks.line 0).retryAt = some 3 := by decide +kernel

/-- The part with input 1 in a mode, by its flags byte, and in a state. -/
def watching (flags : Byte) (state : InputState) (level : Bool) (p : Part) : Part :=
  withInput state level (some 7) (withByte 5 16 flags p)

theorem witness_WallInputsQualify :
    ∀ x ∈ [InputState.idle, .qualifying, .active, .releasing], ∀ l ∈ [true, false],
      (st (watching 2 x l)).part.inputs.length = 4 ∧ ((st (watching 2 x l)).part.input 0).state = x ∧
      ((st (watching 2 x l)).part.input 0).asserted = l ∧ ((st (watching 2 x l)).part.input 0).timer = some 7 ∧
      ((st (watching 2 x l)).part.inputConfig 0).mode = .act ∧ ((st (watching 1 x l)).part.inputConfig 0).mode = .report ∧
      ((st (watching 0 x l)).part.inputConfig 0).mode = .off := by decide +kernel

theorem witness_WallInputsQualify_late :
    let at_ (elapsed : Nat) (x : InputState) (l : Bool) := st fun p => { watching 2 x l p with elapsed := elapsed }
    7 < (at_ 8 .qualifying true).part.elapsed ∧ ¬7 < (at_ 7 .qualifying true).part.elapsed ∧
    leaves (.inputLevelChange 0 false) (at_ 8 .qualifying true)
      (fun p => (p.input 0).state == .releasing && p.ctl.isLatched .inputChanged) = true ∧
    leaves (.inputLevelChange 0 true) (at_ 8 .releasing false)
      (fun p => (p.input 0).state == .qualifying && p.ctl.isLatched .inputChanged) = true ∧
    leaves (.inputLevelChange 0 false) (at_ 7 .qualifying true)
      (fun p => (p.input 0).state == .idle && !p.ctl.isLatched .inputChanged) = true := by decide +kernel

theorem test_acting_follows_the_actions :
    leaves (.qualificationTimerExpiry 0) (st (watching 2 .qualifying true)) (fun p => (p.input 0).acting) = true ∧
    leaves (.qualificationTimerExpiry 0) (st (watching 1 .qualifying true)) (fun p => !(p.input 0).acting) = true := by
  decide +kernel

/-- The part with a store write under way. -/
def writing (w : StoreWrite) (p : Part) : Part := p.askWrite w

theorem witness_settingsOk_at_reset : Part.reset.settingsOk := by
  refine ⟨by decide, ?_, by decide, by decide +kernel, by decide, ?_⟩
  · intro r hr
    have h : ∀ r ∈ List.range 11, (Part.reset.row r).length = 64 ∧ clampRow r (Part.reset.row r) = Part.reset.row r := by
      decide +kernel
    exact h r (List.mem_range.mpr hr)
  · intro e h
    cases h

theorem witness_SettingsCommands :
    (∀ b ∈ [[(11 : Byte), 0, 1], [0, 64, 1], [10, 0, 1], [0, 63, 1], [0, 0, 24]], Executes (st id) 0x41 (inf b)) ∧
    readSettingsWrite [0, 63, 1] = some (0, 63, [1]) ∧ readSettingsWrite [0, 64, 1] = some (0, 64, [1]) ∧
    (∀ b ∈ [[(11 : Byte)], [10], [9], [0]], Executes (st id) 0x42 (inf b)) ∧ (st id).part.store.frozen = false ∧
    ((st id).part.store.storedRow 9).saves < 20000 ∧
    20000 ≤ ((st fun p => p.modStore fun s => { s with stored := s.stored.map fun x => { x with saves := 20000 } }).part.store.storedRow
      9).saves ∧
    Executes (st id) 0x43 (inf []) ∧ Executes (st (writing (.save 1))) 0x43 (inf []) ∧
    (st (writing (.save 1))).part.store.writes = [.save 1] ∧ (st id).part.store.writes = [] ∧
    (st id).part.store.stored.length = 11 ∧ Executes (st id) 0x44 (inf []) ∧ (StoreWrite.save 9).row < 11 ∧
    (st (writing .invalidate)).part.store.writes = [.invalidate] ∧
    (st (writing (.park (zeros 13)))).part.store.writes = [.park (zeros 13)] ∧
    ({ Part.reset.info with waiting := some (.save 4 1) } : Port).waiting = some (.save 4 1) ∧
    ({ Part.reset.info with waiting := some (.check 4) } : Port).waiting = some (.check 4) := by decide +kernel

/-- A part whose input 1 is in REPORT mode and in a state, a cue token being configured. -/
def tokened (state : InputState) (p : Part) : Part := withByte 4 30 0 (watching 1 state true p)

theorem witness_SettingsCommands_rows :
    Part.reset.inputs.length = 4 ∧ Part.reset.cues.repeats.length = 4 ∧ Part.reset.cues.reserved.length ≤ 1000 ∧
    ((st (tokened .active)).part.inputConfig 0).tokens = [255] ∧ Executes (st (tokened .active)) 0x41 (inf [5, 16, 2]) ∧
    leaves (.settingsWrite (inf [5, 16, 2])) (st (tokened .active)) (fun p => (p.input 0).acting && p.cues.pool.length == 1) = true ∧
    leaves (.settingsWrite (inf [5, 16, 0])) (st (tokened .releasing)) (fun p => (p.input 0).state == .idle &&
      p.info.isLatched .inputChanged) = true ∧
    leaves (.settingsWrite (inf [1, 0, 1])) (st (withRecords [expecting 36120 false])) (fun p =>
      p.table.records.map (·.late) == [true] && p.lateL == 1) = true := by decide +kernel

/-- A part whose input 1 acts with a cue token, its cue accepted by the announcer. -/
def sounding (p : Part) : Part :=
  withCues [{ cue 1 .emergency .input (.accepted 5) with input := some 1 }] (withByte 4 30 0 (watching 2 .active true p))

theorem witness_SettingsCommands_ends :
    (st sounding).part.cues.ok ∧ ((st sounding).part.cues.pool.map (·.id)).Nodup ∧ (st sounding).part.cues.reserved.length ≤ 1000 ∧
    ((st sounding).part.inputConfig 0).mode = .act ∧ ((st sounding).part.inputConfig 0).tokens = [255] ∧
    (∀ b ∈ [[(5 : Byte), 16, 0], [5, 16, 1], [4, 30, 255]], Executes (st sounding) 0x41 (inf b) ∧
      leaves (.settingsWrite (inf b)) (st sounding) (fun p => ((p.inputConfig 0).mode != .act || (p.inputConfig 0).tokens == []) &&
        p.cues.pool.map (·.flight) == [.stopping .cancellation 5000]) = true) := by
  refine ⟨?_, by decide +kernel⟩
  unfold CueSched.ok
  decide +kernel

/-- The copies of a part with no record and no platform Control-owned. -/
theorem witness_copies_at_reset : Part.reset.copiesOk := by
  refine ⟨by decide, ?_⟩
  intro r h
  cases h

theorem witness_StepKeepsTableOrderAndCopies : (st id).part.table.ok ∧ (st id).part.copiesOk ∧
    step (st id) = .next { part := (st id).part.probe, pending := [] } :=
  ⟨witness_tables_at_reset, witness_copies_at_reset, rfl⟩

theorem witness_StepKeepsNoticeListAndImage : (st id).part.notices.ok ∧ (st id).part.image.ok ∧ (st id).part.time.second < 86400 ∧
    step (st id) = .next { part := (st id).part.probe, pending := [] } := by
  refine ⟨witness_notices_at_reset, ?_, by decide, rfl⟩
  unfold Image.ok
  decide +kernel

theorem witness_StepKeepsCueQuotas : (st id).part.cues.ok ∧ (st id).part.cues.reserved.length ≤ 1000 ∧
    ((st id).part.cues.pool.map (·.id)).Nodup ∧ step (st id) = .next { part := (st id).part.probe, pending := [] } := by
  refine ⟨?_, by decide, by decide, rfl⟩
  unfold CueSched.ok
  decide +kernel

theorem witness_StepKeepsSettingsInRangeAndSpareLaw : (st id).part.settingsOk ∧ (st id).part.chain.spareLaw ∧
    step (st id) = .next { part := (st id).part.probe, pending := [] } := by
  refine ⟨witness_settingsOk_at_reset, ⟨by decide, by decide, ?_, ?_, ?_, ?_⟩, rfl⟩
  all_goals
    intro n h
    cases h

end Sys2Proof.Tests
end

section
/-! The retire instant by the lines of its table (R37). -/

namespace Sys2Proof.Machine

/-! ## The thresholds of row 1 that R37 reads -/

theorem Part.departedDwell_eq (p : Part) : p.departedDwell = wordField (p.row 1) 9 := rfl

theorem Part.cancelHold_eq (p : Part) : p.cancelHold = wordField (p.row 1) 7 := rfl

theorem Part.graceG_eq (p : Part) : p.graceG = wordField (p.row 1) 5 := rfl

/-! ## The lines of the table -/

theorem Part.retireInstant_of_departed {p : Part} {r : Record} {t : Int} (hs : r.running.status = .departed)
    (ht : r.departedAt = some t) : p.retireInstant r = t + p.departedDwell := by
  simp only [Part.retireInstant, hs, ht, Option.getD_some]

theorem Part.retireInstant_of_cancelled {p : Part} {r : Record} (hs : r.running.status = .cancelled) :
    p.retireInstant r = r.sched + p.cancelHold := by
  simp only [Part.retireInstant, hs]

/-- The last two lines of R37 answer alike for the three statuses that are neither DEPARTED nor CANCELLED. -/
theorem Part.retireInstant_of_running {p : Part} {r : Record}
    (hs : r.running.status = .normal ∨ r.running.status = .boarding ∨ r.running.status = .closed) :
    p.retireInstant r = if r.running.unknown then r.sched + 21600 else r.eff + p.graceG := by
  rcases hs with hnormal | hboarding | hclosed
  · simp only [Part.retireInstant, hnormal]
  · simp only [Part.retireInstant, hboarding]
  · simp only [Part.retireInstant, hclosed]

/-- Settles O32, one line of R37's table after the other, each threshold read at its offset of row 1. -/
theorem retireInstant : Obligations.RetireInstant := by
  intro p r
  refine ⟨?departed, ?cancelled, ?running⟩
  case departed =>
    intro t hs ht
    rw [Part.retireInstant_of_departed hs ht, Part.departedDwell_eq]
  case cancelled =>
    intro hs
    rw [Part.retireInstant_of_cancelled hs, Part.cancelHold_eq]
  case running =>
    intro hs
    rw [Part.retireInstant_of_running hs, Part.graceG_eq]

end Sys2Proof.Machine
end

section
/-! The computed fields of a record: delay minutes, shown-late flag, display state, effective departure and ordering key
(R43 to R48). -/

namespace Sys2Proof.Machine

/-! ## Each computed field from those of the stages before it -/

@[simp] theorem Part.computed_minutes (p : Part) (r : Record) :
    (p.computed r).minutes = delayMinutes r.running r.sched := rfl

theorem Part.computed_late (p : Part) (r : Record) :
    (p.computed r).late = newLate p.lateL p.hystH r.late (p.computed r).minutes := rfl

theorem Part.computed_display (p : Part) (r : Record) :
    (p.computed r).display = displayOf r.running (p.computed r).minutes (p.computed r).late := rfl

theorem Part.computed_eff (p : Part) (r : Record) :
    (p.computed r).eff = effectiveDeparture r.sched (p.computed r).minutes (p.computed r).late := rfl

theorem Part.computed_key (p : Part) (r : Record) : (p.computed r).key =
    orderingKey p.reseqQ r.sched r.running.status (p.computed r).minutes (p.computed r).late := rfl

/-- The computation writes the five computed fields alone. -/
theorem Part.computed_frame (p : Part) (r : Record) :
    p.computed r =
      { r with
        minutes := (p.computed r).minutes
        late := (p.computed r).late
        display := (p.computed r).display
        eff := (p.computed r).eff
        key := (p.computed r).key } := rfl

/-! ## Delay minutes (R43) -/

theorem delayMinutes_of_no_raw_delay {c : Running} (s : Int) (h : c.expected = none ∨ c.unknown = true) :
    delayMinutes c s = none := by
  rcases h with habsent | hunknown
  · simp only [delayMinutes, habsent]
  · cases hexp : c.expected <;> simp only [delayMinutes, hexp, hunknown]

theorem delayMinutes_of_raw_delay {c : Running} {e : Int} (s : Int) (he : c.expected = some e) (hu : c.unknown = false) :
    delayMinutes c s = some (if e - s ≤ 0 then 0 else min 999 ((e - s + 30) / 60).toNat) := by
  simp only [delayMinutes, he, hu]

theorem delayMinutes_of_early {c : Running} {e s : Int} (he : c.expected = some e) (hu : c.unknown = false)
    (hd : e - s ≤ 0) : delayMinutes c s = some 0 := by
  rw [delayMinutes_of_raw_delay s he hu, if_pos hd]

theorem delayMinutes_of_positive {c : Running} {e s : Int} (he : c.expected = some e) (hu : c.unknown = false)
    (hd : 0 < e - s) : delayMinutes c s = some (min 999 ((e - s + 30) / 60).toNat) := by
  rw [delayMinutes_of_raw_delay s he hu, if_neg (not_le.mpr hd)]

/-! ## The shown-late flag (R44) -/

@[simp] theorem newLate_none (l h : Nat) (previous : Bool) : newLate l h previous none = false := rfl

theorem newLate_of_clear (l h m : Nat) : newLate l h false (some m) = true ↔ l < m := by
  simp [newLate]

theorem newLate_of_set_within {l h : Nat} (m : Nat) (hle : h ≤ l) :
    newLate l h true (some m) = false ↔ m ≤ l - h := by
  simp [newLate, hle]

theorem newLate_of_set_beyond {l h : Nat} (m : Nat) (hlt : l < h) : newLate l h true (some m) = false ↔ m = 0 := by
  simp [newLate, not_le.mpr hlt]

/-- M = 0 clears the flag by every line of its table. -/
theorem newLate_zero (l h : Nat) (previous : Bool) : newLate l h previous (some 0) = false := by
  cases previous with
  | false => exact Bool.eq_false_iff.mpr fun hset => Nat.not_lt_zero l ((newLate_of_clear l h 0).mp hset)
  | true =>
    rcases Nat.lt_or_ge l h with hlt | hle
    · exact (newLate_of_set_beyond 0 hlt).mpr rfl
    · exact (newLate_of_set_within 0 hle).mpr (Nat.zero_le _)

theorem minutes_pos_of_newLate {l h : Nat} {previous : Bool} {m : Option Nat} (hset : newLate l h previous m = true) :
    ∃ n, m = some n ∧ 1 ≤ n := by
  match m with
  | none => cases hset
  | some 0 => simp [newLate_zero] at hset
  | some (n + 1) => exact ⟨n + 1, rfl, Nat.succ_pos n⟩

@[simp] theorem PutRecord.fresh_late (x : PutRecord) (st : Status) : (x.fresh st).late = false := rfl

/-- Settles O30: the lines of R43, then the lines of R44's table for the M so computed. -/
theorem delayMinutesAndShownLateFlag : Obligations.DelayMinutesAndShownLateFlag := by
  constructor
  case left =>
    intro p r
    rw [Part.computed_minutes]
    refine ⟨delayMinutes_of_no_raw_delay r.sched, fun e he hu => ⟨delayMinutes_of_early he hu, fun hd => ?positive⟩⟩
    case positive => exact ⟨_, delayMinutes_of_positive he hu hd, by omega, by omega⟩
  case right =>
    intro p r q
    have hlate : q.late = newLate p.lateL p.hystH r.late q.minutes := p.computed_late r
    rw [hlate]
    refine ⟨?undefined, ?defined, minutes_pos_of_newLate, PutRecord.fresh_late⟩
    case undefined =>
      intro hm
      rw [hm, newLate_none]
    case defined =>
      intro m hm
      rw [hm]
      refine ⟨fun hprev => ?_, fun hprev hle => ?_, fun hprev hlt => ?_⟩ <;> rw [hprev]
      · exact newLate_of_clear _ _ m
      · exact newLate_of_set_within m hle
      · exact newLate_of_set_beyond m hlt

/-! ## The display state (R46) -/

theorem displayOf_of_departed {c : Running} (m : Option Nat) (late : Bool) (hs : c.status = .departed) :
    displayOf c m late = .departed := by
  simp only [displayOf, hs]

theorem displayOf_of_cancelled {c : Running} (m : Option Nat) (late : Bool) (hs : c.status = .cancelled) :
    displayOf c m late = .cancelled := by
  simp only [displayOf, hs]

theorem displayOf_of_closed {c : Running} (m : Option Nat) (late : Bool) (hs : c.status = .closed) :
    displayOf c m late = .closed := by
  simp only [displayOf, hs]

theorem displayOf_of_boarding {c : Running} (m : Option Nat) (late : Bool) (hs : c.status = .boarding) :
    displayOf c m late = .boarding := by
  simp only [displayOf, hs]

theorem displayOf_of_unknown {c : Running} (m : Option Nat) (late : Bool) (hs : c.status = .normal)
    (hu : c.unknown = true) : displayOf c m late = .delayed := by
  simp only [displayOf, hs, hu, if_true]

/-- The last two entries of the list are reached while the status is NORMAL and the delay is not unknown. -/
theorem displayOf_of_known {c : Running} (m : Option Nat) (late : Bool) (hs : c.status = .normal)
    (hu : c.unknown = false) : displayOf c m late = if late then .expected (m.getD 0) else .onTime := by
  simp only [displayOf, hs, hu, Bool.false_eq_true, if_false]

theorem Part.computed_display_of_late {p : Part} {r : Record} {m : Nat} (hs : r.running.status = .normal)
    (hu : r.running.unknown = false) (hl : (p.computed r).late = true) (hm : (p.computed r).minutes = some m) :
    (p.computed r).display = .expected m := by
  rw [Part.computed_display, displayOf_of_known _ _ hs hu, hl, hm, if_pos rfl, Option.getD_some]

theorem Part.computed_display_of_clear {p : Part} {r : Record} (hs : r.running.status = .normal)
    (hu : r.running.unknown = false) (hl : (p.computed r).late = false) : (p.computed r).display = .onTime := by
  rw [Part.computed_display, displayOf_of_known _ _ hs hu, hl, if_neg Bool.false_ne_true]

/-! ## The status text of a display state (R45, R46) -/

/-- The model's time display is the one the statements write out (R15). -/
theorem hhmm_eq_timeShown (h : Nat) (t : Int) : hhmm h t = timeShown h t := rfl

theorem statusText_of_expected {r : Record} {m : Nat} (h : Nat) (hd : r.display = .expected m) :
    statusText h r = txtExp ++ timeShown h (60 * (r.sched / 60 + (m : Int))) := by
  simp only [statusText, hd, expectedShown, hhmm_eq_timeShown]

/-- The text of the display states that show no time. -/
theorem statusText_of_untimed {r : Record} (h : Nat) :
    (r.display = .departed → statusText h r = txtDeparted) ∧ (r.display = .cancelled → statusText h r = txtCancelled) ∧
    (r.display = .closed → statusText h r = txtClosed) ∧ (r.display = .boarding → statusText h r = txtBoarding) ∧
    (r.display = .delayed → statusText h r = txtDelayed) ∧ (r.display = .onTime → statusText h r = txtOnTime) := by
  refine ⟨?_, ?_, ?_, ?_, ?_, ?_⟩ <;> intro hd <;> simp only [statusText, hd]

/-! ## Effective departure and ordering key (R47, R48) -/

theorem effectiveDeparture_of_late (s : Int) (m : Nat) :
    effectiveDeparture s (some m) true = s + 60 * (m : Int) := rfl

theorem effectiveDeparture_of_clear (s : Int) (m : Option Nat) : effectiveDeparture s m false = s := rfl

theorem orderingKey_of_resequenced {q m : Nat} {st : Status} (s : Int) (hq : 0 < q) (hm : q ≤ m) (hs : st ≠ .cancelled) :
    orderingKey q s st (some m) true = effectiveDeparture s (some m) true := by
  simp [orderingKey, hq, hm, hs]

/-- Each condition of R48 that fails puts K at S. -/
theorem orderingKey_of_in_place {q : Nat} {st : Status} {m : Option Nat} {late : Bool} (s : Int)
    (h : late = false ∨ q = 0 ∨ st = .cancelled ∨ ∃ n, m = some n ∧ n < q) : orderingKey q s st m late = s := by
  rcases h with hclear | hoff | hcancelled | ⟨n, hm, hlt⟩
  · simp [orderingKey, hclear]
  · simp [orderingKey, hoff]
  · simp [orderingKey, hcancelled]
  · simp [orderingKey, hm, hlt]

theorem Part.computed_eff_of_late {p : Part} {r : Record} {m : Nat} (hl : (p.computed r).late = true)
    (hm : (p.computed r).minutes = some m) : (p.computed r).eff = r.sched + 60 * (m : Int) := by
  rw [Part.computed_eff, hl, hm, effectiveDeparture_of_late]

theorem Part.computed_eff_of_clear {p : Part} {r : Record} (hl : (p.computed r).late = false) :
    (p.computed r).eff = r.sched := by
  rw [Part.computed_eff, hl, effectiveDeparture_of_clear]

theorem Part.computed_key_of_resequenced {p : Part} {r : Record} {m : Nat} (hl : (p.computed r).late = true)
    (hm : (p.computed r).minutes = some m) (hq : 0 < p.reseqQ) (hqm : p.reseqQ ≤ m)
    (hs : r.running.status ≠ .cancelled) : (p.computed r).key = (p.computed r).eff := by
  rw [Part.computed_key, Part.computed_eff, hl, hm, orderingKey_of_resequenced r.sched hq hqm hs]

/-- Settles O31: the seven display states in their order, their texts, then F, K and the fields left alone. -/
theorem displayStateDepartureAndKey : Obligations.DisplayStateDepartureAndKey := by
  refine ⟨?display, ?text, ?departure⟩
  case display =>
    intro p r
    exact ⟨displayOf_of_departed _ _, displayOf_of_cancelled _ _, displayOf_of_closed _ _, displayOf_of_boarding _ _,
      displayOf_of_unknown _ _, fun hs hu _ => Part.computed_display_of_late hs hu, Part.computed_display_of_clear⟩
  case text =>
    intro r h
    obtain ⟨hdeparted, hcancelled, hclosed, hboarding, hdelayed, honTime⟩ := statusText_of_untimed (r := r) h
    exact ⟨hdeparted, hcancelled, hclosed, hboarding, hdelayed, fun _ => statusText_of_expected h, honTime⟩
  case departure =>
    intro p r
    exact ⟨fun _ => Part.computed_eff_of_late, Part.computed_eff_of_clear, fun _ => Part.computed_key_of_resequenced,
      orderingKey_of_in_place r.sched, p.computed_frame r⟩

end Sys2Proof.Machine
end

section
/-! A step, a command and its queue; latching; a reply; the state after power-on reset. -/

namespace Sys2Proof.Machine

/-! ## Commands (log 19) -/

/-- Every command but the two that a part without power takes has its effect with power only. -/
theorem exec_guarded (c : Instr) (s : State) (hon : c ≠ .powerOnReset) (hlevel : ∀ i l, c ≠ .inputLevelChange i l) :
    ∃ q : Part, exec c s = .next { s with part := if s.part.powered then q else s.part } := by
  cases c
  case powerOnReset => exact absurd rfl hon
  case inputLevelChange i l => exact absurd rfl (hlevel i l)
  all_goals exact ⟨_, rfl⟩

theorem leaves_powerOnReset (s : State) : Leaves .powerOnReset s s.part.powerOn := rfl

/-- A contact's level changes without power too. -/
theorem leaves_inputLevelChange_unpowered {s : State} (i : Fin 4) (l : Bool) (hp : s.part.powered = false) :
    Leaves (.inputLevelChange i l) s (s.part.modInput i fun w => { w with asserted := l }) := by
  show execInputLevelChange i l s = _
  rw [execInputLevelChange, hp]
  rfl

theorem leaves_inputLevelChange_powered {s : State} (i : Fin 4) (l : Bool) (hp : s.part.powered = true) :
    Leaves (.inputLevelChange i l) s (s.part.inputLevel i l) := by
  show execInputLevelChange i l s = _
  rw [execInputLevelChange, if_pos hp, act_powered _ s hp]

/-- Every command completes and keeps the queue. -/
theorem leaves_some (c : Instr) (s : State) : ∃ p, Leaves c s p := by
  by_cases hon : c = .powerOnReset
  · exact ⟨_, hon ▸ leaves_powerOnReset s⟩
  by_cases hlevel : ∃ i l, c = .inputLevelChange i l
  · obtain ⟨i, l, rfl⟩ := hlevel
    cases hp : s.part.powered with
    | true => exact ⟨_, leaves_inputLevelChange_powered i l hp⟩
    | false => exact ⟨_, leaves_inputLevelChange_unpowered i l hp⟩
  · obtain ⟨q, hq⟩ := exec_guarded c s hon fun i l h => hlevel ⟨i, l, h⟩
    exact ⟨_, hq⟩

/-- Settles O1: a step is the command in front, run on the rest of the queue. -/
theorem stepTakesFrontCommand : Obligations.StepTakesFrontCommand := fun _ _ _ => rfl

/-- Settles O3, from the form every command's meaning has. -/
theorem everyCommandCompletesAndKeepsTheQueue : Obligations.EveryCommandCompletesAndKeepsTheQueue := by
  refine ⟨leaves_some, ?unpowered, fun i l s hp => leaves_inputLevelChange_unpowered i l hp⟩
  case unpowered =>
    intro c s hp hon hlevel
    obtain ⟨q, hq⟩ := exec_guarded c s hon hlevel
    rw [Leaves, hq, hp]
    rfl

/-! ## An empty queue (log 1) -/

theorem step_of_empty {s : State} (h : s.pending = []) : step s = idle s := by
  rw [step, h]

theorem idle_of_unpowered {s : State} (h : s.part.powered = false) : idle s = .next s := by
  simp [idle, h]

theorem idle_of_due {s : State} {c : Instr} (h : s.part.powered = true) (hc : s.part.due = some c) :
    idle s = exec c s := by
  simp [idle, h, hc]

theorem idle_of_none_due {s : State} (h : s.part.powered = true) (hc : s.part.due = none) :
    idle s = .next { s with part := s.part.tick } := by
  simp [idle, h, hc]

/-- One millisecond of elapsed time writes elapsed time, source time and the two lines. -/
theorem Part.advanceTo_succ (p : Part) :
    p.advanceTo (p.elapsed + 1) = { p with elapsed := p.elapsed + 1, info := (p.advanceTo (p.elapsed + 1)).info,
                                           ctl := (p.advanceTo (p.elapsed + 1)).ctl,
                                           time := { p.time with sourceMs := p.time.sourceMs + 1 } } := by
  simp [Part.advanceTo]

/-- Settles O2, by what `idle` does in each of its three cases. -/
theorem emptyQueueRunsDueEventOrMillisecond : Obligations.EmptyQueueRunsDueEventOrMillisecond := by
  intro s hs
  refine ⟨fun hp => ?_, fun c hp hc => ?_, fun hp hc => ⟨?_, s.part.advanceTo_succ⟩⟩
  · rw [step_of_empty hs, idle_of_unpowered hp]
  · rw [step_of_empty hs, idle_of_due hp hc]
  · rw [step_of_empty hs, idle_of_none_due hp hc]
    rfl

/-! ## Latching (R189, R190) -/

theorem EventKind.code_lt (k : EventKind) : k.code < 29 := by cases k <;> decide

theorem EventKind.code_inj {j k : EventKind} (h : j.code = k.code) : j = k := by
  cases j <;> cases k <;> first | rfl | exact absurd h (by decide)

theorem EventKind.getLsbD_bit (k : EventKind) (n : Nat) : k.bit.getLsbD n = decide (n = k.code) := by
  have := k.code_lt
  simp only [EventKind.bit, BitVec.getLsbD_shiftLeft, BitVec.getLsbD_one]
  by_cases h : n = k.code
  · subst h; simp; omega
  · simp [h]; omega

theorem Port.latch_isLatched_same (q : Port) (k : EventKind) (x : BitVec 16) : (q.latch k x).isLatched k = true := by
  simp [Port.latch, Port.isLatched, EventKind.getLsbD_bit]

theorem Port.latch_isLatched_other (q : Port) {j k : EventKind} (x : BitVec 16) (h : j ≠ k) :
    (q.latch k x).isLatched j = q.isLatched j := by
  have hc : j.code ≠ k.code := fun e => h (EventKind.code_inj e)
  simp [Port.latch, Port.isLatched, EventKind.getLsbD_bit, hc]

theorem Port.latch_subject_same (q : Port) (k : EventKind) (x : BitVec 16) (h : q.subjects.length = 29) :
    (q.latch k x).subject k = x :=
  updateAt_getD_same q.subjects k.code _ 0 (h ▸ k.code_lt)

theorem Port.latch_subject_other (q : Port) {j k : EventKind} (x : BitVec 16) (h : j ≠ k) :
    (q.latch k x).subject j = q.subject j :=
  updateAt_getD_other q.subjects k.code j.code _ 0 fun e => h (EventKind.code_inj e.symm)

theorem Port.latch_noticeDue (q : Port) (k : EventKind) (x : BitVec 16) : (q.latch k x).noticeDue = true ↔
    q.noticeDue = true ∨ (q.isLatched k = false ∧ q.mask.getLsbD k.code = false) := by
  simp [Port.latch]

theorem Part.latch_port (p : Part) (k : EventKind) (x : BitVec 16) (l : Link) :
    (p.latch k x).port l = (p.port l).latch k x := by
  cases l <;> rfl

/-- Settles O5, from what latching does at one port. -/
theorem latchingSetsFlagAndSubject : Obligations.LatchingSetsFlagAndSubject := by
  intro p k x l
  rw [Part.latch_port]
  exact ⟨Port.latch_isLatched_same _ k x, Port.latch_subject_same _ k x,
    fun j hj => ⟨Port.latch_isLatched_other _ x hj, Port.latch_subject_other _ x hj⟩, Port.latch_noticeDue _ k x, rfl, rfl⟩

end Sys2Proof.Machine
end

section
/-! The Link Ports: frame errors, replies, the SUMMARY byte, the event set and RESET_PART; and the state after power-on reset. -/

namespace Sys2Proof.Machine

/-! ## Requests in the words of the statements -/

/-- A request that executes and whose rule replies, said of its command. -/
theorem answers_of_reply {α : Type} {c : Instr} {kind : Nat} {read : List Byte → Option α} {handler : Link → α → Part → Answer}
    {rq : Req} {s : State} {a : α} {p : Part} {r : Result} {body : List Byte}
    (hc : exec c s = act (runRequest kind read handler rq) s) (he : Executes s kind rq) (hr : read rq.body = some a)
    (hh : handler rq.link a s.part = .reply p r body) : Answers c s kind rq p r body :=
  hc.trans (runRequest_reply he hr hh)

@[simp] theorem readEmpty_nil : readEmpty [] = some () := rfl

/-- Settles O18: the rule of RESET_PART, and the check of the Information Port that a reset due fails. -/
theorem resetPartStopsTheInformationPort : Obligations.ResetPartStopsTheInformationPort := by
  intro s rq he hb
  refine ⟨answers_of_reply rfl he (a := ()) (by rw [hb]; rfl) rfl, fun f => ?_⟩
  simp [Part.canExecute]

/-! ## Replies (R186 to R188) -/

@[simp] theorem Port.begin_buffer (q : Port) (now : Nat) : (q.begin now).buffer = q.buffer := by
  unfold Port.begin
  split
  · split <;> rfl
  · rfl

/-- A frame that begins writes the end of its line and nothing else. -/
theorem Port.begin_frame (q : Port) (now : Nat) : q.begin now = { q with lineEnd := (q.begin now).lineEnd } := by
  unfold Port.begin
  split
  · split <;> rfl
  · rfl

/-- On a line that is busy no frame begins. -/
theorem Port.begin_lineEnd_of_busy (q : Port) (now : Nat) (h : q.lineEnd.isSome = true) :
    (q.begin now).lineEnd = q.lineEnd := by
  unfold Port.begin
  cases he : q.lineEnd with
  | none => simp [he] at h
  | some e => exact he

/-- The port of the link a reply is composed for. -/
theorem Part.answer_port_same (p : Part) (l : Link) (k t : Byte) (r : Result) (b : List Byte) :
    (p.answer l k t r b).port l =
      { ({ p.port l with tx := (p.port l).tx ++ [.reply k t (p.summary l) r.code b] } : Port).begin p.elapsed with
        resetSeen := false } := by
  simp [Part.answer, Part.compose, Part.send]

theorem Part.modPort_modPort (p : Part) (l : Link) (f g : Port → Port) :
    (p.modPort l f).modPort l g = p.modPort l fun q => g (f q) := by
  cases l <;> rfl

theorem Part.modPort_congr (p : Part) (l : Link) {f g : Port → Port} (h : f (p.port l) = g (p.port l)) :
    p.modPort l f = p.modPort l g := by
  cases l
  · exact congrArg (fun q => { p with info := q }) h
  · exact congrArg (fun q => { p with ctl := q }) h

/-- Composing a reply changes its port alone. -/
theorem Part.answer_eq_modPort (p : Part) (l : Link) (k t : Byte) (r : Result) (b : List Byte) :
    p.answer l k t r b = p.modPort l fun _ => (p.answer l k t r b).port l := by
  rw [Part.answer_port_same]
  simp only [Part.answer, Part.compose, Part.send, Part.modPort_modPort]
  exact Part.modPort_congr p l rfl

/-- The SUMMARY of a link does not depend on the place of a request. -/
@[simp] theorem Part.freePlace_summary (p : Part) (l : Link) : (p.freePlace l).summary l = p.summary l := by
  cases l <;> rfl

@[simp] theorem Part.freePlace_port (p : Part) (l : Link) : (p.freePlace l).port l = (p.port l).freePlace :=
  Part.modPort_port_same p l _

/-- Settles O14, from the port a reply leaves. -/
theorem replyCarriesKindTagSummaryResultBody : Obligations.ReplyCarriesKindTagSummaryResultBody := by
  intro s p kind rq r body
  have hport : (answered s p kind rq r body).part.port rq.link = _ :=
    Part.answer_port_same (p.freePlace rq.link) rq.link (BitVec.ofNat 8 (kind + 0x80)) rq.tag r body
  rw [hport, Part.freePlace_summary, Part.freePlace_port]
  refine ⟨?tx, ?line, ?frame, ?whole⟩
  case tx => rw [Port.begin_frame]; rfl
  case line =>
    intro hbusy
    exact Port.begin_lineEnd_of_busy _ _ hbusy
  case frame => rw [Port.begin_frame]; rfl
  case whole =>
    have hwhole := Part.answer_eq_modPort (p.freePlace rq.link) rq.link (BitVec.ofNat 8 (kind + 0x80)) rq.tag r body
    rw [Part.answer_port_same, Part.freePlace_summary, Part.freePlace_port] at hwhole
    rw [answered, hwhole, Part.freePlace, Part.modPort_modPort]

/-! ## The event set (R191, R192) -/

theorem ofBe_foldl (l : List Byte) (n : Nat) :
    l.foldl (fun a b => a * 256 + b.toNat) n = n * 256 ^ l.length + ofBe l := by
  induction l generalizing n with
  | nil => simp [ofBe]
  | cons b l ih =>
    have h0 : ofBe (b :: l) = b.toNat * 256 ^ l.length + ofBe l := by
      rw [ofBe, List.foldl_cons, ih]
      simp
    rw [List.foldl_cons, ih, h0, List.length_cons, Nat.pow_succ]
    ring

theorem ofBe_cons (b : Byte) (l : List Byte) : ofBe (b :: l) = b.toNat * 256 ^ l.length + ofBe l := by
  rw [ofBe, List.foldl_cons, ofBe_foldl]
  simp

/-- Reading `n` big-endian bytes gives the number back, modulo what they can hold. -/
theorem ofBe_be (n v : Nat) : ofBe (be n v) = v % 256 ^ n := by
  induction n with
  | zero => simp [be, ofBe, Nat.mod_one]
  | succ n ih =>
    have hsplit : v % 256 ^ (n + 1) = v % 256 ^ n + 256 ^ n * (v / 256 ^ n % 256) := Nat.mod_pow_succ
    rw [be, ofBe_cons, be_length, ih, BitVec.toNat_ofNat, hsplit, Nat.mul_comm, Nat.add_comm]

theorem readBe_be_append (n v : Nat) (rest : List Byte) : readBe n (be n v ++ rest) = some (v % 256 ^ n, rest) := by
  simp [readBe, ofBe_be, List.take_left', List.drop_left']

theorem readOne_be {n v : Nat} (h : v < 256 ^ n) : readOne n (be n v) = some v := by
  have hread : readBe n (be n v) = some (v, []) := by
    simpa [Nat.mod_eq_of_lt h] using readBe_be_append n v []
  simp [readOne, readFields, hread]

/-- An event set is read back from its four bytes. -/
theorem readOne_setBytes (x : BitVec 32) : readOne 4 (setBytes x) = some x.toNat := readOne_be x.isLt

theorem clearSet_getLsbD (clear : BitVec 32) {n : Nat} (h : n < 29) :
    (BitVec.ofNat 32 clear.toNat &&& 0x1FFFFFFF#32).getLsbD n = clear.getLsbD n := by
  have hones : (0x1FFFFFFF#32).getLsbD n = true := by
    have : ∀ m : Fin 29, (0x1FFFFFFF#32).getLsbD m = true := by decide
    exact this ⟨n, h⟩
  rw [BitVec.getLsbD_and, BitVec.ofNat_toNat, BitVec.setWidth_eq, hones, Bool.and_true]

theorem Port.clearEvents_isLatched (q : Port) (clear : BitVec 32) (k : EventKind) :
    (q.clearEvents clear).isLatched k = (q.isLatched k && !clear.getLsbD k.code) := by
  have hk : k.code < 32 := lt_trans k.code_lt (by decide)
  simp [Port.clearEvents, Port.isLatched, hk]

theorem Port.clearEvents_subject (q : Port) (clear : BitVec 32) (k : EventKind) (h : q.subjects.length = 29) :
    (q.clearEvents clear).subject k = if q.isLatched k && clear.getLsbD k.code then 0 else q.subject k := by
  have hk : k.code < q.subjects.length := h ▸ k.code_lt
  simp [Port.clearEvents, Port.subject, Port.isLatched, List.getD_eq_getElem?_getD, k.code_lt, hk]

theorem bitVec_ne_zero_iff {w : Nat} (x : BitVec w) : (x != 0#w) = true ↔ ∃ n, x.getLsbD n = true := by
  rw [bne_iff_ne]
  constructor
  · intro h
    by_contra hnone
    refine h (BitVec.eq_of_getLsbD_eq fun i _ => ?_)
    rw [BitVec.getLsbD_zero]
    exact Bool.eq_false_iff.mpr fun hi => hnone ⟨i, hi⟩
  · rintro ⟨n, hn⟩ rfl
    rw [BitVec.getLsbD_zero] at hn
    cases hn

/-- A kind that a new mask unmasks, bit by bit. -/
theorem unmasked_iff (latched old new : BitVec 32) : ((latched &&& old &&& ~~~new) != 0#32) =
    decide (∃ n : Fin 32, latched.getLsbD n ∧ old.getLsbD n ∧ ¬new.getLsbD n) := by
  rw [Bool.eq_iff_iff, bitVec_ne_zero_iff, decide_eq_true_iff]
  simp only [BitVec.getLsbD_and, BitVec.getLsbD_not, Bool.and_eq_true, decide_eq_true_eq, Bool.not_eq_true']
  constructor
  · rintro ⟨n, ⟨hl, ho⟩, hn, hnew⟩
    exact ⟨⟨n, hn⟩, hl, ho, Bool.eq_false_iff.mp hnew⟩
  · rintro ⟨n, hl, ho, hnew⟩
    exact ⟨n, ⟨hl, ho⟩, n.isLt, Bool.eq_false_iff.mpr hnew⟩

/-- Settles O17: EVENTS_READ_CLEAR kind by kind, EVENTS_MASK_SET by its one check. -/
theorem eventSetReadClearedAndMasked : Obligations.EventSetReadClearedAndMasked := by
  refine ⟨?clear, ?mask⟩
  case clear =>
    intro s rq clear he hb hsub
    let kinds := BitVec.ofNat 32 clear.toNat &&& 0x1FFFFFFF#32
    refine ⟨(s.part.port rq.link).clearEvents kinds, answers_of_reply rfl he (hb ▸ readOne_setBytes clear) ?rule, rfl,
      fun k => ⟨?latched, ?subject⟩⟩
    case rule =>
      exact congrArg (Answer.reply · _ _) (Part.modPort_congr _ _ rfl)
    case latched => rw [Port.clearEvents_isLatched, clearSet_getLsbD _ k.code_lt]
    case subject => rw [Port.clearEvents_subject _ _ _ hsub, clearSet_getLsbD _ k.code_lt]
  case mask =>
    intro s rq mask he hb
    refine ⟨fun hbig => ?_, fun hsmall => ?_⟩
    · exact answers_of_reply rfl he (hb ▸ readOne_setBytes mask) (by rw [eventsMaskSet, if_pos hbig]; rfl)
    · refine answers_of_reply rfl he (hb ▸ readOne_setBytes mask) ?_
      rw [eventsMaskSet, if_neg (Nat.not_lt.mpr hsmall), BitVec.ofNat_toNat, BitVec.setWidth_eq]
      refine congrArg (Answer.reply · _ _) (Part.modPort_congr _ _ ?_)
      rw [Port.setMask, unmasked_iff]

/-! ## Frame errors (R185) -/

theorem startsFrame_eq (why : FrameErrorCause) : startsFrame why = decide (why = .gap 0xC5) := by
  cases why with
  | gap next => simp [startsFrame]; rfl
  | badLength n => rfl
  | missingStop => rfl
  | badCheck => rfl

/-- Settles O13: the frame error is the one write that FRAME_ERROR makes at its port. -/
theorem frameErrorCountsAndLatchesOnItsLink : Obligations.FrameErrorCountsAndLatchesOnItsLink := by
  intro s l why hp
  show act (fun p => p.frameErrorOn l (startsFrame why)) s = _
  rw [act_powered _ s hp, startsFrame_eq]
  refine congrArg (fun q => Host.Outcome.next { s with part := q }) ?_
  rw [Part.frameErrorOn]
  exact Part.modPort_congr _ _ rfl

/-! ## The SUMMARY byte (R188) -/

theorem getLsbD_bitOf (b : Bool) {n i : Nat} (hn : n < 8) : (bitOf b n).getLsbD i = (b && decide (i = n)) := by
  cases b with
  | false => simp [bitOf]
  | true =>
    simp only [bitOf, if_true, BitVec.getLsbD_shiftLeft, BitVec.getLsbD_one]
    by_cases h : i = n
    · subst h; simp; omega
    · simp [h]; omega

theorem EventKind.exists_code {n : Nat} (h : n < 29) : ∃ k : EventKind, k.code = n := by
  have hall : ∀ m : Fin 29, ∃ k : EventKind, k.code = m := by
    intro m
    fin_cases m
    exacts [⟨.resetDone, rfl⟩, ⟨.frameErrors, rfl⟩, ⟨.feedStale, rfl⟩, ⟨.feedLost, rfl⟩, ⟨.feedRestored, rfl⟩,
      ⟨.ownershipChanged, rfl⟩, ⟨.platformChanged, rfl⟩, ⟨.delayNotice, rfl⟩, ⟨.serviceRetired, rfl⟩, ⟨.rolloverDone, rfl⟩,
      ⟨.noticeExpired, rfl⟩, ⟨.cueDone, rfl⟩, ⟨.cueFailed, rfl⟩, ⟨.cueDropped, rfl⟩, ⟨.announcerLost, rfl⟩,
      ⟨.announcerRestored, rfl⟩, ⟨.panelFault, rfl⟩, ⟨.panelRecovered, rfl⟩, ⟨.spareChanged, rfl⟩, ⟨.thermalWarning, rfl⟩,
      ⟨.linkTestState, rfl⟩, ⟨.timeLockChanged, rfl⟩, ⟨.timeStepped, rfl⟩, ⟨.oscillatorSwitched, rfl⟩,
      ⟨.clockLineFault, rfl⟩, ⟨.clockLineInStep, rfl⟩, ⟨.clocksParked, rfl⟩, ⟨.inputChanged, rfl⟩, ⟨.settingsFault, rfl⟩]
  exact hall ⟨n, h⟩

/-- ATTENTION is up when a kind, or a flag beyond the kinds, is latched and not masked. -/
theorem Port.attention_iff (q : Port) : q.attention = true ↔
    ∃ k : EventKind, q.isLatched k = true ∧ q.mask.getLsbD k.code = false
      ∨ ∃ n, 29 ≤ n ∧ q.latched.getLsbD n = true ∧ q.mask.getLsbD n = false := by
  have hbit : q.attention = true ↔ ∃ n, q.latched.getLsbD n = true ∧ q.mask.getLsbD n = false := by
    rw [Port.attention, bitVec_ne_zero_iff]
    simp only [BitVec.getLsbD_and, BitVec.getLsbD_not, Bool.and_eq_true, decide_eq_true_eq, Bool.not_eq_true']
    exact ⟨fun ⟨n, hl, _, hm⟩ => ⟨n, hl, hm⟩, fun ⟨n, hl, hm⟩ => ⟨n, hl, BitVec.lt_of_getLsbD hl, hm⟩⟩
  rw [hbit]
  constructor
  · rintro ⟨n, hl, hm⟩
    by_cases hn : n < 29
    · obtain ⟨k, rfl⟩ := EventKind.exists_code hn
      exact ⟨k, Or.inl ⟨hl, hm⟩⟩
    · exact ⟨.resetDone, Or.inr ⟨n, Nat.not_lt.mp hn, hl, hm⟩⟩
  · rintro ⟨k, ⟨hl, hm⟩ | ⟨n, _, hl, hm⟩⟩
    · exact ⟨k.code, hl, hm⟩
    · exact ⟨n, hl, hm⟩

theorem Chain.wallBit_iff (c : Chain) : c.wallBit = true ↔
    (∃ a ∈ c.polled, (c.panel a).isFaulted = true) ∨ (∃ n, c.duty = .engaged n) ∨ c.test.phase ≠ .idle := by
  have hduty : c.duty.covers.isSome = true ↔ ∃ n, c.duty = .engaged n := by
    cases c.duty <;> simp [Duty.covers]
  simp [Chain.wallBit, hduty, LinkTest.isRunning, or_assoc]

theorem CueSched.cueBit_iff (q : CueSched) : q.cueBit = true ↔ q.announcer = .lost ∨ .offline ∈ q.zones := by
  simp [CueSched.cueBit]

theorem Timebase.timeBit_iff (t : Timebase) : t.timeBit = true ↔
    t.valid = false ∨ t.ref.isLocked = false ∨ t.source = .derived := by
  simp [Timebase.timeBit, or_assoc]

theorem Part.inputBit_iff (p : Part) : p.inputBit = true ↔
    ∃ i, i < 4 ∧ (p.inputConfig i).mode = .act ∧ (p.input i).state = .active := by
  simp [Part.inputBit]

theorem FeedState.ne_live_iff (f : FeedState) : (f != .live) = true ↔ f = .stale ∨ f = .lost := by
  cases f <;> decide

/-- Settles O15, the eight bits one by one. -/
theorem summaryBits : Obligations.SummaryBits := by
  intro p l
  simp only [Part.summary, BitVec.getLsbD_or, getLsbD_bitOf, Nat.reduceLT]
  simp only [Nat.reduceEqDiff, decide_true, decide_false, Bool.and_true, Bool.and_false, Bool.or_false, Bool.false_or]
  exact ⟨Port.attention_iff _, trivial, trivial, FeedState.ne_live_iff _, Chain.wallBit_iff _, CueSched.cueBit_iff _,
    Timebase.timeBit_iff _, Part.inputBit_iff _⟩

/-! ## The state after power-on reset -/

theorem resetPart_table_ok : Part.reset.table.ok := by
  unfold Table.ok
  decide +kernel

theorem resetPart_copiesOk : Part.reset.copiesOk := by
  refine ⟨by decide, fun r h => ?_⟩
  cases h

theorem resetPart_notices_ok : Part.reset.notices.ok :=
  ⟨by decide, by decide, by decide, by decide, by decide, by decide, rfl⟩

theorem resetPart_cues_ok : Part.reset.cues.ok := by
  unfold CueSched.ok
  decide +kernel

theorem resetPart_image_ok : Part.reset.image.ok := by
  unfold Image.ok
  decide +kernel

theorem resetPart_settingsOk : Part.reset.settingsOk := by
  have hrows : ∀ r ∈ List.range 11, (Part.reset.row r).length = 64 ∧ clampRow r (Part.reset.row r) = Part.reset.row r := by
    decide +kernel
  refine ⟨by decide, fun r hr => hrows r (List.mem_range.mpr hr), by decide, by decide +kernel, by decide, fun e he => ?_⟩
  cases he

/-- At reset no poll is out, the cycle is empty, and the spare stands by in AUTOMATIC mode. -/
theorem resetPart_spareLaw : Part.reset.chain.spareLaw := by
  refine ⟨by decide, by decide, fun q h => ?_, fun a h => ?_, fun n h => ?_, fun n h => ?_⟩
  all_goals cases h

/-- Settles O60. -/
theorem resetSatisfiesInvariants : Obligations.ResetSatisfiesInvariants :=
  ⟨resetPart_table_ok, resetPart_copiesOk, resetPart_notices_ok, resetPart_cues_ok, resetPart_image_ok, resetPart_settingsOk,
    resetPart_spareLaw, by decide, by decide⟩

/-- Settles O6, block by block. -/
theorem stateResetHoldsTheListedValues : Obligations.StateResetHoldsTheListedValues := by
  refine ⟨rfl, by decide, ⟨rfl, rfl⟩, ⟨by decide, by decide, rfl, ?owner⟩, ⟨rfl, rfl, rfl, rfl⟩,
    ⟨rfl, by decide, by decide +kernel, rfl⟩, ⟨rfl, rfl, rfl, rfl, rfl, rfl, rfl⟩, by decide, ?line, ⟨rfl, rfl, rfl⟩, ?port,
    ⟨rfl, rfl, rfl, rfl⟩⟩
  case owner =>
    intro l
    cases l <;> exact ⟨rfl, rfl⟩
  case line =>
    have h : ∀ i, i < 4 → Part.reset.clocks.line i = resetClockLine ∧ Part.reset.input i = resetInput := by decide
    exact h
  case port =>
    intro l
    cases l <;> decide

end Sys2Proof.Machine
end

section
/-! Lists kept in order, and the search for a free number. -/

namespace Sys2Proof.Machine

/-! ## Insertion into a list in order -/

theorem mem_insertBy {α : Type} {before : α → α → Bool} {a b : α} {l : List α} :
    b ∈ insertBy before a l ↔ b = a ∨ b ∈ l := by
  rw [(insertBy_perm before a l).mem_iff, List.mem_cons]

/-- Insertion keeps a list in a transitive order in which the new element compares with every other. -/
theorem insertBy_pairwise {α : Type} {before : α → α → Bool} {a : α} {l : List α}
    (htrans : ∀ x y z, before x y = true → before y z = true → before x z = true)
    (htotal : ∀ b ∈ l, before a b = true ∨ before b a = true)
    (h : l.Pairwise fun x y => before x y = true) : (insertBy before a l).Pairwise fun x y => before x y = true := by
  induction l with
  | nil => exact List.pairwise_singleton _ _
  | cons b l ih =>
    obtain ⟨hb, hl⟩ := List.pairwise_cons.mp h
    unfold insertBy
    split
    · next hab =>
      refine List.pairwise_cons.mpr ⟨fun x hx => ?_, h⟩
      rcases List.mem_cons.mp hx with rfl | hx
      · exact hab
      · exact htrans _ _ _ hab (hb x hx)
    · next hab =>
      refine List.pairwise_cons.mpr ⟨fun x hx => ?_, ih (fun c hc => htotal c (List.mem_cons_of_mem b hc)) hl⟩
      rcases mem_insertBy.mp hx with rfl | hx
      · exact (htotal b List.mem_cons_self).resolve_left hab
      · exact hb x hx

theorem foldl_insertBy_pairwise {α : Type} {before : α → α → Bool} (l acc : List α)
    (htrans : ∀ x y z, before x y = true → before y z = true → before x z = true)
    (htotal : (l ++ acc).Pairwise fun x y => before x y = true ∨ before y x = true)
    (h : acc.Pairwise fun x y => before x y = true) :
    (l.foldl (fun acc a => insertBy before a acc) acc).Pairwise fun x y => before x y = true := by
  induction l generalizing acc with
  | nil => exact h
  | cons a l ih =>
    rw [List.foldl_cons]
    rw [List.cons_append, List.pairwise_cons] at htotal
    obtain ⟨ha, hrest⟩ := htotal
    refine ih _ ?_ (insertBy_pairwise htrans (fun b hb => ha b (List.mem_append_right l hb)) h)
    have hperm : (l ++ insertBy before a acc).Perm (a :: (l ++ acc)) :=
      ((insertBy_perm before a acc).append_left l).trans List.perm_middle
    exact (hperm.pairwise_iff fun h => h.symm).mpr (List.pairwise_cons.mpr ⟨ha, hrest⟩)

/-- Putting a list in order puts it in order, where the order is transitive and any two elements compare. -/
theorem sortBy_pairwise {α : Type} {before : α → α → Bool} (l : List α)
    (htrans : ∀ x y z, before x y = true → before y z = true → before x z = true)
    (htotal : l.Pairwise fun x y => before x y = true ∨ before y x = true) :
    (sortBy before l).Pairwise fun x y => before x y = true :=
  foldl_insertBy_pairwise l [] htrans (by rwa [List.append_nil]) List.Pairwise.nil

theorem mem_sortBy {α : Type} {before : α → α → Bool} {a : α} {l : List α} : a ∈ sortBy before l ↔ a ∈ l :=
  (sortBy_perm before l).mem_iff

/-! ## One element picked from a list -/

/-- A fold that keeps what it has or takes the element it meets picks an element of the list. -/
theorem foldl_pick_mem {α : Type} {f : Option α → α → Option α} (hf : ∀ b a, f b a = b ∨ f b a = some a) {l : List α} {v : α}
    (h : l.foldl f none = some v) : v ∈ l := by
  have hfold : ∀ (l : List α) (best : Option α), l.foldl f best = some v → v ∈ l ∨ best = some v := by
    intro l
    induction l with
    | nil => exact fun best h => Or.inr h
    | cons a l ih =>
      intro best h
      rcases ih _ h with hl | hb
      · exact Or.inl (List.mem_cons_of_mem a hl)
      · rcases hf best a with he | he
        · exact Or.inr (he ▸ hb)
        · exact Or.inl (Option.some.inj (he ▸ hb) ▸ List.mem_cons_self)
  exact (hfold l none h).resolve_right (by simp)

/-! ## The search for a free number (R89, R145) -/

/-- The number tried after `n`. -/
def nextTried (top n : Nat) : Nat := if n < top then n + 1 else 1

/-- The numbers that `firstFree` tries, in order. -/
def tried (top : Nat) : Nat → Nat → List Nat
  | 0, _ => []
  | fuel + 1, n => n :: tried top fuel (nextTried top n)

@[simp] theorem tried_length (top fuel n : Nat) : (tried top fuel n).length = fuel := by
  induction fuel generalizing n with
  | zero => rfl
  | succ fuel ih => simp [tried, ih]

/-- The search finds a number that is not used when one of those it tries is not. -/
theorem firstFree_unused {used : Nat → Bool} {top : Nat} (fuel n : Nat) (h : ∃ m ∈ tried top fuel n, used m = false) :
    used (firstFree used top fuel n) = false := by
  induction fuel generalizing n with
  | zero =>
    obtain ⟨m, hm, _⟩ := h
    cases hm
  | succ fuel ih =>
    unfold firstFree
    split
    · next hn =>
      obtain ⟨m, hm, hu⟩ := h
      rcases List.mem_cons.mp hm with rfl | hm
      · rw [hn] at hu
        cases hu
      · exact ih _ ⟨m, hm, hu⟩
    · next hn => exact Bool.eq_false_iff.mpr hn

/-- From a number within 1..top only such numbers are tried. -/
theorem firstFree_range {used : Nat → Bool} {top : Nat} (fuel n : Nat) (h1 : 1 ≤ n) (h2 : n ≤ top) :
    1 ≤ firstFree used top fuel n ∧ firstFree used top fuel n ≤ top := by
  induction fuel generalizing n with
  | zero => exact ⟨h1, h2⟩
  | succ fuel ih =>
    unfold firstFree
    split
    · refine ih _ ?_ ?_
      · split <;> omega
      · split <;> omega
    · exact ⟨h1, h2⟩

/-- Up to `top` the numbers tried count upward. -/
theorem tried_of_small {top : Nat} (fuel n : Nat) (h : n + fuel ≤ top + 1) : tried top fuel n = List.range' n fuel := by
  induction fuel generalizing n with
  | zero => rfl
  | succ fuel ih =>
    rw [tried, List.range'_succ]
    congr 1
    cases fuel with
    | zero => rfl
    | succ k =>
      have hn : nextTried top n = n + 1 := if_pos (by omega)
      rw [hn]
      exact ih (n + 1) (by omega)

/-- Beyond `top` they go on with 1. -/
theorem tried_of_large {top : Nat} (k fuel n : Nat) (hn : n ≤ top) (hk : k = top + 1 - n) :
    tried top (k + fuel) n = List.range' n k ++ tried top fuel 1 := by
  induction k generalizing n with
  | zero => omega
  | succ k ih =>
    rw [Nat.succ_add, tried, List.range'_succ, List.cons_append]
    congr 1
    by_cases hlt : n < top
    · have : nextTried top n = n + 1 := if_pos hlt
      rw [this]
      exact ih (n + 1) hlt (by omega)
    · have : nextTried top n = 1 := if_neg hlt
      have hk0 : k = 0 := by omega
      simp [this, hk0]

/-- No number is tried twice in `top` tries. -/
theorem tried_nodup {top : Nat} (fuel n : Nat) (h : fuel ≤ top) : (tried top fuel n).Nodup := by
  by_cases hn : n ≤ top
  · by_cases hsmall : n + fuel ≤ top + 1
    · rw [tried_of_small fuel n hsmall]
      exact List.nodup_range'
    · obtain ⟨rest, hrest⟩ : ∃ rest, fuel = (top + 1 - n) + rest := ⟨fuel - (top + 1 - n), by omega⟩
      rw [hrest, tried_of_large _ rest n hn rfl, tried_of_small rest 1 (by omega)]
      refine List.nodup_append.mpr ⟨List.nodup_range', List.nodup_range', fun a ha b hb => ?_⟩
      rw [List.mem_range'_1] at ha hb
      omega
  · cases fuel with
    | zero => exact List.nodup_nil
    | succ k =>
      have hnext : nextTried top n = 1 := if_neg (by omega)
      rw [tried, hnext, tried_of_small k 1 (by omega)]
      refine List.nodup_cons.mpr ⟨fun hmem => ?_, List.nodup_range'⟩
      rw [List.mem_range'_1] at hmem
      omega

/-- A number is free when more are tried than are used. -/
theorem firstFree_free {used : Nat → Bool} {top : Nat} (taken : List Nat) (hused : ∀ n, used n = true → n ∈ taken)
    (n : Nat) (h : taken.length < top) : used (firstFree used top top n) = false := by
  refine firstFree_unused top n ?_
  by_contra hnone
  have hsub : tried top top n ⊆ taken := by
    intro m hm
    refine hused m ?_
    by_contra hu
    exact hnone ⟨m, hm, Bool.eq_false_iff.mpr hu⟩
  have hle := (List.subperm_of_subset (tried_nodup top n (Nat.le_refl top)) hsub).length_le
  rw [tried_length] at hle
  omega

end Sys2Proof.Machine
end

section
/-! What every step keeps, as a relation of the part before and the part after; and the cue laws of the scheduler's operations. -/

namespace Sys2Proof.Machine

/-! ## The cue laws -/

/-- What the cue laws read of a record. -/
def Cue.key (c : Cue) : Nat × CueOrigin × List Nat := (c.id, c.origin, c.zones.map (·.1))

/-- The most ids that may be reserved for a free one to be found. -/
def reservedMax : Nat := 60000

/-- The cue laws pass from one state of the scheduler to another: the quotas, zones and queues, and the distinct ids. -/
structure CueSched.Keeps (q r : CueSched) : Prop where
  ok : q.ok → r.ok
  ids : ∀ n, n ≤ reservedMax → q.ok → q.reserved.length ≤ n → (q.pool.map (·.id)).Nodup →
    r.reserved.length ≤ n ∧ (r.pool.map (·.id)).Nodup

theorem CueSched.Keeps.refl (q : CueSched) : q.Keeps q := ⟨id, fun _ _ _ hr hd => ⟨hr, hd⟩⟩

theorem CueSched.Keeps.trans {q r s : CueSched} (h₁ : q.Keeps r) (h₂ : r.Keeps s) : q.Keeps s :=
  ⟨fun h => h₂.ok (h₁.ok h), fun n hn hok hr hd =>
    h₂.ids n hn (h₁.ok hok) (h₁.ids n hn hok hr hd).1 (h₁.ids n hn hok hr hd).2⟩

/-- Nothing is added: the records that remain have their ids, origins and zones, no queue and no list of reserved ids is longer. -/
structure CueSched.Shrinks (q r : CueSched) : Prop where
  pool : (r.pool.map Cue.key).Sublist (q.pool.map Cue.key)
  queues : ∀ l ∈ r.queues, ∃ m ∈ q.queues, l.length ≤ m.length
  reserved : r.reserved.length ≤ q.reserved.length

theorem CueSched.Shrinks.trans {q r s : CueSched} (h₁ : q.Shrinks r) (h₂ : r.Shrinks s) : q.Shrinks s := by
  refine ⟨h₂.pool.trans h₁.pool, fun l hl => ?_, h₂.reserved.trans h₁.reserved⟩
  obtain ⟨m, hm, hlm⟩ := h₂.queues l hl
  obtain ⟨k, hk, hmk⟩ := h₁.queues m hm
  exact ⟨k, hk, hlm.trans hmk⟩

theorem CueSched.Shrinks.of_same {q r : CueSched} (hp : r.pool.map Cue.key = q.pool.map Cue.key) (hq : r.queues = q.queues)
    (hr : r.reserved = q.reserved) : q.Shrinks r :=
  ⟨by rw [hp], fun l hl => ⟨l, hq ▸ hl, Nat.le_refl _⟩, by rw [hr]⟩

theorem CueSched.Shrinks.refl (q : CueSched) : q.Shrinks q := .of_same rfl rfl rfl

theorem CueSched.ofOrigin_eq (q : CueSched) (o : CueOrigin) :
    q.ofOrigin o = ((q.pool.map Cue.key).filter fun k => k.2.1 == o).length := by
  rw [CueSched.ofOrigin, List.filter_map, List.length_map]
  rfl

theorem CueSched.Shrinks.ofOrigin_le {q r : CueSched} (h : q.Shrinks r) (o : CueOrigin) : r.ofOrigin o ≤ q.ofOrigin o := by
  rw [CueSched.ofOrigin_eq, CueSched.ofOrigin_eq]
  exact (h.pool.filter _).length_le

theorem CueSched.Shrinks.keeps {q r : CueSched} (h : q.Shrinks r) : q.Keeps r := by
  refine ⟨?ok, ?ids⟩
  case ok =>
    rintro ⟨hauto, hctl, hinput, hzones, hqueues⟩
    refine ⟨?_, (h.ofOrigin_le _).trans hctl, (h.ofOrigin_le _).trans hinput, fun c hc z hz => ?_, fun l hl => ?_⟩
    · exact (Nat.add_le_add (h.ofOrigin_le _) (h.ofOrigin_le _)).trans hauto
    · obtain ⟨d, hd, hkey⟩ := List.mem_map.mp (h.pool.subset (List.mem_map_of_mem hc))
      have hzs : d.zones.map (·.1) = c.zones.map (·.1) := congrArg (fun k => k.2.2) hkey
      obtain ⟨y, hy, hyz⟩ := List.mem_map.mp (hzs ▸ List.mem_map_of_mem hz)
      rw [← hyz]
      exact hzones d hd y hy
    · obtain ⟨m, hm, hlm⟩ := h.queues l hl
      exact hlm.trans (hqueues m hm)
  case ids =>
    intro n _ _ hr hd
    refine ⟨h.reserved.trans hr, ?_⟩
    have hkeys : ∀ l : List Cue, l.map (·.id) = (l.map Cue.key).map (·.1) := fun l => by simp [Cue.key]
    rw [hkeys] at hd ⊢
    exact hd.sublist (h.pool.map _)

/-! ## Operations that add nothing -/

theorem CueSched.shrinks_free (q : CueSched) (id : Nat) : q.Shrinks (q.free id) := by
  refine ⟨List.filter_sublist.map _, fun l hl => ?_, Nat.le_refl _⟩
  obtain ⟨m, hm, rfl⟩ := List.mem_map.mp hl
  exact ⟨m, hm, List.length_filter_le _ _⟩

theorem map_key_map {l : List Cue} {f : Cue → Cue} (h : ∀ c, (f c).key = c.key) : (l.map f).map Cue.key = l.map Cue.key := by
  rw [List.map_map]
  exact List.map_congr_left fun c _ => h c

theorem CueSched.shrinks_modCue (q : CueSched) (id : Nat) {f : Cue → Cue} (h : ∀ c, (f c).key = c.key) :
    q.Shrinks (q.modCue id f) := by
  refine .of_same (map_key_map fun c => ?_) rfl rfl
  split
  · exact h c
  · rfl

@[simp] theorem Cue.key_setOutcome (c : Cue) (sel : Nat → Bool) (o : ZoneOutcome) : (c.setOutcome sel o).key = c.key := by
  have h : ∀ z : Nat × ZoneOutcome, (if sel z.1 then (z.1, o) else z).1 = z.1 := fun z => by split <;> rfl
  simp [Cue.key, Cue.setOutcome, Function.comp_def, h]

@[simp] theorem Cue.key_flight (c : Cue) (f : Flight) : ({ c with flight := f } : Cue).key = c.key := rfl

theorem CueSched.shrinks_setZone (q : CueSched) (z : Nat) (st : ZoneState) : q.Shrinks (q.setZone z st) := .of_same rfl rfl rfl

theorem CueSched.shrinks_idleZonesOf (q : CueSched) (id : Nat) : q.Shrinks (q.idleZonesOf id) := .of_same rfl rfl rfl

theorem CueSched.shrinks_transmit (q : CueSched) (f : Nat → CueFrame) : q.Shrinks (q.transmit f) := .of_same rfl rfl rfl

/-- Queues that only lose references. -/
theorem CueSched.shrinks_queues (q : CueSched) (qs : List (List Nat)) (h : ∀ l ∈ qs, ∃ m ∈ q.queues, l.length ≤ m.length) :
    q.Shrinks { q with queues := qs } := ⟨List.Sublist.refl _, h, Nat.le_refl _⟩

theorem CueSched.shrinks_foldl {β : Type} (f : CueSched → β → CueSched) (h : ∀ (q : CueSched) b, q.Shrinks (f q b)) (l : List β)
    (q : CueSched) : q.Shrinks (l.foldl f q) :=
  foldl_invariant (q.Shrinks ·) f (fun r b hr => hr.trans (h r b)) l q (.refl q)

/-! ## References and records added -/

/-- A reference put into a queue with room. -/
theorem CueSched.keeps_insertReference (q : CueSched) (z id : Nat) (h : (q.queue z).length < 6) :
    q.Keeps { q with queues := updateAt q.queues (z - 1) (insertBy q.refBefore id) } := by
  refine ⟨fun ⟨hauto, hctl, hinput, hzones, hqueues⟩ => ⟨hauto, hctl, hinput, hzones, fun l hl => ?_⟩,
    fun _ _ _ hr hd => ⟨hr, hd⟩⟩
  obtain ⟨i, hi⟩ := List.mem_iff_getElem?.mp hl
  rw [updateAt_getElem?] at hi
  split at hi
  · next hz =>
    cases hm : q.queues[i]? with
    | none => simp [hm] at hi
    | some m =>
      rw [hm, Option.map_some, Option.some.injEq] at hi
      have hlen : m.length < 6 := by
        rw [CueSched.queue, hz, List.getD_eq_getElem?_getD, hm] at h
        exact h
      rw [← hi, insertBy_length]
      exact hlen
  · exact hqueues l (List.mem_of_getElem? hi)

/-- The ids that are taken. -/
theorem CueSched.mem_taken {q : CueSched} {n : Nat} (h : q.idTaken n = true) :
    n ∈ q.pool.map (·.id) ++ q.reserved.map (·.1) := by
  simp only [CueSched.idTaken, Bool.or_eq_true, List.any_eq_true, beq_iff_eq] at h
  rw [List.mem_append, List.mem_map, List.mem_map]
  exact h

/-- Every record is of one of the four origins. -/
theorem CueSched.pool_length (q : CueSched) :
    q.pool.length = q.ofOrigin .auto + q.ofOrigin .information + q.ofOrigin .control + q.ofOrigin .input := by
  unfold CueSched.ofOrigin
  induction q.pool with
  | nil => rfl
  | cons c l ih =>
    rw [List.length_cons, ih]
    cases ho : c.origin <;> simp [ho] <;> omega

theorem CueSched.ok.pool_le {q : CueSched} (h : q.ok) : q.pool.length ≤ 32 := by
  obtain ⟨hauto, hctl, hinput, _, _⟩ := h
  have := q.pool_length
  omega

/-- The id of a new record is that of no record held and not reserved. -/
theorem CueSched.newId_free {q : CueSched} {n : Nat} (hn : n ≤ reservedMax) (hok : q.ok) (hr : q.reserved.length ≤ n)
    (start : Nat) : q.idTaken (firstFree q.idTaken 65535 65535 start) = false := by
  refine firstFree_free _ (fun m hm => CueSched.mem_taken hm) start ?_
  have := hok.pool_le
  simp only [List.length_append, List.length_map, reservedMax] at *
  omega

theorem CueSched.ofOrigin_append (q : CueSched) (c : Cue) (o : CueOrigin) :
    ({ q with pool := q.pool ++ [c] } : CueSched).ofOrigin o = q.ofOrigin o + if c.origin = o then 1 else 0 := by
  simp only [CueSched.ofOrigin, List.filter_append, List.length_append]
  by_cases h : c.origin = o <;> simp [h]

/-- A record within its quota and with zones 1 to 8 may be added. -/
theorem CueSched.ok.add {q : CueSched} (h : q.ok) (c : Cue) (hquota : q.quotaFull c.origin = false)
    (hzones : ∀ z ∈ c.zones, 1 ≤ z.1 ∧ z.1 ≤ 8) (i a : Nat) :
    ({ q with pool := q.pool ++ [c], nextId := i, nextArrival := a } : CueSched).ok := by
  obtain ⟨hauto, hctl, hinput, hz, hqueues⟩ := h
  have hcount : ∀ o, ({ q with pool := q.pool ++ [c], nextId := i, nextArrival := a } : CueSched).ofOrigin o =
      q.ofOrigin o + if c.origin = o then 1 else 0 := q.ofOrigin_append c
  refine ⟨?_, ?_, ?_, fun d hd => ?_, hqueues⟩
  · rw [hcount, hcount]
    cases ho : c.origin <;> simp [ho, CueSched.quotaFull] at hquota ⊢ <;> omega
  · rw [hcount]
    cases ho : c.origin <;> simp [ho, CueSched.quotaFull] at hquota ⊢ <;> omega
  · rw [hcount]
    cases ho : c.origin <;> simp [ho, CueSched.quotaFull] at hquota ⊢ <;> omega
  · rcases List.mem_append.mp hd with hd | hd
    · exact hz d hd
    · rw [List.mem_singleton.mp hd]
      exact hzones

/-! ## The relation of a step -/

/-- The laws of the Departure Table and of its Control copies. -/
def Part.tableLaw (p : Part) : Prop := p.table.ok ∧ p.copiesOk

/-- Every law but those of the Departure Table passes from one part to the other. -/
structure Part.KeepsRest (p q : Part) : Prop where
  cues : p.cues.Keeps q.cues
  notices : p.notices.ok → q.notices.ok
  image : p.image.ok → q.image.ok
  second : p.time.second < 86400 → q.time.second < 86400
  settings : p.settingsOk → q.settingsOk
  spare : p.settingsOk → p.chain.spareLaw → q.chain.spareLaw

/-- Every law passes from one part to the other. -/
structure Part.Keeps (p q : Part) : Prop extends Part.KeepsRest p q where
  table : p.tableLaw → q.tableLaw

theorem Part.KeepsRest.refl (p : Part) : p.KeepsRest p := ⟨.refl _, id, id, id, id, fun _ => id⟩

theorem Part.KeepsRest.trans {p q r : Part} (h₁ : p.KeepsRest q) (h₂ : q.KeepsRest r) : p.KeepsRest r :=
  ⟨h₁.cues.trans h₂.cues, fun h => h₂.notices (h₁.notices h), fun h => h₂.image (h₁.image h),
    fun h => h₂.second (h₁.second h), fun h => h₂.settings (h₁.settings h), fun hs h => h₂.spare (h₁.settings hs) (h₁.spare hs h)⟩

theorem Part.Keeps.refl (p : Part) : p.Keeps p := ⟨.refl p, id⟩

theorem Part.Keeps.trans {p q r : Part} (h₁ : p.Keeps q) (h₂ : q.Keeps r) : p.Keeps r :=
  ⟨h₁.toKeepsRest.trans h₂.toKeepsRest, fun h => h₂.table (h₁.table h)⟩

/-- What the laws of Control copies and of the table read of a part. -/
theorem Part.tableLaw_of_same {p q : Part} (ht : q.table = p.table) (ho : q.own.platforms = p.own.platforms) (h : p.tableLaw) :
    q.tableLaw := by
  obtain ⟨hok, hown, hcopies⟩ := h
  refine ⟨ht ▸ hok, ho ▸ hown, fun r hr => ?_⟩
  obtain ⟨hinfo, hctl, hlaw⟩ := hcopies r (ht ▸ hr)
  refine ⟨hinfo, hctl, ?_⟩
  unfold Part.copyLaw Part.controlOwned Part.controlOwnsAny at *
  rw [ho]
  exact hlaw

theorem Part.settingsOk_of_same {p q : Part} (hs : q.store = p.store) (hc : q.clocks = p.clocks) (h : p.settingsOk) :
    q.settingsOk := by
  unfold Part.settingsOk Part.row at *
  rw [hs, hc]
  exact h

/-- The part with everything blanked that no law reads. -/
def Part.bare (p : Part) : Part :=
  { p with powered := true, elapsed := 0, free := 0, time := { resetTimebase 0 0 with second := p.time.second },
           own := { resetOwnership 0 with platforms := p.own.platforms }, inputs := [], info := resetPort 0 0,
           ctl := resetPort 0 0, feed := Part.reset.feed, resetDue := false, ev := noEvent }

/-- A change of what no law reads keeps every law. -/
theorem Part.keeps_of_bare {p q : Part} (h : q.bare = p.bare) : p.Keeps q where
  cues := by rw [show q.cues = p.cues from (congrArg Part.cues h :)]; exact .refl _
  notices := by rw [show q.notices = p.notices from (congrArg Part.notices h :)]; exact id
  image := by rw [show q.image = p.image from (congrArg Part.image h :)]; exact id
  second := by rw [show q.time.second = p.time.second from (congrArg (fun x : Part => x.time.second) h :)]; exact id
  settings := Part.settingsOk_of_same (congrArg Part.store h :) (congrArg Part.clocks h :)
  spare := by rw [show q.chain = p.chain from (congrArg Part.chain h :)]; exact fun _ => id
  table := Part.tableLaw_of_same (congrArg Part.table h :) (congrArg (fun x : Part => x.own.platforms) h :)

theorem Part.keeps_of_ports {p q : Part} (h : q.beyondPorts = p.beyondPorts) : p.Keeps q :=
  Part.keeps_of_bare (congrArg Part.bare h :)

/-! ## One block changed -/

theorem Part.keeps_notices (p : Part) (n : NoticeList) (h : p.notices.ok → n.ok) : p.Keeps { p with notices := n } :=
  ⟨⟨.refl _, h, id, id, Part.settingsOk_of_same rfl rfl, fun _ => id⟩, Part.tableLaw_of_same rfl rfl⟩

theorem Part.keeps_cues (p : Part) (q : CueSched) (h : p.cues.Keeps q) : p.Keeps { p with cues := q } :=
  ⟨⟨h, id, id, id, Part.settingsOk_of_same rfl rfl, fun _ => id⟩, Part.tableLaw_of_same rfl rfl⟩

theorem Part.keeps_image (p : Part) (i : Image) (h : p.image.ok → i.ok) : p.Keeps { p with image := i } :=
  ⟨⟨.refl _, id, h, id, Part.settingsOk_of_same rfl rfl, fun _ => id⟩, Part.tableLaw_of_same rfl rfl⟩

theorem Part.keeps_time (p : Part) (t : Timebase) (h : p.time.second < 86400 → t.second < 86400) :
    p.Keeps { p with time := t } :=
  ⟨⟨.refl _, id, id, h, Part.settingsOk_of_same rfl rfl, fun _ => id⟩, Part.tableLaw_of_same rfl rfl⟩

theorem Part.keeps_clocks_store (p : Part) (c : Clocks) (st : Store)
    (h : p.settingsOk → ({ p with clocks := c, store := st } : Part).settingsOk) :
    p.Keeps { p with clocks := c, store := st } :=
  ⟨⟨.refl _, id, id, id, h, fun _ => id⟩, Part.tableLaw_of_same rfl rfl⟩

theorem Part.keeps_chain (p : Part) (c : Chain) (h : p.settingsOk → p.chain.spareLaw → c.spareLaw) :
    p.Keeps { p with chain := c } :=
  ⟨⟨.refl _, id, id, id, Part.settingsOk_of_same rfl rfl, h⟩, Part.tableLaw_of_same rfl rfl⟩

theorem Part.keeps_of_notices {p q : Part} (h : q.beyondNotices = p.beyondNotices) (hn : p.notices.ok → q.notices.ok) :
    p.Keeps q :=
  (p.keeps_notices q.notices hn).trans
    (Part.keeps_of_bare (congrArg (fun x : Part => Part.bare { x with notices := q.notices }) h :))

theorem Part.keeps_of_cues {p q : Part} (h : q.beyondCues = p.beyondCues) (hc : p.cues.Keeps q.cues) : p.Keeps q :=
  (p.keeps_cues q.cues hc).trans (Part.keeps_of_bare (congrArg (fun x : Part => Part.bare { x with cues := q.cues }) h :))

theorem Part.keeps_of_clocks {p q : Part} (h : q.beyondClocks = p.beyondClocks) (hs : p.settingsOk → q.settingsOk) :
    p.Keeps q :=
  (p.keeps_clocks_store q.clocks q.store fun hp => Part.settingsOk_of_same rfl rfl (hs hp)).trans
    (Part.keeps_of_bare (congrArg (fun x : Part => Part.bare { x with clocks := q.clocks, store := q.store }) h :))

theorem Part.keeps_of_chain {p q : Part} (h : q.beyondChain = p.beyondChain)
    (hc : p.settingsOk → p.chain.spareLaw → q.chain.spareLaw) : p.Keeps q :=
  (p.keeps_chain q.chain hc).trans (Part.keeps_of_bare (congrArg (fun x : Part => Part.bare { x with chain := q.chain }) h :))

/-- A change of the records of the table keeps every other law. -/
theorem Part.keepsRest_mapRecords (p : Part) (f : List Record → List Record) : p.KeepsRest (p.mapRecords f) :=
  ⟨.refl _, id, id, id, Part.settingsOk_of_same rfl rfl, fun _ => id⟩

theorem Part.keeps_foldl {β : Type} (f : Part → β → Part) (h : ∀ (p : Part) b, p.Keeps (f p b)) (l : List β) (p : Part) :
    p.Keeps (l.foldl f p) :=
  foldl_invariant (p.Keeps ·) f (fun q b hq => hq.trans (h q b)) l p (.refl p)

theorem Part.keepsRest_foldl {β : Type} (f : Part → β → Part) (h : ∀ (p : Part) b, p.KeepsRest (f p b)) (l : List β) (p : Part) :
    p.KeepsRest (l.foldl f p) :=
  foldl_invariant (p.KeepsRest ·) f (fun q b hq => hq.trans (h q b)) l p (.refl p)

end Sys2Proof.Machine
end

section
/-! The operations of the Cue Scheduler, the image and the end of an event keep every law. -/

namespace Sys2Proof.Machine

/-! ## Ports and marks -/

theorem Part.keeps_latch (p : Part) (k : EventKind) (x : BitVec 16) : p.Keeps (p.latch k x) := Part.keeps_of_ports rfl

theorem Part.keeps_latchNat (p : Part) (k : EventKind) (n : Nat) : p.Keeps (p.latchNat k n) := Part.keeps_of_ports rfl

theorem Part.keeps_begin (p : Part) : p.Keeps p.begin := Part.keeps_of_bare rfl

theorem Part.keeps_tellWall (p : Part) : p.Keeps p.tellWall := Part.keeps_of_bare rfl

theorem Part.keeps_advanceTo (p : Part) (t : Nat) : p.Keeps (p.advanceTo t) := Part.keeps_of_bare rfl

theorem Part.keeps_modPort (p : Part) (l : Link) (f : Port → Port) : p.Keeps (p.modPort l f) :=
  Part.keeps_of_ports (Part.modPort_beyondPorts p l f)

/-- Whichever of two parts a condition picks, the laws are kept. -/
theorem Part.keeps_ite {p q r : Part} (c : Prop) [Decidable c] (ht : c → p.Keeps q) (hf : ¬c → p.Keeps r) :
    p.Keeps (if c then q else r) := by
  split
  · next h => exact ht h
  · next h => exact hf h

theorem Part.Keeps.with_cues {p q : Part} (h : p.Keeps q) {r : CueSched} (hc : p.cues.Keeps r) : p.Keeps { q with cues := r } :=
  ⟨⟨hc, h.notices, h.image, h.second, fun hs => Part.settingsOk_of_same rfl rfl (h.settings hs), h.spare⟩,
    fun ht => Part.tableLaw_of_same rfl rfl (h.table ht)⟩

/-! ## Records dropped, stopped and freed -/

theorem Part.keeps_modCues (p : Part) {f : CueSched → CueSched} (h : p.cues.Keeps (f p.cues)) : p.Keeps (p.modCues f) :=
  p.keeps_cues _ h

theorem Part.keeps_modCues_shrinks (p : Part) {f : CueSched → CueSched} (h : p.cues.Shrinks (f p.cues)) :
    p.Keeps (p.modCues f) := p.keeps_modCues h.keeps

theorem Part.keeps_modCues_same (p : Part) {f : CueSched → CueSched} (hp : (f p.cues).pool.map Cue.key = p.cues.pool.map Cue.key)
    (hq : (f p.cues).queues = p.cues.queues) (hr : (f p.cues).reserved = p.cues.reserved) : p.Keeps (p.modCues f) :=
  p.keeps_modCues_shrinks (.of_same hp hq hr)

theorem Part.keeps_freeCue (p : Part) (id : Nat) : p.Keeps (p.modCues (·.free id)) :=
  p.keeps_modCues_shrinks (p.cues.shrinks_free id)

theorem Part.keeps_modCue (p : Part) (id : Nat) {f : Cue → Cue} (h : ∀ c, (f c).key = c.key) :
    p.Keeps (p.modCues (·.modCue id f)) := p.keeps_modCues_shrinks (p.cues.shrinks_modCue id h)

theorem Part.keeps_dropCue (p : Part) (id : Nat) : p.Keeps (p.dropCue id) :=
  (p.keeps_freeCue id).trans (Part.keeps_latchNat _ _ _)

theorem Part.keeps_endQuietly (p : Part) (id : Nat) : p.Keeps (p.endQuietly id) :=
  p.keeps_modCues_shrinks ((p.cues.shrinks_idleZonesOf id).trans (CueSched.shrinks_free _ id))

theorem Part.keeps_failCue (p : Part) (id : Nat) : p.Keeps (p.failCue id) :=
  (p.keeps_endQuietly id).trans (Part.keeps_latchNat _ _ _)

theorem Part.keeps_stopCue (p : Part) (id : Nat) (why : StopReason) : p.Keeps (p.stopCue id why) := by
  refine p.keeps_modCues_same (map_key_map fun c => ?_) rfl rfl
  split <;> rfl

theorem Part.keeps_removeQueued (p : Part) (sel : Cue → Bool) : p.Keeps (p.removeQueued sel) :=
  p.keeps_modCues_shrinks (CueSched.shrinks_foldl _ (fun q id => q.shrinks_free id) _ _)

theorem Part.keeps_removeAuto (p : Part) (id : Nat) (ts : List Template) : p.Keeps (p.removeAuto id ts) :=
  p.keeps_removeQueued _

theorem Part.keeps_purgeAuto (p : Part) : p.Keeps p.purgeAuto := Part.keeps_foldl _ Part.keeps_dropCue _ p

/-! ## Placement (R153, R154) -/

theorem Part.keeps_dropReference (p : Part) (id z : Nat) : p.Keeps (p.dropReference id z) := by
  refine Part.Keeps.trans (p.keeps_modCues_shrinks ?_) (Part.keeps_latchNat _ _ _)
  have hqueues : p.cues.Shrinks { p.cues with
      queues := updateAt p.cues.queues (z - 1) fun (l : List Nat) => l.filter (· != id) } := by
    refine p.cues.shrinks_queues _ fun l hl => ?_
    obtain ⟨i, hi⟩ := List.mem_iff_getElem?.mp hl
    rw [updateAt_getElem?] at hi
    split at hi
    · obtain ⟨m, hm, rfl⟩ := Option.map_eq_some_iff.mp hi
      exact ⟨m, List.mem_of_getElem? hm, List.length_filter_le _ _⟩
    · exact ⟨l, List.mem_of_getElem? hi, Nat.le_refl _⟩
  have houtcome := hqueues.trans (CueSched.shrinks_modCue _ id fun c => c.key_setOutcome (· == z) .dropped)
  dsimp only
  split
  · exact houtcome
  · exact houtcome.trans (CueSched.shrinks_free _ id)

theorem Part.keeps_insertReference (p : Part) (id : Nat) (cls : CueClass) (z : Nat) : p.Keeps (p.insertReference id cls z) := by
  have hroom : ∀ q : Part, q.Keeps (if (q.cues.queue z).length < 6 then
      q.modCues fun c => { c with queues := updateAt c.queues (z - 1) (insertBy c.refBefore id) } else q) := fun q =>
    Part.keeps_ite _ (fun h => q.keeps_modCues (q.cues.keeps_insertReference z id h)) fun _ => .refl q
  refine Part.Keeps.trans ?_ (hroom _)
  refine Part.keeps_ite _ (fun _ => .refl p) fun _ => ?_
  split
  · exact p.keeps_dropReference _ z
  · exact .refl p

theorem Part.keeps_preemptZone (p : Part) (z : Nat) : p.Keeps (p.preemptZone z) := by
  unfold Part.preemptZone
  split
  · split
    · exact Part.keeps_ite _ (fun _ => .refl p) fun _ => p.keeps_stopCue _ _
    · exact .refl p
  · exact .refl p

theorem Part.keeps_insertCue (p : Part) (id : Nat) (cls : CueClass) (zs : List Nat) : p.Keeps (p.insertCue id cls zs) := by
  have hrefs := Part.keeps_foldl (fun p z => p.insertReference id cls z) (fun p z => p.keeps_insertReference id cls z) zs p
  refine Part.keeps_ite _ (fun _ => hrefs.trans ?_) fun _ => hrefs
  exact Part.keeps_foldl _ Part.keeps_preemptZone zs _

/-- The victim of R154 stands in the pool, queued, of an origin and a class that give way. -/
theorem CueSched.poolVictim_mem {q : CueSched} {cls : CueClass} {v : Cue} (h : q.poolVictim cls = some v) :
    v ∈ q.pool ∧ v.flight = .queued ∧ (v.origin = .auto ∨ v.origin = .information) ∧ cls.code < v.cls.code := by
  have hmem := foldl_pick_mem (fun b c => by cases b <;> dsimp only <;> (try split) <;> simp) h
  simpa [Cue.isQueued, and_assoc] using List.mem_filter.mp hmem

/-- Freeing a record lowers the count of its origin. -/
theorem CueSched.ofOrigin_free_lt {q : CueSched} {c : Cue} (h : c ∈ q.pool) : (q.free c.id).ofOrigin c.origin < q.ofOrigin c.origin := by
  unfold CueSched.ofOrigin CueSched.free
  dsimp only
  rw [List.filter_filter]
  refine Nat.lt_of_not_le fun hle => ?_
  have hsub : (q.pool.filter fun d => d.origin == c.origin && d.id != c.id).Sublist (q.pool.filter (·.origin == c.origin)) :=
    List.monotone_filter_right _ fun d hd => (Bool.and_eq_true _ _ ▸ hd).1
  have heq := hsub.eq_of_length_le hle
  have hc : c ∈ q.pool.filter (·.origin == c.origin) := List.mem_filter.mpr ⟨h, beq_self_eq_true _⟩
  rw [← heq, List.mem_filter] at hc
  simp at hc

theorem CueSched.ofOrigin_free_le (q : CueSched) (id : Nat) (o : CueOrigin) : (q.free id).ofOrigin o ≤ q.ofOrigin o :=
  (q.shrinks_free id).ofOrigin_le o

/-- Room made in the pool: no law is broken, and the quota is not full, if it was not exceeded. -/
theorem Part.keeps_poolRoom {p q : Part} {o : CueOrigin} {cls : CueClass} (h : p.poolRoom o cls = some q) :
    p.Keeps q ∧ (p.cues.ok → q.cues.quotaFull o = false) := by
  unfold Part.poolRoom at h
  split at h
  · next hfull =>
    rw [← Option.some.inj h]
    exact ⟨.refl p, fun _ => Bool.not_eq_true' _ ▸ hfull⟩
  · split at h
    · next ho =>
      obtain ⟨v, hv, rfl⟩ := Option.map_eq_some_iff.mp h
      obtain ⟨hmem, _, horigin, _⟩ := CueSched.poolVictim_mem hv
      refine ⟨p.keeps_dropCue v.id, fun hok => ?_⟩
      have hauto := hok.1
      have h1 := CueSched.ofOrigin_free_lt hmem
      have h2 := p.cues.ofOrigin_free_le v.id .auto
      have h3 := p.cues.ofOrigin_free_le v.id .information
      rw [beq_iff_eq.mp ho]
      show decide (24 ≤ (p.cues.free v.id).ofOrigin .auto + (p.cues.free v.id).ofOrigin .information) = false
      rw [decide_eq_false_iff_not]
      rcases horigin with hv | hv <;> rw [hv] at h1 <;> omega
    · cases h

/-- A record created within its quota, in zones 1 to 8, after operations that keep every law. -/
theorem Part.Keeps.createCue {p₀ p : Part} (h : p₀.Keeps p) (n : NewCue) (zs : List Nat) (hzs : ∀ z ∈ zs, 1 ≤ z ∧ z ≤ 8)
    (hquota : p₀.cues.ok → p.cues.quotaFull n.origin = false) : p₀.Keeps (p.createCue n zs).1 := by
  refine h.with_cues ⟨fun hok => (h.cues.ok hok).add _ (hquota hok) ?_ _ _, fun b hb hok hr hd => ?_⟩
  · intro z hz
    obtain ⟨y, hy, rfl⟩ := List.mem_map.mp hz
    exact hzs y hy
  · obtain ⟨hr, hd⟩ := h.cues.ids b hb hok hr hd
    refine ⟨hr, ?_⟩
    have hfree := CueSched.newId_free hb (h.cues.ok hok) hr p.cues.nextId
    rw [List.map_append, List.nodup_append]
    refine ⟨hd, List.nodup_singleton _, fun a ha b hb => ?_⟩
    rw [List.map_singleton, List.mem_singleton] at hb
    subst hb
    rintro rfl
    obtain ⟨c, hc, hid⟩ := List.mem_map.mp ha
    have htaken : p.cues.pool.any (fun d => d.id == firstFree p.cues.idTaken 65535 65535 p.cues.nextId) = true :=
      List.any_eq_true.mpr ⟨c, hc, beq_iff_eq.mpr hid⟩
    rw [CueSched.idTaken, htaken, Bool.true_or] at hfree
    cases hfree

theorem Part.keeps_place (p : Part) (n : NewCue) (hzs : ∀ z ∈ n.zones, 1 ≤ z ∧ z ≤ 8) : p.Keeps (p.place n).1 := by
  unfold Part.place
  dsimp only
  split
  · exact .refl p
  · split
    · exact .refl p
    · next q hq =>
      obtain ⟨hkeeps, hquota⟩ := Part.keeps_poolRoom hq
      have hmade := hkeeps.createCue n (n.zones.filter fun z => p.cues.hasRoom z n.cls)
        (fun z hz => hzs z (List.mem_filter.mp hz).1) hquota
      exact hmade.trans (Part.keeps_insertCue _ _ _ _)

theorem Part.keeps_placeOrDrop (p : Part) (n : NewCue) (hzs : ∀ z ∈ n.zones, 1 ≤ z ∧ z ≤ 8) : p.Keeps (p.placeOrDrop n) := by
  have h := p.keeps_place n hzs
  unfold Part.placeOrDrop
  split
  · next heq =>
    rw [heq] at h
    exact h
  · next heq =>
    rw [heq] at h
    exact h.trans (Part.keeps_latchNat _ _ _)
  · next heq =>
    rw [heq] at h
    exact h.trans (Part.keeps_latchNat _ _ _)

/-! ## Automatic and input cues (R149, R167) -/

theorem mem_numbersFrom {lo n z : Nat} : z ∈ numbersFrom lo n ↔ lo ≤ z ∧ z < lo + n := by
  rw [numbersFrom, List.mem_map]
  constructor
  · rintro ⟨i, hi, rfl⟩
    rw [List.mem_range] at hi
    omega
  · rintro ⟨h1, h2⟩
    exact ⟨z - lo, List.mem_range.mpr (by omega), by omega⟩

theorem zoneSet_range {zs : List Nat} {z : Nat} (h : z ∈ zoneSet zs) : 1 ≤ z ∧ z ≤ 8 := by
  have := mem_numbersFrom.mp (List.mem_filter.mp h).1
  omega

theorem zonesOfByte_range {b z : Nat} (h : z ∈ zonesOfByte b) : 1 ≤ z ∧ z ≤ 8 := by
  have := mem_numbersFrom.mp (List.mem_filter.mp h).1
  omega

theorem Part.keeps_askCue (p : Part) (t : Template) (id pl : Nat) (zs : List Nat) : p.Keeps (p.askCue t id pl zs) := by
  unfold Part.askCue
  split
  · exact .refl p
  · refine Part.keeps_ite _ (fun _ => .refl p) fun _ => ?_
    refine Part.Keeps.trans ?_ (Part.keeps_placeOrDrop _ _ fun z hz => zoneSet_range (List.mem_filter.mp hz).1)
    cases t with
    | change => exact p.keeps_removeAuto _ _
    | delay => exact p.keeps_removeAuto _ _
    | cancel => exact .refl p
    | boarding => exact .refl p

theorem Part.keeps_askRecordCue (p : Part) (t : Template) (id : Nat) : p.Keeps (p.askRecordCue t id) := by
  unfold Part.askRecordCue
  split
  · exact .refl p
  · exact p.keeps_askCue t id _ _

theorem Part.keeps_setRepeat (p : Part) (i : Nat) (t : Option Nat) : p.Keeps (p.setRepeat i t) :=
  p.keeps_modCues_same rfl rfl rfl

theorem Part.keeps_makeInputCue (p : Part) (i : Nat) : p.Keeps (p.makeInputCue i) :=
  p.keeps_placeOrDrop _ fun _ hz => zonesOfByte_range hz

theorem Part.keeps_startRepeat (p : Part) (i : Nat) : p.Keeps (p.startRepeat i) := p.keeps_setRepeat i _

theorem Part.keeps_inputStart (p : Part) (i : Nat) : p.Keeps (p.inputStart i) :=
  Part.keeps_ite _ (fun _ => .refl p) fun _ => (p.keeps_makeInputCue i).trans (Part.keeps_startRepeat _ i)

theorem Part.keeps_removeInputQueued (p : Part) (i : Nat) : p.Keeps (p.removeInputQueued i) := p.keeps_removeQueued _

theorem Part.keeps_inputRepeat (p : Part) (i : Nat) : p.Keeps (p.inputRepeat i) :=
  ((p.keeps_removeInputQueued i).trans (Part.keeps_makeInputCue _ i)).trans (Part.keeps_startRepeat _ i)

theorem Part.keeps_cancelFlight (p : Part) (c : Cue) : p.Keeps (p.cancelFlight c) := by
  unfold Part.cancelFlight
  split
  · exact .refl p
  · exact p.keeps_stopCue _ _
  · exact p.keeps_stopCue _ _
  · exact p.keeps_modCue _ fun _ => rfl
  · exact .refl p
  · exact .refl p

theorem Part.keeps_inputEnd (p : Part) (i : Nat) : p.Keeps (p.inputEnd i) :=
  ((p.keeps_setRepeat i none).trans (Part.keeps_removeInputQueued _ i)).trans
    (Part.keeps_foldl _ Part.keeps_cancelFlight _ _)

/-! ## The announcer (R159 to R165) -/

theorem Part.keeps_heardFrame (p : Part) : p.Keeps p.heardFrame := p.keeps_modCues_same rfl rfl rfl

theorem Part.keeps_failAll (p : Part) (ids : List Nat) : p.Keeps (ids.foldl Part.failCue p) :=
  Part.keeps_foldl _ Part.keeps_failCue ids p

theorem Part.keeps_loseAnnouncer (p : Part) : p.Keeps p.loseAnnouncer := by
  have hquiet : ∀ q : Part, q.Keeps (q.modCues fun c =>
      { c with zones := c.zones.map fun _ => .idle, silence := 0, announcer := .lost }) :=
    fun q => q.keeps_modCues_same rfl rfl rfl
  exact ((p.keeps_failAll _).trans (hquiet _)).trans (Part.keeps_latchNat _ _ _)

theorem Part.keeps_bumpSilence (p : Part) : p.Keeps p.bumpSilence := by
  have hcount : p.Keeps (p.modCues fun q => { q with silence := min 3 (p.cues.silence + 1) }) :=
    p.keeps_modCues_same rfl rfl rfl
  exact Part.keeps_ite _ (fun _ => hcount.trans (Part.keeps_loseAnnouncer _)) fun _ => hcount

theorem Part.keeps_idleZonesOf (p : Part) (id : Nat) : p.Keeps (p.modCues (·.idleZonesOf id)) :=
  p.keeps_modCues_shrinks (p.cues.shrinks_idleZonesOf id)

theorem Part.keeps_replay (p : Part) (c : Cue) (zs : List Nat) : p.Keeps (p.replay c zs) := by
  have hidle := p.keeps_idleZonesOf c.id
  refine Part.keeps_ite _ (fun _ => hidle.trans (Part.keeps_dropCue _ _)) fun _ => ?_
  refine hidle.trans (Part.Keeps.trans (Part.keeps_modCue _ _ fun d => ?_) (Part.keeps_insertCue _ _ _ _))
  exact ((d.setOutcome zs.contains .dropped).key_setOutcome _ _).trans (d.key_setOutcome _ _)

theorem Part.keeps_endPreempted (p : Part) (c : Cue) : p.Keeps (p.endPreempted c) :=
  Part.keeps_ite _ (fun _ => (p.keeps_idleZonesOf c.id).trans (Part.keeps_dropCue _ _)) fun _ => p.keeps_replay c _

/-! ## Records of the table that keep what its order and the law of copies read -/

/-- Records whose ids, keys, times and copies are as they were. -/
theorem Part.tableLaw_mapRecords_map {p : Part} {f : Record → Record}
    (hf : ∀ r, (f r).id = r.id ∧ (f r).key = r.key ∧ (f r).sched = r.sched ∧ (f r).info = r.info ∧ (f r).ctl = r.ctl)
    (h : p.tableLaw) : (p.mapRecords (·.map f)).tableLaw := by
  obtain ⟨⟨hlen, hids, horder, hnames⟩, hown, hcopies⟩ := h
  have hbefore : ∀ a b, recordBefore (f a) (f b) = recordBefore a b := by
    intro a b
    obtain ⟨ha, hka, hsa, _⟩ := hf a
    obtain ⟨hb, hkb, hsb, _⟩ := hf b
    simp only [recordBefore, ha, hka, hsa, hb, hkb, hsb]
  refine ⟨⟨?_, ?_, ?_, hnames⟩, hown, fun r hr => ?_⟩
  · show (p.table.records.map f).length ≤ 96
    rwa [List.length_map]
  · show ((p.table.records.map f).map (·.id)).Nodup
    have hsame : (p.table.records.map f).map (·.id) = p.table.records.map (·.id) := by
      rw [List.map_map]
      exact List.map_congr_left fun r _ => (hf r).1
    rwa [hsame]
  · show (p.table.records.map f).Pairwise _
    rw [List.pairwise_map]
    exact horder.imp fun hab => by rwa [hbefore]
  · obtain ⟨r, hmem, rfl⟩ := List.mem_map.mp hr
    obtain ⟨_, _, _, hinfo, hctl⟩ := hf r
    have := hcopies r hmem
    unfold Part.copyLaw at *
    rw [hinfo, hctl]
    exact this

/-- One record whose id, key, time and copies are as they were. -/
theorem Part.keeps_modRecord (p : Part) (id : Nat) {f : Record → Record}
    (hf : ∀ r, (f r).id = r.id ∧ (f r).key = r.key ∧ (f r).sched = r.sched ∧ (f r).info = r.info ∧ (f r).ctl = r.ctl) :
    p.Keeps (p.modRecord id f) := by
  refine ⟨p.keepsRest_mapRecords _, Part.tableLaw_mapRecords_map fun r => ?_⟩
  split
  · exact hf r
  · exact ⟨rfl, rfl, rfl, rfl, rfl⟩

/-! ## Release (R156 to R158) -/

theorem Part.keeps_tellPlay (p : Part) (c : Cue) : p.Keeps (p.tellPlay c) := by
  unfold Part.tellPlay
  split
  · exact p.keeps_modRecord _ fun _ => ⟨rfl, rfl, rfl, rfl, rfl⟩
  · exact .refl p

theorem Part.keeps_releaseCue (p : Part) (c : Cue) : p.Keeps (p.releaseCue c) := by
  refine Part.Keeps.trans ?_ (Part.keeps_tellPlay _ c)
  have hplay : ∀ on off : List Nat, p.Keeps (p.modCues fun q =>
      let q := { q with queues := q.queues.map fun (l : List Nat) => l.filter (· != c.id) }
      let q := on.foldl (fun q z => q.setZone z (.playing c.id)) q
      let q := q.modCue c.id fun c => { c.setOutcome off.contains .failed with flight := .sent (p.elapsed + 2000) }
      q.transmit fun t => .play t c.id on c.tokens) := by
    intro on off
    refine p.keeps_modCues_shrinks ?_
    have hqueues := p.cues.shrinks_queues (p.cues.queues.map fun (l : List Nat) => l.filter (· != c.id)) fun l hl => by
      obtain ⟨m, hm, rfl⟩ := List.mem_map.mp hl
      exact ⟨m, hm, List.length_filter_le _ _⟩
    refine (hqueues.trans (CueSched.shrinks_foldl (fun q z => q.setZone z (.playing c.id))
      (fun q z => q.shrinks_setZone z _) on _)).trans ((CueSched.shrinks_modCue _ c.id fun d => ?_).trans
        (CueSched.shrinks_transmit _ fun t => .play t c.id on c.tokens))
    exact Cue.key_setOutcome d _ _
  exact Part.keeps_ite _ (fun _ => hplay _ _) fun _ => (hplay _ _).trans (Part.keeps_latchNat _ _ _)

theorem Part.keeps_examine (p : Part) : p.Keeps p.examine := Part.keeps_foldl _ Part.keeps_releaseCue _ p

theorem Part.keeps_nameGenerations (p : Part) : p.Keeps p.nameGenerations := by
  refine p.keeps_modCues_same (map_key_map fun c => ?_) rfl rfl
  split <;> rfl

/-! ## The image (R113, R114, R116) -/

theorem countNext_range (n : Nat) : 1 ≤ countNext n ∧ countNext n ≤ countMax := by
  unfold countNext
  split
  · omega
  · decide

@[simp] theorem hhmm_length (h : Nat) (t : Int) : (hhmm h t).length = 5 := rfl

@[simp] theorem blankText_length : blankText.length = 48 := rfl

@[simp] theorem noTimeText_length : noTimeText.length = 48 := by decide

theorem decimal_length_le (n : Nat) : (decimal n).length ≤ 3 := by
  unfold decimal
  dsimp only
  split
  · simp
  · split <;> simp

@[simp] theorem platformText_length (n : Option Nat) : (platformText n).length = 3 := by
  cases n with
  | none => rfl
  | some n =>
    have := decimal_length_le n
    simp [platformText]
    omega

@[simp] theorem inColumns_length (t : Text) : (inColumns t).length = 48 := by simp [inColumns]

@[simp] theorem Part.departureRow_length (p : Part) (role : Role) (r : Record) : (p.departureRow role r).text.length = 48 := by
  simp [Part.departureRow]

@[simp] theorem Part.detailLine_length (p : Part) (role : Role) (r : Record) : (p.detailLine role r).text.length = 48 := by
  simp only [Part.detailLine, List.length_map]
  split
  · exact fit_length 48 _
  · next h =>
    simp only [List.length_append, List.length_take, List.length_singleton]
    omega

@[simp] theorem Part.clockLine_length (p : Part) : p.clockLine.text.length = 48 := by
  simp only [Part.clockLine]
  split
  · simp [twoDigits]
  · exact noTimeText_length

/-- Every composed line has 48 characters. -/
theorem Part.composeLine_length (p : Part) (role : Role) : (p.composeLine role).text.length = 48 := by
  cases role with
  | banner => exact inColumns_length _
  | clock => exact p.clockLine_length
  | blank => rfl
  | departure k =>
    simp only [Part.composeLine]
    split
    · rfl
    · split
      · exact p.departureRow_length _ _
      · rfl
  | detail k =>
    simp only [Part.composeLine]
    split
    · rfl
    · split
      · exact p.detailLine_length _ _
      · rfl

@[simp] theorem dedupRoles_length (seen roles : List Role) : (dedupRoles seen roles).length = roles.length := by
  induction roles generalizing seen with
  | nil => rfl
  | cons r rs ih => cases r <;> simp only [dedupRoles] <;> (try split) <;> simp [ih]

@[simp] theorem Part.composeAll_length (p : Part) : p.composeAll.length = 48 := by
  simp [Part.composeAll, Part.roles]

theorem Part.composeAll_text {p : Part} {c : LineContent} (h : c ∈ p.composeAll) : c.text.length = 48 := by
  obtain ⟨role, _, rfl⟩ := List.mem_map.mp h
  exact p.composeLine_length role

/-- A comparison with 48 lines of 48 characters leaves the image whole. -/
theorem Image.ok.take {i : Image} (h : i.ok) {new : List LineContent} (hlen : new.length = 48)
    (htext : ∀ c ∈ new, c.text.length = 48) : (i.take new).ok := by
  obtain ⟨hlines, hgen1, hgen2, hall⟩ := h
  have hnext := countNext_range i.generation
  unfold Image.take
  dsimp only
  split
  · exact ⟨hlines, hgen1, hgen2, hall⟩
  · refine ⟨by simp [hlen, hlines], hnext.1, hnext.2, fun l hl => ?_⟩
    obtain ⟨⟨c, w⟩, hcw, rfl⟩ := List.mem_map.mp hl
    obtain ⟨hc, hw⟩ := List.of_mem_zip hcw
    dsimp only
    split
    · exact hall w hw
    · exact ⟨htext c hc, hnext⟩

theorem Part.keeps_recompose (p : Part) : p.Keeps p.recompose :=
  p.keeps_image _ fun h => h.take p.composeAll_length fun _ => Part.composeAll_text

theorem Part.keeps_composeFresh (p : Part) {g : Nat} (h1 : 1 ≤ g) (h2 : g ≤ countMax) : p.Keeps (p.composeFresh g) := by
  refine p.keeps_image _ fun _ => ⟨by simp, h1, h2, fun l hl => ?_⟩
  obtain ⟨c, hc, rfl⟩ := List.mem_map.mp hl
  exact ⟨Part.composeAll_text hc, h1, h2⟩

/-! ## The end of an event -/

theorem Part.keeps_finish (p : Part) : p.Keeps p.finish := by
  have hend : ∀ q : Part, q.Keeps { q with ev := noEvent } := fun q => Part.keeps_of_bare rfl
  have htold : p.Keeps (if p.ev.wallTold then p.recompose else p) :=
    Part.keeps_ite _ (fun _ => p.keeps_recompose) fun _ => .refl p
  exact ((htold.trans (Part.keeps_nameGenerations _)).trans (Part.keeps_examine _)).trans (hend _)

end Sys2Proof.Machine
end

section
/-! The operations of the Notice List keep it in order (R88 to R99). -/

namespace Sys2Proof.Machine

/-! ## The two halves of the law -/

/-- The law of the Notice List but for what the rotation shows. -/
def NoticeList.sound (l : NoticeList) : Prop :=
  l.notices.length ≤ 16 ∧ (l.notices.map (·.id)).Nodup ∧ l.notices.Pairwise (fun a b => keyBefore a b = true) ∧
    l.notices.Pairwise (fun a b => a.kind ≠ .posted → ¬(a.kind = b.kind ∧ a.service = b.service)) ∧
    (∀ n ∈ l.notices, 1 ≤ n.id ∧ n.id ≤ 255 ∧ n.priority ≤ 3 ∧ n.creation < l.nextCreation) ∧
    (1 ≤ l.nextId ∧ l.nextId ≤ 255)

/-- The rotation shows a held notice, and none only while none is held (R98). -/
def NoticeList.showsHeld (l : NoticeList) : Prop :=
  match l.shown with
  | none => l.notices = []
  | some s => s.id ∈ l.notices.map (·.id)

theorem NoticeList.ok_iff (l : NoticeList) : l.ok ↔ l.sound ∧ l.showsHeld := by
  simp only [NoticeList.ok, NoticeList.sound, NoticeList.showsHeld, and_assoc] <;> rfl

/-- Notices removed from a list in order leave it in order. -/
theorem NoticeList.sound.filter {l : NoticeList} (h : l.sound) (f : Notice → Bool) :
    ({ l with notices := l.notices.filter f } : NoticeList).sound := by
  obtain ⟨hlen, hids, horder, hauto, hall, hnext⟩ := h
  have hsub : (l.notices.filter f).Sublist l.notices := List.filter_sublist
  exact ⟨hsub.length_le.trans hlen, hids.sublist (hsub.map _), horder.sublist hsub, hauto.sublist hsub,
    fun n hn => hall n (hsub.subset hn), hnext⟩

theorem NoticeList.sound.show {l : NoticeList} (h : l.sound) (s : Option Shown) :
    ({ l with shown := s } : NoticeList).sound := h

/-! ## Rotation (R98, R99) -/

theorem NoticeList.eligible_subset {l : NoticeList} {n : Notice} (h : n ∈ l.eligible) : n ∈ l.notices := by
  unfold NoticeList.eligible at h
  split at h
  · exact (List.mem_filter.mp h).1
  · exact h

/-- While a notice is held one is eligible. -/
theorem NoticeList.notices_of_not_eligible {l : NoticeList} (h : l.eligible = []) : l.notices = [] := by
  unfold NoticeList.eligible at h
  split at h
  · next hany =>
    obtain ⟨n, hn, hp⟩ := List.any_eq_true.mp hany
    exact absurd (List.mem_filter.mpr ⟨hn, hp⟩) (h ▸ List.not_mem_nil)
  · exact h

/-- The rotation that moves on shows a held notice, or nothing when none is held. -/
theorem Part.rotateFrom_notices (p : Part) (old : Notice) : ∃ s, (p.rotateFrom old).notices = { p.notices with shown := s } ∧
    ({ p.notices with shown := s } : NoticeList).showsHeld := by
  unfold Part.rotateFrom
  split
  · next n hn =>
    refine ⟨_, rfl, List.mem_map_of_mem (f := (·.id)) (NoticeList.eligible_subset ?_)⟩
    rcases Option.or_eq_some_iff.mp ((Option.orElse_eq_or).symm.trans hn) with hf | ⟨_, hh⟩
    · exact List.mem_of_find?_eq_some hf
    · exact List.mem_of_mem_head? hh
  · next hn =>
    refine ⟨none, rfl, NoticeList.notices_of_not_eligible ?_⟩
    exact List.head?_eq_none_iff.mp (Option.or_eq_none_iff.mp ((Option.orElse_eq_or).symm.trans hn)).2

theorem Part.rotateFrom_ok (p : Part) (old : Notice) (h : p.notices.sound) : (p.rotateFrom old).notices.ok := by
  obtain ⟨s, hs, hshown⟩ := p.rotateFrom_notices old
  rw [hs, NoticeList.ok_iff]
  exact ⟨h, hshown⟩

/-- What is left of the list when a notice has been dropped, its rotation aside. -/
theorem Part.dropNotice_notices (p : Part) (n : Notice) :
    ∃ s, (p.dropNotice n).notices = { p.notices with notices := p.notices.notices.filter (fun m => m.id != n.id), shown := s } := by
  unfold Part.dropNotice
  dsimp only
  split
  · split
    · obtain ⟨s, hs, _⟩ := Part.rotateFrom_notices
        { p with notices := { p.notices with notices := p.notices.notices.filter fun m => m.id != n.id } } n
      exact ⟨s, hs⟩
    · exact ⟨_, rfl⟩
  · exact ⟨_, rfl⟩

theorem Part.dropNotice_ok {p : Part} (h : p.notices.ok) (n : Notice) : (p.dropNotice n).notices.ok := by
  obtain ⟨hsound, hshows⟩ := (NoticeList.ok_iff _).mp h
  have hleft := hsound.filter fun m => m.id != n.id
  unfold Part.dropNotice
  dsimp only
  split
  · next s hs =>
    split
    · exact Part.rotateFrom_ok _ n hleft
    · next hne =>
      refine (NoticeList.ok_iff _).mpr ⟨hleft, ?_⟩
      unfold NoticeList.showsHeld at *
      rw [hs] at hshows ⊢
      obtain ⟨m, hm, hid⟩ := List.mem_map.mp hshows
      refine List.mem_map.mpr ⟨m, List.mem_filter.mpr ⟨hm, ?_⟩, hid⟩
      rw [hid]
      simpa using hne
  · next hs =>
    refine (NoticeList.ok_iff _).mpr ⟨hleft, ?_⟩
    unfold NoticeList.showsHeld at *
    rw [hs] at hshows ⊢
    dsimp only at hshows ⊢
    rw [hshows]
    rfl

theorem Part.keeps_dropNotice (p : Part) (n : Notice) : p.Keeps (p.dropNotice n) :=
  Part.keeps_of_notices (p.dropNotice_beyondNotices n) fun h => Part.dropNotice_ok h n

theorem Part.keeps_withdrawNotice (p : Part) (k : NoticeKind) (sv : Option Nat) : p.Keeps (p.withdrawNotice k sv) := by
  unfold Part.withdrawNotice
  split
  · exact p.keeps_dropNotice _
  · exact .refl p

theorem Part.keeps_withdrawAll (p : Part) (id : Nat) : p.Keeps (p.withdrawAll id) :=
  (((p.keeps_withdrawNotice _ _).trans (Part.keeps_withdrawNotice _ _ _)).trans (Part.keeps_withdrawNotice _ _ _)).trans
    (Part.keeps_withdrawNotice _ _ _)

/-! ## Creation (R88, R89) -/

theorem keyBefore_iff (a b : Notice) : keyBefore a b = true ↔
    a.priority < b.priority ∨ (a.priority = b.priority ∧ a.creation < b.creation) := by
  simp [keyBefore]

theorem keyBefore_trans (a b c : Notice) (h₁ : keyBefore a b = true) (h₂ : keyBefore b c = true) : keyBefore a c = true := by
  rw [keyBefore_iff] at *
  omega

/-- Renumbering changes creation numbers alone. -/
theorem NoticeList.renumbered_map {β : Type} (l : NoticeList) (g : Notice → β) (hg : ∀ n c, g { n with creation := c } = g n) :
    l.renumbered.notices.map g = l.notices.map g := by
  unfold NoticeList.renumbered
  split
  · rfl
  · dsimp only
    have hfst : (l.notices.zip (numbersFrom 1 l.notices.length)).map Prod.fst = l.notices :=
      List.map_fst_zip (by simp)
    have hcomp : (g ∘ fun nc : Notice × Nat => { nc.1 with creation := nc.2 }) = g ∘ Prod.fst := funext fun nc => hg _ _
    rw [List.map_map, hcomp, ← List.map_map, hfst]

theorem NoticeList.renumbered_nextId (l : NoticeList) : l.renumbered.nextId = l.nextId := by
  unfold NoticeList.renumbered
  split <;> rfl

theorem NoticeList.renumbered_shown (l : NoticeList) : l.renumbered.shown = l.shown := by
  unfold NoticeList.renumbered
  split <;> rfl

/-- A property that reads no creation number is that of the notices before renumbering. -/
theorem NoticeList.mem_renumbered {l : NoticeList} {m : Notice} (h : m ∈ l.renumbered.notices) :
    ∃ n ∈ l.notices, ∃ c, m = { n with creation := c } := by
  unfold NoticeList.renumbered at h
  split at h
  · exact ⟨m, h, m.creation, rfl⟩
  · obtain ⟨⟨n, c⟩, hnc, rfl⟩ := List.mem_map.mp h
    exact ⟨n, (List.of_mem_zip hnc).1, c, rfl⟩

theorem NoticeList.sound.renumbered {l : NoticeList} (h : l.sound) : l.renumbered.sound := by
  obtain ⟨hlen, hids, horder, hauto, hall, hnext⟩ := h
  by_cases hmax : l.nextCreation ≤ countMax
  · rw [NoticeList.renumbered, if_pos hmax]
    exact ⟨hlen, hids, horder, hauto, hall, hnext⟩
  have hlist : l.renumbered.notices =
      (l.notices.zip (numbersFrom 1 l.notices.length)).map fun nc => { nc.1 with creation := nc.2 } := by
    rw [NoticeList.renumbered, if_neg hmax]
  have hcreation : l.renumbered.nextCreation = l.notices.length + 1 := by rw [NoticeList.renumbered, if_neg hmax]
  have hlength : l.renumbered.notices.length = l.notices.length := by rw [hlist]; simp
  refine ⟨hlength ▸ hlen, ?ids, ?order, ?auto, fun m hm => ?all, l.renumbered_nextId ▸ hnext⟩
  case ids => rwa [NoticeList.renumbered_map l (·.id) fun _ _ => rfl]
  case order =>
    rw [List.pairwise_iff_getElem] at horder ⊢
    intro i j hi hj hij
    have hb := horder i j (hlength ▸ hi) (hlength ▸ hj) hij
    rw [keyBefore_iff] at hb ⊢
    simp only [hlist, List.getElem_map, List.getElem_zip, numbersFrom, List.getElem_range]
    omega
  case auto =>
    have hmapped : (l.renumbered.notices.map fun n => (n.kind, n.service)).Pairwise
        (fun a b => a.1 ≠ .posted → ¬(a.1 = b.1 ∧ a.2 = b.2)) := by
      rw [NoticeList.renumbered_map l (fun n => (n.kind, n.service)) fun _ _ => rfl, List.pairwise_map]
      exact hauto
    exact List.pairwise_map.mp hmapped
  case all =>
    obtain ⟨⟨n, c⟩, hnc, rfl⟩ := List.mem_map.mp (hlist ▸ hm)
    obtain ⟨hn, hc⟩ := List.of_mem_zip hnc
    obtain ⟨h1, h2, h3, _⟩ := hall n hn
    have := mem_numbersFrom.mp hc
    exact ⟨h1, h2, h3, by rw [hcreation]; dsimp only; omega⟩

/-- A new notice, behind every notice of its priority, with a free id. -/
theorem NoticeList.sound.insert {l : NoticeList} (h : l.sound) (n : Notice) (hlen : l.notices.length < 16)
    (hid : n.id ∉ l.notices.map (·.id)) (hrange : 1 ≤ n.id ∧ n.id ≤ 255) (hpriority : n.priority ≤ 3)
    (hcreation : n.creation = l.nextCreation)
    (hauto : n.kind ≠ .posted → ∀ m ∈ l.notices, ¬(m.kind = n.kind ∧ m.service = n.service)) (s : Option Shown) :
    ({ notices := insertBy keyBefore n l.notices, nextId := if n.id < 255 then n.id + 1 else 1,
       nextCreation := l.nextCreation + 1, shown := s } : NoticeList).sound := by
  obtain ⟨_, hids, horder, hpairs, hall, hnext⟩ := h
  have hperm := insertBy_perm keyBefore n l.notices
  refine ⟨?len, ?ids, ?order, ?auto, fun m hm => ?all, ?next⟩
  case len =>
    show (insertBy keyBefore n l.notices).length ≤ 16
    rw [insertBy_length]
    omega
  case ids => exact (hperm.map (·.id)).nodup_iff.mpr (List.nodup_cons.mpr ⟨hid, hids⟩)
  case order =>
    refine insertBy_pairwise keyBefore_trans (fun b hb => ?_) horder
    have hb := hall b hb
    rw [keyBefore_iff, keyBefore_iff]
    omega
  case auto =>
    have hsymm : ∀ {a b : Notice}, (a.kind ≠ .posted → ¬(a.kind = b.kind ∧ a.service = b.service)) →
        (b.kind ≠ .posted → ¬(b.kind = a.kind ∧ b.service = a.service)) :=
      fun hab hb ⟨hk, hs⟩ => hab (hk ▸ hb) ⟨hk.symm, hs.symm⟩
    refine (hperm.pairwise_iff hsymm).mpr (List.pairwise_cons.mpr ⟨fun m hm hn ⟨hk, hs⟩ => ?_, hpairs⟩)
    exact hauto hn m hm ⟨hk.symm, hs.symm⟩
  case all =>
    rcases mem_insertBy.mp hm with rfl | hm
    · exact ⟨hrange.1, hrange.2, hpriority, by dsimp only; omega⟩
    · obtain ⟨h1, h2, h3, h4⟩ := hall m hm
      exact ⟨h1, h2, h3, by dsimp only; omega⟩
  case next =>
    dsimp only
    split <;> omega

theorem Part.createNotice_ok {p : Part} {k : NoticeKind} {pr : Nat} {sv : Option Nat} (h : p.notices.ok)
    (hlen : p.notices.notices.length < 16) (hpriority : pr ≤ 3)
    (hauto : k ≠ .posted → ∀ m ∈ p.notices.notices, ¬(m.kind = k ∧ m.service = sv)) (t : Text) (e : Option Nat)
    (o : NoticeOrigin) : (p.createNotice k pr sv t e o).1.notices.ok := by
  obtain ⟨hsound, hshows⟩ := (NoticeList.ok_iff _).mp h
  have hnum := hsound.renumbered
  have hlength : p.notices.renumbered.notices.length = p.notices.notices.length := by
    simpa using congrArg List.length (NoticeList.renumbered_map p.notices (·.id) fun _ _ => rfl)
  let newId := firstFree (fun i => p.notices.renumbered.notices.any (·.id == i)) 255 255 p.notices.renumbered.nextId
  have hfree : newId ∉ p.notices.renumbered.notices.map (·.id) := by
    have hunused : p.notices.renumbered.notices.any (·.id == newId) = false :=
      firstFree_free (used := fun i => p.notices.renumbered.notices.any (·.id == i))
        (p.notices.renumbered.notices.map (·.id)) (fun n hn => by simpa using hn) _ (by rw [List.length_map]; omega)
    simpa using hunused
  have hrange := firstFree_range (used := fun i => p.notices.renumbered.notices.any (·.id == i)) (top := 255) 255 _
    hnum.2.2.2.2.2.1 hnum.2.2.2.2.2.2
  let new : Notice := { id := newId, kind := k, priority := pr, creation := p.notices.renumbered.nextCreation,
                        service := sv, text := t, expiry := e, origin := o }
  have hnew := fun s => hnum.insert new (by omega) hfree hrange hpriority rfl (fun hk m hm => by
        obtain ⟨n, hn, c, rfl⟩ := NoticeList.mem_renumbered hm
        exact hauto hk n hn) s
  unfold Part.createNotice
  dsimp only
  split
  · next s hs =>
    refine (NoticeList.ok_iff _).mpr ⟨hnew _, ?_⟩
    unfold NoticeList.showsHeld at *
    rw [NoticeList.renumbered_shown] at hs
    rw [hs] at hshows
    dsimp only at hshows ⊢
    rw [NoticeList.renumbered_shown, hs]
    rw [← NoticeList.renumbered_map p.notices (·.id) fun _ _ => rfl] at hshows
    obtain ⟨m, hm, hid⟩ := List.mem_map.mp hshows
    exact List.mem_map.mpr ⟨m, mem_insertBy.mpr (Or.inr hm), hid⟩
  · refine (NoticeList.ok_iff _).mpr ⟨hnew _, ?_⟩
    exact List.mem_map.mpr ⟨_, mem_insertBy.mpr (Or.inl rfl), rfl⟩

/-! ## Requests for automatic notices, and posts (R90, R91, R94) -/

theorem NoticeList.victim_mem {l : NoticeList} {pr : Nat} {v : Notice} (h : l.victim pr = some v) : v ∈ l.notices :=
  (List.mem_filter.mp (foldl_pick_mem (fun b c => by cases b <;> dsimp only <;> (try split) <;> simp) h)).1

theorem length_filter_id_lt {l : List Notice} {n : Notice} (h : n ∈ l) : (l.filter fun m => m.id != n.id).length < l.length := by
  rw [List.length_filter_lt_length_iff_exists]
  exact ⟨n, h, by simp⟩

theorem Part.dropNotice_length_lt {p : Part} {n : Notice} (h : n ∈ p.notices.notices) :
    (p.dropNotice n).notices.notices.length < p.notices.notices.length := by
  obtain ⟨s, hs⟩ := p.dropNotice_notices n
  rw [hs]
  exact length_filter_id_lt h

theorem Part.dropNotice_mem {p : Part} {n m : Notice} (h : m ∈ (p.dropNotice n).notices.notices) :
    m ∈ p.notices.notices ∧ m.id ≠ n.id := by
  obtain ⟨s, hs⟩ := p.dropNotice_notices n
  rw [hs] at h
  simpa using List.mem_filter.mp h

/-- Room for a notice: the list that is left is in order, is not full, and holds nothing new. -/
theorem Part.noticeRoom_ok {p q : Part} {pr : Nat} (hq : p.noticeRoom pr = some q) (h : p.notices.ok) :
    q.notices.ok ∧ q.notices.notices.length < 16 ∧ ∀ m ∈ q.notices.notices, m ∈ p.notices.notices := by
  unfold Part.noticeRoom at hq
  split at hq
  · next hlen =>
    rw [← Option.some.inj hq]
    exact ⟨h, hlen, fun _ hm => hm⟩
  · obtain ⟨v, hv, rfl⟩ := Option.map_eq_some_iff.mp hq
    have hlt := Part.dropNotice_length_lt (NoticeList.victim_mem hv)
    have hlen := h.1
    exact ⟨Part.dropNotice_ok h v, by omega, fun m hm => (Part.dropNotice_mem hm).1⟩

theorem autoPriority_le (k : NoticeKind) : autoPriority k ≤ 3 := by cases k <;> decide

theorem NoticeList.auto?_some {l : NoticeList} {k : NoticeKind} {sv : Option Nat} {n : Notice} (h : l.auto? k sv = some n) :
    n ∈ l.notices ∧ n.kind = k ∧ n.service = sv :=
  ⟨List.mem_of_find?_eq_some h, by simpa using List.find?_some h⟩

theorem NoticeList.auto?_none {l : NoticeList} {k : NoticeKind} {sv : Option Nat} (h : l.auto? k sv = none) :
    ∀ m ∈ l.notices, ¬(m.kind = k ∧ m.service = sv) := by
  simpa [NoticeList.auto?] using h

theorem Part.askNotice_ok {p : Part} (h : p.notices.ok) (k : NoticeKind) (sv : Option Nat) : (p.askNotice k sv).notices.ok := by
  unfold Part.askNotice
  split
  · next old hold =>
    obtain ⟨hmem, hkind, hservice⟩ := NoticeList.auto?_some hold
    have hlt := Part.dropNotice_length_lt hmem
    have hlen := h.1
    refine Part.createNotice_ok (Part.dropNotice_ok h old) (by omega) (autoPriority_le k) (fun hk m hm ⟨hmk, hms⟩ => ?_) _ _ _
    obtain ⟨hm, hid⟩ := Part.dropNotice_mem hm
    obtain ⟨_, _, _, hpairs, _⟩ := h
    have hsymm : Std.Symm fun a b : Notice => a.kind ≠ .posted → ¬(a.kind = b.kind ∧ a.service = b.service) :=
      ⟨fun a b hab hb ⟨hk, hs⟩ => hab (hk ▸ hb) ⟨hk.symm, hs.symm⟩⟩
    exact hpairs.forall hm hmem (fun he => hid (congrArg (·.id) he)) (hmk ▸ hk) ⟨hmk.trans hkind.symm, hms.trans hservice.symm⟩
  · next hnone =>
    split
    · next q hq =>
      obtain ⟨hok, hlen, hsub⟩ := Part.noticeRoom_ok hq h
      exact Part.createNotice_ok hok hlen (autoPriority_le k) (fun _ m hm => NoticeList.auto?_none hnone m (hsub m hm)) _ _ _
    · exact h

theorem Part.keeps_askNotice (p : Part) (k : NoticeKind) (sv : Option Nat) : p.Keeps (p.askNotice k sv) :=
  Part.keeps_of_notices (p.askNotice_beyondNotices k sv) fun h => Part.askNotice_ok h k sv

/-- A posted notice with room made for it. -/
theorem Part.keeps_postNotice {p q : Part} {pr : Nat} (hq : p.noticeRoom pr = some q) (hpriority : pr ≤ 3) (sv : Option Nat)
    (t : Text) (e : Option Nat) (o : NoticeOrigin) : p.Keeps (q.createNotice .posted pr sv t e o).1 := by
  refine Part.keeps_of_notices ((q.createNotice_beyondNotices _ _ _ _ _ _).trans (p.noticeRoom_beyondNotices q pr hq)) fun h => ?_
  obtain ⟨hok, hlen, _⟩ := Part.noticeRoom_ok hq h
  exact Part.createNotice_ok hok hlen hpriority (fun hk => absurd rfl hk) _ _ _

/-! ## The end of a dwell (R98) -/

theorem NoticeList.byId_mem {l : NoticeList} {id : Nat} {n : Notice} (h : l.byId id = some n) : n ∈ l.notices :=
  List.mem_of_find?_eq_some h

theorem Part.show_ok {p : Part} (h : p.notices.ok) {n : Notice} (hn : n ∈ p.notices.notices) (page : Nat) :
    (p.show n.id page).notices.ok :=
  (NoticeList.ok_iff _).mpr ⟨((NoticeList.ok_iff _).mp h).1, List.mem_map_of_mem (f := (·.id)) hn⟩

theorem Part.dwellEnd_ok {p : Part} (h : p.notices.ok) : p.dwellEnd.notices.ok := by
  have hsound := ((NoticeList.ok_iff _).mp h).1
  unfold Part.dwellEnd
  split
  · exact h
  · split
    · exact h
    · next n hn =>
      have hafter : ∀ (c : Prop) [Decidable c] (page : Nat),
          (if c then p.show n.id page else p.rotateFrom n).notices.ok := by
        intro c _ page
        split
        · exact Part.show_ok h (NoticeList.byId_mem hn) page
        · exact p.rotateFrom_ok n hsound
      dsimp only
      split
      · split <;> exact hafter _ _
      · exact hafter _ _

theorem Part.keeps_dwellEnd (p : Part) : p.Keeps p.dwellEnd :=
  Part.keeps_of_notices p.dwellEnd_beyondNotices Part.dwellEnd_ok

end Sys2Proof.Machine
end

section
/-! The Departure Table stays in order and its Control copies lawful (R19, R36, R65). -/

namespace Sys2Proof.Machine

/-! ## The order of the table (R36) -/

theorem recordBefore_iff (a b : Record) : recordBefore a b = true ↔
    a.key < b.key ∨ (a.key = b.key ∧ (a.sched < b.sched ∨ (a.sched = b.sched ∧ a.id < b.id))) := by
  simp [recordBefore]

theorem recordBefore_trans (a b c : Record) (h₁ : recordBefore a b = true) (h₂ : recordBefore b c = true) :
    recordBefore a c = true := by
  rw [recordBefore_iff] at *
  omega

theorem recordBefore_total {a b : Record} (h : a.id ≠ b.id) : recordBefore a b = true ∨ recordBefore b a = true := by
  rw [recordBefore_iff, recordBefore_iff]
  omega

/-! ## Records told by what the laws read of them -/

/-- What the laws of the table read of a record. -/
def Record.essence (r : Record) : Nat × Int × Int × Running × Option Running := (r.id, r.key, r.sched, r.info, r.ctl)

theorem Record.essence_inj {a b : Record} (h : a.essence = b.essence) :
    a.id = b.id ∧ a.key = b.key ∧ a.sched = b.sched ∧ a.info = b.info ∧ a.ctl = b.ctl := by
  simpa [Record.essence] using h

/-- A record of the same copies under the same law. -/
theorem Part.copyLaw_of_same {p q : Part} {r t : Record} (ho : q.own.platforms = p.own.platforms) (hi : t.info = r.info)
    (hc : t.ctl = r.ctl) (h : p.copyLaw r) : q.copyLaw t := by
  unfold Part.copyLaw Part.controlOwned Part.controlOwnsAny at *
  rw [ho, hi, hc]
  exact h

/-- The law of a record's copies, with their platforms in range. -/
def Part.recordLaw (p : Part) (r : Record) : Prop := r.info.onPlatforms ∧ (∀ c, r.ctl = some c → c.onPlatforms) ∧ p.copyLaw r

theorem Part.recordLaw_of_same {p q : Part} {r t : Record} (ho : q.own.platforms = p.own.platforms) (hi : t.info = r.info)
    (hc : t.ctl = r.ctl) (h : p.recordLaw r) : q.recordLaw t :=
  ⟨hi ▸ h.1, fun c ht => h.2.1 c (hc ▸ ht), Part.copyLaw_of_same ho hi hc h.2.2⟩

/-- The law of the table but for the order of its records. -/
def Table.unsorted (t : Table) : Prop :=
  t.records.length ≤ 96 ∧ (t.records.map (·.id)).Nodup ∧ t.names.length = 256 ∧ ∀ n ∈ t.names, n.length ≤ 20

/-- The records in order. -/
def inOrder (l : List Record) : Prop := l.Pairwise fun a b => recordBefore a b = true

theorem Table.ok_iff (t : Table) : t.ok ↔ t.unsorted ∧ inOrder t.records :=
  ⟨fun ⟨hlen, hids, horder, hnames⟩ => ⟨⟨hlen, hids, hnames⟩, horder⟩,
    fun ⟨⟨hlen, hids, hnames⟩, horder⟩ => ⟨hlen, hids, horder, hnames⟩⟩

/-- The table in order but for the record with one id. -/
def Table.okBut (t : Table) (id : Nat) : Prop := t.unsorted ∧ inOrder (t.records.filter (·.id != id))

theorem Table.ok.but {t : Table} (h : t.ok) (id : Nat) : t.okBut id :=
  ⟨((Table.ok_iff t).mp h).1, ((Table.ok_iff t).mp h).2.sublist List.filter_sublist⟩

/-- The records are those of `p` as far as the laws of the table read them. -/
structure Part.SameRecords (p q : Part) : Prop where
  names : q.table.names = p.table.names
  platforms : q.own.platforms = p.own.platforms
  records : q.table.records.map Record.essence = p.table.records.map Record.essence

theorem Part.SameRecords.refl (p : Part) : p.SameRecords p := ⟨rfl, rfl, rfl⟩

theorem Part.SameRecords.trans {p q r : Part} (h₁ : p.SameRecords q) (h₂ : q.SameRecords r) : p.SameRecords r :=
  ⟨h₂.names.trans h₁.names, h₂.platforms.trans h₁.platforms, h₂.records.trans h₁.records⟩

theorem Part.SameRecords.of_table {p q : Part} (ht : q.table = p.table) (ho : q.own = p.own) : p.SameRecords q :=
  ⟨by rw [ht], by rw [ho], by rw [ht]⟩

theorem Part.SameRecords.mem {p q : Part} (h : p.SameRecords q) {r : Record} (hr : r ∈ q.table.records) :
    ∃ t ∈ p.table.records, t.essence = r.essence := by
  have := List.mem_map_of_mem (f := Record.essence) hr
  rw [h.records] at this
  exact List.mem_map.mp this

theorem Part.SameRecords.ids {p q : Part} (h : p.SameRecords q) :
    q.table.records.map (·.id) = p.table.records.map (·.id) := by
  have := congrArg (List.map (·.1)) h.records
  rwa [List.map_map, List.map_map] at this

theorem Part.SameRecords.unsorted {p q : Part} (h : p.SameRecords q) (hp : p.table.unsorted) : q.table.unsorted := by
  obtain ⟨hlen, hids, hnames⟩ := hp
  refine ⟨?_, h.ids ▸ hids, h.names ▸ hnames⟩
  have := congrArg List.length h.records
  rw [List.length_map, List.length_map] at this
  omega

/-- The order read from what the laws read. -/
theorem inOrder_iff (l : List Record) (f : Nat → Bool) : inOrder (l.filter fun r => f r.id) ↔
    ((l.map Record.essence).filter fun e => f e.1).Pairwise fun a b =>
      a.2.1 < b.2.1 ∨ (a.2.1 = b.2.1 ∧ (a.2.2.1 < b.2.2.1 ∨ (a.2.2.1 = b.2.2.1 ∧ a.1 < b.1))) := by
  rw [List.filter_map, List.pairwise_map, inOrder]
  exact List.Pairwise.iff (fun a b => recordBefore_iff a b)

theorem Part.SameRecords.okBut {p q : Part} (h : p.SameRecords q) {id : Nat} (hp : p.table.okBut id) : q.table.okBut id := by
  refine ⟨h.unsorted hp.1, (inOrder_iff _ (· != id)).mpr ?_⟩
  rw [h.records]
  exact (inOrder_iff _ (· != id)).mp hp.2

theorem Part.SameRecords.ok {p q : Part} (h : p.SameRecords q) (hp : p.table.ok) : q.table.ok := by
  have hall : ∀ l : List Record, (l.filter fun r => (fun _ : Nat => true) r.id) = l := fun l => List.filter_true l
  obtain ⟨hun, horder⟩ := (Table.ok_iff _).mp hp
  refine (Table.ok_iff _).mpr ⟨h.unsorted hun, ?_⟩
  rw [← hall p.table.records] at horder
  rw [← hall q.table.records]
  refine (inOrder_iff _ fun _ => true).mpr ?_
  rw [h.records]
  exact (inOrder_iff _ fun _ => true).mp horder

theorem Part.SameRecords.copiesOk {p q : Part} (h : p.SameRecords q) (hp : p.copiesOk) : q.copiesOk := by
  obtain ⟨hlen, hall⟩ := hp
  refine ⟨h.platforms ▸ hlen, fun r hr => ?_⟩
  obtain ⟨t, ht, he⟩ := h.mem hr
  obtain ⟨_, _, _, hi, hc⟩ := Record.essence_inj he
  exact Part.recordLaw_of_same h.platforms hi.symm hc.symm (hall t ht)

/-! ## Operations that leave the records as the laws read them -/

/-- Every other law is kept, and the records stay as the laws read them. -/
structure Part.Calm (p q : Part) : Prop where
  rest : p.KeepsRest q
  same : p.SameRecords q

theorem Part.Calm.refl (p : Part) : p.Calm p := ⟨.refl p, .refl p⟩

theorem Part.Calm.trans {p q r : Part} (h₁ : p.Calm q) (h₂ : q.Calm r) : p.Calm r :=
  ⟨h₁.rest.trans h₂.rest, h₁.same.trans h₂.same⟩

theorem Part.calm_ite {p q r : Part} (c : Prop) [Decidable c] (ht : c → p.Calm q) (hf : ¬c → p.Calm r) :
    p.Calm (if c then q else r) := by
  split
  · next h => exact ht h
  · next h => exact hf h

theorem Part.calm_modRecord (p : Part) (id : Nat) {f : Record → Record} (hf : ∀ r, (f r).essence = r.essence) :
    p.Calm (p.modRecord id f) := by
  refine ⟨p.keepsRest_mapRecords _, rfl, rfl, ?_⟩
  show ((p.table.records.map fun r => if r.id == id then f r else r).map Record.essence) = _
  rw [List.map_map]
  refine List.map_congr_left fun r _ => ?_
  show (if r.id == id then f r else r).essence = r.essence
  split
  · exact hf r
  · rfl

theorem Part.calm_latchNat (p : Part) (k : EventKind) (n : Nat) : p.Calm (p.latchNat k n) :=
  ⟨(p.keeps_latchNat k n).toKeepsRest, .of_table rfl rfl⟩

theorem Part.calm_askNotice (p : Part) (k : NoticeKind) (sv : Option Nat) : p.Calm (p.askNotice k sv) :=
  ⟨(p.keeps_askNotice k sv).toKeepsRest,
    .of_table (congrArg Part.table (p.askNotice_beyondNotices k sv) :) (congrArg Part.own (p.askNotice_beyondNotices k sv) :)⟩

theorem Part.calm_withdrawNotice (p : Part) (k : NoticeKind) (sv : Option Nat) : p.Calm (p.withdrawNotice k sv) :=
  ⟨(p.keeps_withdrawNotice k sv).toKeepsRest,
    .of_table (congrArg Part.table (p.withdrawNotice_beyondNotices k sv) :)
      (congrArg Part.own (p.withdrawNotice_beyondNotices k sv) :)⟩

theorem Part.calm_removeQueued (p : Part) (sel : Cue → Bool) : p.Calm (p.removeQueued sel) :=
  ⟨(p.keeps_removeQueued sel).toKeepsRest,
    .of_table (congrArg Part.table (p.removeQueued_beyondCues sel) :) (congrArg Part.own (p.removeQueued_beyondCues sel) :)⟩

theorem Part.calm_removeAuto (p : Part) (id : Nat) (ts : List Template) : p.Calm (p.removeAuto id ts) := p.calm_removeQueued _

theorem Part.calm_askCue (p : Part) (t : Template) (id pl : Nat) (zs : List Nat) : p.Calm (p.askCue t id pl zs) :=
  ⟨(p.keeps_askCue t id pl zs).toKeepsRest,
    .of_table (congrArg Part.table (p.askCue_beyondCues t id pl zs) :) (congrArg Part.own (p.askCue_beyondCues t id pl zs) :)⟩

theorem Part.calm_askRecordCue (p : Part) (t : Template) (id : Nat) : p.Calm (p.askRecordCue t id) :=
  ⟨(p.keeps_askRecordCue t id).toKeepsRest,
    .of_table (congrArg Part.table (p.askRecordCue_beyondCues t id) :)
      (congrArg Part.own (p.askRecordCue_beyondCues t id) :)⟩

/-! ## Triggers and the Change Tracker (R49 to R55, R75 to R84) -/

/-! The stages of the triggers, named so that each is looked at alone. -/

/-- A shown delay is over (R51, R53, R54). -/
def Part.withdrawDelay (p : Part) (r : Record) (ends : Bool) : Part :=
  if ends || (!r.late && r.announcedDelay.isSome) then
    (p.modRecord r.id fun r => { r with announcedDelay := none }).withdrawNotice .delay (some r.id)
  else p

/-- The run of the service is over (R53, R54). -/
def Part.withdrawEnded (p : Part) (r : Record) (ends : Bool) : Part :=
  if ends then (p.withdrawNotice .unknown (some r.id)).removeAuto r.id [.delay, .boarding] else p

/-- The service is reinstated (R53). -/
def Part.withdrawReinstated (p : Part) (before : Running) (r : Record) : Part :=
  if before.status == .cancelled && r.running.status != .cancelled then p.withdrawNotice .cancel (some r.id) else p

/-- The delay is unknown no longer (R52). -/
def Part.withdrawUnknown (p : Part) (before : Running) (r : Record) : Part :=
  if before.unknownCondition && !r.running.unknownCondition then p.withdrawNotice .unknown (some r.id) else p

/-- The status becomes CANCELLED or DEPARTED, as the model decides it. -/
def Record.endsRun (r : Record) (before : Running) : Bool :=
  becomes before r.running .cancelled || becomes before r.running .departed

theorem Part.triggerWithdrawals_eq (p : Part) (before : Running) (r : Record) : p.triggerWithdrawals before r =
    (((p.withdrawDelay r (r.endsRun before)).withdrawEnded r (r.endsRun before)).withdrawReinstated before r).withdrawUnknown
      before r := rfl

/-- A notice asked for, and a cue with it where the record has automatic cues. -/
def Part.askBoth (p : Part) (k : NoticeKind) (t : Template) (r : Record) : Part :=
  if r.autoCue then (p.askNotice k (some r.id)).askRecordCue t r.id else p.askNotice k (some r.id)

/-- The service becomes CANCELLED (R53). -/
def Part.requestCancel (p : Part) (before : Running) (r : Record) : Part :=
  if becomes before r.running .cancelled then p.askBoth .cancel .cancel r else p

/-- The delay becomes unknown (R52). -/
def Part.requestUnknown (p : Part) (before : Running) (r : Record) : Part :=
  if !before.unknownCondition && r.running.unknownCondition then p.askNotice .unknown (some r.id) else p

/-- The delay trigger fires (R50). -/
def Part.requestDelay (p : Part) (r : Record) (fires : Bool) : Part :=
  if fires then (p.askBoth .delay .delay r).modRecord r.id fun r => { r with announcedDelay := r.minutes } else p

/-- The service becomes BOARDING (R55). -/
def Part.requestBoarding (p : Part) (before : Running) (r : Record) : Part :=
  if becomes before r.running .boarding && r.autoCue && r.running.platform.isSome then p.askRecordCue .boarding r.id else p

/-- DELAY_NOTICE latches when the delay trigger has fired (R55). -/
def Part.latchDelay (p : Part) (r : Record) (fires : Bool) : Part := if fires then p.latchNat .delayNotice r.id else p

/-- The requests from the delay trigger on (R55). -/
def Part.requestFromDelay (p : Part) (before : Running) (r : Record) : Part :=
  let fires := delayFires p.noticeN p.stepP r
  ((p.requestDelay r fires).requestBoarding before r).latchDelay r fires

theorem Part.triggerRequests_eq (p : Part) (before : Running) (r : Record) : p.triggerRequests before r =
    ((p.requestCancel before r).requestUnknown before r).requestFromDelay before r := by
  unfold Part.triggerRequests Part.requestCancel Part.requestUnknown Part.requestFromDelay Part.requestDelay
    Part.requestBoarding Part.latchDelay Part.askBoth
  rfl

theorem Part.calm_triggerWithdrawals (p : Part) (before : Running) (r : Record) : p.Calm (p.triggerWithdrawals before r) := by
  rw [Part.triggerWithdrawals_eq]
  have hcleared : p.Calm (p.modRecord r.id fun r => { r with announcedDelay := none }) := p.calm_modRecord _ fun _ => rfl
  have hdelay : ∀ e, p.Calm (p.withdrawDelay r e) := fun e => Part.calm_ite _
    (fun _ => hcleared.trans (Part.calm_withdrawNotice _ _ _)) fun _ => .refl p
  have hended : ∀ (q : Part) e, q.Calm (q.withdrawEnded r e) := fun q e => Part.calm_ite _
    (fun _ => (q.calm_withdrawNotice _ _).trans (Part.calm_removeAuto _ _ _)) fun _ => .refl q
  have hback : ∀ q : Part, q.Calm (q.withdrawReinstated before r) := fun q => Part.calm_ite _
    (fun _ => q.calm_withdrawNotice _ _) fun _ => .refl q
  have hknown : ∀ q : Part, q.Calm (q.withdrawUnknown before r) := fun q => Part.calm_ite _
    (fun _ => q.calm_withdrawNotice _ _) fun _ => .refl q
  exact (((hdelay _).trans (hended _ _)).trans (hback _)).trans (hknown _)

theorem Part.calm_askBoth (p : Part) (k : NoticeKind) (t : Template) (r : Record) : p.Calm (p.askBoth k t r) :=
  Part.calm_ite _ (fun _ => (p.calm_askNotice _ _).trans (Part.calm_askRecordCue _ _ _)) fun _ => p.calm_askNotice _ _

theorem Part.calm_triggerRequests (p : Part) (before : Running) (r : Record) : p.Calm (p.triggerRequests before r) := by
  rw [Part.triggerRequests_eq]
  have hcancel : p.Calm (p.requestCancel before r) := Part.calm_ite _ (fun _ => p.calm_askBoth _ _ _) fun _ => .refl p
  have hunknown : ∀ q : Part, q.Calm (q.requestUnknown before r) := fun q => Part.calm_ite _
    (fun _ => q.calm_askNotice _ _) fun _ => .refl q
  have hannounced : ∀ q : Part, q.Calm (q.modRecord r.id fun r => { r with announcedDelay := r.minutes }) := fun q =>
    q.calm_modRecord _ fun _ => rfl
  have hdelay : ∀ (q : Part) b, q.Calm (q.requestDelay r b) := fun q b => Part.calm_ite _
    (fun _ => (q.calm_askBoth _ _ _).trans (hannounced _)) fun _ => .refl q
  have hboarding : ∀ q : Part, q.Calm (q.requestBoarding before r) := fun q => Part.calm_ite _
    (fun _ => q.calm_askRecordCue _ _) fun _ => .refl q
  have hlatch : ∀ (q : Part) b, q.Calm (q.latchDelay r b) := fun q b => Part.calm_ite _
    (fun _ => q.calm_latchNat _ _) fun _ => .refl q
  exact (((hcancel.trans (hunknown _)).trans (hdelay _ _)).trans (hboarding _)).trans (hlatch _ _)

theorem Part.calm_triggers (p : Part) (before : Running) (id : Nat) : p.Calm (p.triggers before id) := by
  unfold Part.triggers
  split
  · exact .refl p
  · next r _ =>
    dsimp only
    split
    · exact p.calm_triggerWithdrawals before r
    · exact (p.calm_triggerWithdrawals before r).trans (Part.calm_triggerRequests _ _ _)

theorem Part.calm_startMark (p : Part) (id old : Nat) : p.Calm (p.startMark id old) := p.calm_modRecord _ fun _ => rfl

theorem Part.calm_endMark (p : Part) (id : Nat) : p.Calm (p.endMark id) := p.calm_modRecord _ fun _ => rfl

theorem Part.calm_changeNotice (p : Part) (r : Record) : p.Calm (p.changeNotice r) :=
  Part.calm_ite _ (fun _ => p.calm_askNotice _ _) fun _ => p.calm_withdrawNotice _ _

/-- The first steps of R77 and R79. -/
theorem Part.calm_markChange (p : Part) (r : Record) (old : Nat) :
    p.Calm (((p.startMark r.id old).changeNotice r).dropEarlierBoarding r.id) :=
  ((p.calm_startMark _ _).trans (Part.calm_changeNotice _ _)).trans (Part.calm_removeQueued _ _)

theorem Part.calm_platformReversed (p : Part) (r : Record) (before : Option Nat) (original : Nat) :
    p.Calm (p.platformReversed r before original) := by
  have hgone := (p.calm_withdrawNotice .change (some r.id)).trans (Part.calm_removeAuto _ r.id [.change])
  refine (Part.Calm.trans ?_ (Part.calm_endMark _ _)).trans (Part.calm_latchNat _ _ _)
  exact Part.calm_ite _ (fun _ => hgone.trans (Part.calm_askCue _ _ _ _ _)) fun _ => hgone

theorem Part.calm_trackPlatform (p : Part) (before : Running) (r : Record) : p.Calm (p.trackPlatform before r) := by
  unfold Part.trackPlatform
  split
  · exact .refl p
  · exact p.calm_platformReversed r _ _
  · exact Part.calm_ite _ (fun _ => (p.calm_endMark _).trans (Part.calm_withdrawNotice _ _ _)) fun _ => .refl p
  · exact ((p.calm_markChange r _).trans (Part.calm_removeAuto _ _ _)).trans (Part.calm_latchNat _ _ _)
  · refine Part.Calm.trans ?_ (Part.calm_latchNat _ _ _)
    exact Part.calm_ite _ (fun _ => (p.calm_markChange r _).trans (Part.calm_askCue _ _ _ _ _)) fun _ => p.calm_markChange r _

theorem Part.calm_trackStatus (p : Part) (before : Running) (r : Record) : p.Calm (p.trackStatus before r) := by
  unfold Part.trackStatus
  dsimp only
  refine Part.Calm.trans ?_ (Part.calm_ite _ (fun _ => Part.calm_askNotice _ _ _) fun _ => .refl _)
  exact Part.calm_ite _ (fun _ => (p.calm_withdrawNotice _ _).trans (Part.calm_removeAuto _ _ _)) fun _ => .refl p

theorem Part.calm_track (p : Part) (before : Running) (id : Nat) : p.Calm (p.track before id) := by
  unfold Part.track
  split
  · exact .refl p
  · exact (p.calm_trackPlatform _ _).trans (Part.calm_trackStatus _ _ _)

/-! ## A record moved to its place (R23, R36) -/

theorem find_id_eq {l : List Record} {id : Nat} {r : Record} (h : l.find? (·.id == id) = some r) : r ∈ l ∧ r.id = id :=
  ⟨List.mem_of_find?_eq_some h, by simpa using List.find?_some h⟩

theorem eq_of_id {l : List Record} (h : (l.map (·.id)).Nodup) {a b : Record} (ha : a ∈ l) (hb : b ∈ l) (hid : a.id = b.id) :
    a = b := List.inj_on_of_nodup_map h ha hb hid

theorem perm_cons_filter_id {l : List Record} (h : (l.map (·.id)).Nodup) {r : Record} (hr : r ∈ l) :
    l.Perm (r :: l.filter (·.id != r.id)) := by
  have hsplit := (List.filter_append_perm (fun t : Record => t.id == r.id) l).symm
  have hone : l.filter (fun t => t.id == r.id) = [r] := by
    have hnodup : l.Nodup := List.Nodup.of_map _ h
    have hperm : (l.filter fun t => t.id == r.id).Perm [r] := by
      refine (List.perm_ext_iff_of_nodup (hnodup.filter _) (List.nodup_singleton r)).mpr fun t => ?_
      rw [List.mem_filter, List.mem_singleton, beq_iff_eq]
      exact ⟨fun ⟨ht, hid⟩ => eq_of_id h ht hr hid, by rintro rfl; exact ⟨hr, rfl⟩⟩
    exact List.perm_singleton.mp hperm
  rw [hone] at hsplit
  exact hsplit

theorem placeRecord_perm {l : List Record} (h : (l.map (·.id)).Nodup) (id : Nat) : (placeRecord id l).Perm l := by
  unfold placeRecord
  split
  · exact .refl _
  · next r hr =>
    obtain ⟨hmem, rfl⟩ := find_id_eq hr
    exact (insertBy_perm _ _ _).trans (perm_cons_filter_id h hmem).symm

theorem placeRecord_inOrder {l : List Record} (id : Nat) (ho : inOrder (l.filter (·.id != id))) : inOrder (placeRecord id l) := by
  unfold placeRecord
  split
  · next hnone =>
    have hall : l.filter (·.id != id) = l := List.filter_eq_self.mpr fun r hr => by
      simpa using List.find?_eq_none.mp hnone r hr
    rwa [hall] at ho
  · next r hr =>
    obtain ⟨_, rfl⟩ := find_id_eq hr
    refine insertBy_pairwise recordBefore_trans (fun b hb => recordBefore_total fun hid => ?_) ho
    simpa [hid] using (List.mem_filter.mp hb).2

theorem Table.unsorted.of_perm {t u : Table} (h : t.unsorted) (hp : u.records.Perm t.records) (hn : u.names = t.names) :
    u.unsorted :=
  ⟨hp.length_eq ▸ h.1, (hp.map (·.id)).nodup_iff.mpr h.2.1, hn ▸ h.2.2⟩

/-- A change of one record that keeps its id keeps the table in order but for it. -/
theorem Table.okBut.modRecord {p : Part} {id : Nat} (h : p.table.okBut id) {f : Record → Record}
    (hf : ∀ r ∈ p.table.records, r.id = id → (f r).id = id) : (p.modRecord id f).table.okBut id := by
  obtain ⟨⟨hlen, hids, hnames⟩, horder⟩ := h
  have hsame : ∀ r ∈ p.table.records, (if r.id == id then f r else r).id = r.id := by
    intro r hr
    split
    · next he => rw [hf r hr (beq_iff_eq.mp he), beq_iff_eq.mp he]
    · rfl
  refine ⟨⟨?_, ?_, hnames⟩, ?_⟩
  · show (p.table.records.map _).length ≤ 96
    rwa [List.length_map]
  · show ((p.table.records.map fun r => if r.id == id then f r else r).map (·.id)).Nodup
    rw [List.map_map]
    have hmap : p.table.records.map ((·.id) ∘ fun r => if r.id == id then f r else r) = p.table.records.map (·.id) :=
      List.map_congr_left hsame
    rwa [hmap]
  · show inOrder ((p.table.records.map fun r => if r.id == id then f r else r).filter (·.id != id))
    have hfilter : (p.table.records.map fun r => if r.id == id then f r else r).filter (·.id != id) =
        p.table.records.filter (·.id != id) := by
      rw [List.filter_map]
      have hsel : p.table.records.filter ((·.id != id) ∘ fun r => if r.id == id then f r else r) =
          p.table.records.filter (·.id != id) :=
        List.filter_congr fun r hr => by rw [Function.comp_apply, hsame r hr]
      rw [hsel]
      refine (List.map_congr_left fun r hr => ?_).trans (List.map_id _)
      have hne : (r.id == id) = false := by simpa using (List.mem_filter.mp hr).2
      rw [hne]
      rfl
    rwa [hfilter]

/-! ## Handing on (R23) -/

/-- The part before a record handed on is put in its place. -/
def Part.processed (p : Part) (before : Running) (id : Nat) : Part :=
  ((p.modRecord id p.computed).triggers before id).track before id

theorem Part.keepsRest_processed (p : Part) (before : Running) (id : Nat) : p.KeepsRest (p.processed before id) :=
  ((p.keepsRest_mapRecords _).trans (Part.calm_triggers _ before id).rest).trans (Part.calm_track _ before id).rest

theorem Part.keepsRest_handOn (p : Part) (before : Running) (id : Nat) : p.KeepsRest (p.handOn before id) := by
  have hplaced := (p.keepsRest_processed before id).trans (Part.keepsRest_mapRecords _ (placeRecord id))
  have hend : ((p.processed before id).mapRecords (placeRecord id)).Keeps (p.handOn before id) := Part.keeps_of_bare rfl
  exact hplaced.trans hend.toKeepsRest

theorem Part.handOn_records (p : Part) (before : Running) (id : Nat) :
    (p.handOn before id).table.records = placeRecord id (p.processed before id).table.records := rfl

theorem Part.processed_same (p : Part) (before : Running) (id : Nat) :
    (p.modRecord id p.computed).SameRecords (p.processed before id) :=
  ((Part.calm_triggers _ before id).trans (Part.calm_track _ before id)).same

theorem Part.processed_okBut {p : Part} {id : Nat} (h : p.table.okBut id) (before : Running) :
    (p.processed before id).table.okBut id :=
  (p.processed_same before id).okBut (h.modRecord fun _ _ hid => hid)

/-- Handing on puts the table in order. -/
theorem Part.handOn_ok {p : Part} {id : Nat} (h : p.table.okBut id) (before : Running) : (p.handOn before id).table.ok := by
  have hdone := Part.processed_okBut h before
  refine (Table.ok_iff _).mpr ⟨hdone.1.of_perm (placeRecord_perm hdone.1.2.1 id) rfl, ?_⟩
  exact placeRecord_inOrder id hdone.2

theorem Part.mem_modRecord {p : Part} {id : Nat} {f : Record → Record} {r : Record} (h : r ∈ (p.modRecord id f).table.records) :
    (∃ t ∈ p.table.records, t.id = id ∧ r = f t) ∨ (r ∈ p.table.records ∧ r.id ≠ id) := by
  obtain ⟨t, ht, rfl⟩ := List.mem_map.mp h
  by_cases hid : t.id = id
  · exact Or.inl ⟨t, ht, hid, by simp [hid]⟩
  · exact Or.inr (by simp [hid, ht])

/-- Every record after handing on has id and copies of one before. -/
theorem Part.handOn_mem {p : Part} {id : Nat} (h : p.table.okBut id) {before : Running} {r : Record}
    (hr : r ∈ (p.handOn before id).table.records) :
    ∃ t ∈ p.table.records, t.id = r.id ∧ t.info = r.info ∧ t.ctl = r.ctl := by
  rw [Part.handOn_records] at hr
  have hdone := Part.processed_okBut h before
  obtain ⟨t, ht, he⟩ := (p.processed_same before id).mem ((placeRecord_perm hdone.1.2.1 id).mem_iff.mp hr)
  obtain ⟨hid, _, _, hi, hc⟩ := Record.essence_inj he
  rcases Part.mem_modRecord ht with ⟨u, hu, _, rfl⟩ | ⟨ht, _⟩
  · exact ⟨u, hu, hid, hi, hc⟩
  · exact ⟨t, ht, hid, hi, hc⟩

theorem Part.handOn_platforms (p : Part) (before : Running) (id : Nat) :
    (p.handOn before id).own.platforms = p.own.platforms := (p.processed_same before id).platforms

/-- Records with copies of the records before are lawful. -/
theorem Part.copiesOk_of_mem {p q : Part} (ho : q.own.platforms = p.own.platforms)
    (hm : ∀ r ∈ q.table.records, ∃ t ∈ p.table.records, t.info = r.info ∧ t.ctl = r.ctl) (h : p.copiesOk) : q.copiesOk := by
  refine ⟨ho ▸ h.1, fun r hr => ?_⟩
  obtain ⟨t, ht, hi, hc⟩ := hm r hr
  exact Part.recordLaw_of_same ho hi.symm hc.symm (h.2 t ht)

theorem Part.handOn_tableLaw {p : Part} {id : Nat} (h : p.table.okBut id) (hc : p.copiesOk) (before : Running) :
    (p.handOn before id).tableLaw := by
  refine ⟨Part.handOn_ok h before, Part.copiesOk_of_mem (p.handOn_platforms before id) (fun r hr => ?_) hc⟩
  obtain ⟨t, ht, _, hi, hc⟩ := Part.handOn_mem h hr
  exact ⟨t, ht, hi, hc⟩

/-! ## A record changed (R22, R23, R29, R31) -/

theorem Part.record?_mem {p : Part} {id : Nat} {r : Record} (h : p.record? id = some r) : r ∈ p.table.records ∧ r.id = id :=
  find_id_eq h

theorem Part.tracked_same (p : Part) (before : Running) (o : ChangeOrigin) (r : Record) :
    (p.tracked before o r).essence = r.essence := rfl

/-- One record replaced by one of its id, key and time. -/
theorem Table.ok.modRecord {p : Part} {id : Nat} (h : p.table.ok) {f : Record → Record}
    (hf : ∀ r ∈ p.table.records, r.id = id → (f r).id = r.id ∧ (f r).key = r.key ∧ (f r).sched = r.sched) :
    (p.modRecord id f).table.ok := by
  refine (Table.ok_iff _).mpr ⟨((h.but id).modRecord fun r hr hid => (hf r hr hid).1.trans hid).1, ?_⟩
  show inOrder (p.table.records.map fun r => if r.id == id then f r else r)
  rw [inOrder, List.pairwise_map]
  have hsame : ∀ r ∈ p.table.records, (if r.id == id then f r else r).id = r.id ∧ (if r.id == id then f r else r).key = r.key ∧
      (if r.id == id then f r else r).sched = r.sched := by
    intro r hr
    split
    · next he => exact hf r hr (beq_iff_eq.mp he)
    · exact ⟨rfl, rfl, rfl⟩
  refine ((Table.ok_iff _).mp h).2.imp_of_mem fun ha hb hab => ?_
  obtain ⟨hia, hka, hsa⟩ := hsame _ ha
  obtain ⟨hib, hkb, hsb⟩ := hsame _ hb
  rw [recordBefore_iff] at hab ⊢
  rwa [hia, hka, hsa, hib, hkb, hsb]

/-- One record replaced by a lawful one. -/
theorem Part.copiesOk_modRecord {p : Part} {id : Nat} (h : p.copiesOk) {f : Record → Record}
    (hf : ∀ r ∈ p.table.records, r.id = id → p.recordLaw (f r)) : (p.modRecord id f).copiesOk := by
  refine ⟨h.1, fun r hr => ?_⟩
  rcases Part.mem_modRecord hr with ⟨t, ht, hid, rfl⟩ | ⟨hr, _⟩
  · exact Part.recordLaw_of_same rfl rfl rfl (hf t ht hid)
  · exact Part.recordLaw_of_same rfl rfl rfl (h.2 r hr)

theorem Part.keepsRest_change (p : Part) (old new : Record) (o : ChangeOrigin) : p.KeepsRest (p.change old new o) := by
  unfold Part.change
  dsimp only
  split
  · exact p.keepsRest_mapRecords _
  · exact (p.keepsRest_mapRecords _).trans (Part.keepsRest_handOn _ _ _)

/-- A held record changed to a lawful one of its id and with the key it has. -/
theorem Part.change_tableLaw {p : Part} {old new : Record} {o : ChangeOrigin} (h : p.tableLaw) (hold : old ∈ p.table.records)
    (hid : new.id = old.id) (hkey : new.key = old.key) (hlaw : p.recordLaw new) : (p.change old new o).tableLaw := by
  obtain ⟨hok, hcopies⟩ := h
  have hcopies' : (p.modRecord old.id fun _ => p.tracked old.running o new).copiesOk :=
    Part.copiesOk_modRecord hcopies fun _ _ _ => Part.recordLaw_of_same rfl rfl rfl hlaw
  unfold Part.change
  dsimp only
  split
  · next hsame =>
    rw [Bool.and_eq_true, beq_iff_eq] at hsame
    refine ⟨hok.modRecord fun r hr hrid => ?_, hcopies'⟩
    rw [eq_of_id hok.2.1 hr hold hrid]
    exact ⟨hid, hkey, hsame.1⟩
  · have hbut : (p.modRecord old.id fun _ => p.tracked old.running o new).table.okBut old.id :=
      (hok.but _).modRecord fun _ _ _ => hid
    exact Part.handOn_tableLaw hbut hcopies' _

/-! ## Deletion and retirement (R32, R37, R38) -/

theorem Part.keeps_filterRecords (p : Part) (f : Record → Bool) : p.Keeps (p.mapRecords (·.filter f)) := by
  refine ⟨p.keepsRest_mapRecords _, fun ⟨⟨hlen, hids, horder, hnames⟩, hcopies⟩ => ?_⟩
  have hsub : (p.table.records.filter f).Sublist p.table.records := List.filter_sublist
  refine ⟨⟨hsub.length_le.trans hlen, hids.sublist (hsub.map _), horder.sublist hsub, hnames⟩, hcopies.1, fun r hr => ?_⟩
  exact Part.recordLaw_of_same rfl rfl rfl (hcopies.2 r (hsub.subset hr))

theorem Part.keeps_deleteRecord (p : Part) (id : Nat) : p.Keeps (p.deleteRecord id) :=
  (((p.keeps_filterRecords _).trans (Part.keeps_withdrawAll _ _)).trans (Part.keeps_removeAuto _ _ _)).trans
    (Part.keeps_tellWall _)

theorem Part.keeps_retire (p : Part) (id : Nat) : p.Keeps (p.retire id) :=
  (p.keeps_deleteRecord id).trans (Part.keeps_latchNat _ _ _)

theorem Part.keeps_retireCheck (p : Part) (sel : Record → Bool) : p.Keeps (p.retireCheck sel) :=
  Part.keeps_foldl _ Part.keeps_retire _ p

theorem Part.keeps_settle (p : Part) : p.Keeps p.settle := (p.keeps_retireCheck _).trans (Part.keeps_finish _)

/-! ## The whole table computed again (R39, R56) -/

/-- Sorting puts a table in order. -/
theorem Table.unsorted.sort {t : Table} (h : t.unsorted) : ({ t with records := sortRecords t.records } : Table).ok := by
  refine (Table.ok_iff _).mpr ⟨h.of_perm (sortBy_perm _ _) rfl, sortBy_pairwise _ recordBefore_trans ?_⟩
  exact (List.pairwise_map.mp h.2.1).imp fun hid => recordBefore_total hid

/-- Every record replaced by one of its id and copies. -/
theorem Part.map_unsorted {p : Part} {f : Record → Record} (h : p.table.unsorted) (hf : ∀ r, (f r).id = r.id) :
    ({ p.table with records := p.table.records.map f } : Table).unsorted := by
  obtain ⟨hlen, hids, hnames⟩ := h
  refine ⟨by rwa [List.length_map], ?_, hnames⟩
  rw [List.map_map]
  have hsame : p.table.records.map ((·.id) ∘ f) = p.table.records.map (·.id) := List.map_congr_left fun r _ => hf r
  rwa [hsame]

theorem Running.onPlatforms.shift {c : Running} (h : c.onPlatforms) : c.shift.onPlatforms := h

theorem Part.recordLaw_shift {p : Part} {r : Record} (h : p.recordLaw r) : p.recordLaw (p.computed r.shift) := by
  obtain ⟨hi, hc, hlaw⟩ := h
  refine ⟨hi, fun c hs => ?_, ?_⟩
  · obtain ⟨c, hr, rfl⟩ := Option.map_eq_some_iff.mp hs
    exact hc c hr
  · have hctl : (p.computed r.shift).ctl = r.ctl.map Running.shift := rfl
    unfold Part.copyLaw at *
    rw [hctl]
    cases hr : r.ctl with
    | none => rwa [hr] at hlaw
    | some c => rwa [hr] at hlaw

theorem Part.keeps_tableRollover (p : Part) : p.Keeps p.tableRollover := by
  have hretired : p.Keeps (((p.table.records.filter Record.oldDay).map (·.id)).foldl Part.retire p) :=
    Part.keeps_foldl _ Part.keeps_retire _ p
  refine (hretired.trans ⟨Part.keepsRest_mapRecords _ _, fun ⟨hok, hcopies⟩ => ⟨?_, ?_⟩⟩).trans (Part.keeps_tellWall _)
  · exact (Part.map_unsorted (f := fun r => Part.computed _ r.shift) ((Table.ok_iff _).mp hok).1 fun _ => rfl).sort
  · refine ⟨hcopies.1, fun r hr => ?_⟩
    obtain ⟨t, ht, rfl⟩ := List.mem_map.mp (mem_sortBy.mp hr)
    exact Part.recordLaw_of_same rfl rfl rfl (Part.recordLaw_shift (hcopies.2 t ht))

theorem Part.keeps_rollover (p : Part) : p.Keeps p.rollover := by
  unfold Part.rollover
  split
  · exact .refl p
  · next d _ =>
    have hday := p.keeps_time { p.time with serviceDay := some (d + 1) } id
    exact (hday.trans (Part.keeps_tableRollover _)).trans (Part.keeps_latch _ _ _)

/-- The laws of the table but for its order. -/
def Part.looseLaw (p : Part) : Prop := p.table.unsorted ∧ p.copiesOk

theorem Part.looseLaw_computeTriggers {p : Part} (h : p.looseLaw) (r : Record) :
    ((p.modRecord r.id p.computed).triggers r.running r.id).looseLaw := by
  have hcomputed : (p.modRecord r.id p.computed).looseLaw := by
    refine ⟨Part.map_unsorted h.1 fun t => ?_, Part.copiesOk_modRecord h.2 fun t ht _ => ?_⟩
    · split <;> rfl
    · exact Part.recordLaw_of_same rfl rfl rfl (h.2.2 t ht)
  have hsame := (Part.calm_triggers (p.modRecord r.id p.computed) r.running r.id).same
  exact ⟨hsame.unsorted hcomputed.1, hsame.copiesOk hcomputed.2⟩

theorem Part.keeps_recomputeAll (p : Part) : p.Keeps p.recomputeAll := by
  have hrest := Part.keepsRest_foldl (fun p r => (p.modRecord r.id p.computed).triggers r.running r.id)
    (fun q r => (q.keepsRest_mapRecords _).trans (Part.calm_triggers _ _ _).rest) p.table.records p
  have hloose : p.looseLaw → (p.table.records.foldl (fun p r => (p.modRecord r.id p.computed).triggers r.running r.id) p).looseLaw :=
    foldl_invariant Part.looseLaw _ (fun q r hq => Part.looseLaw_computeTriggers hq r) p.table.records p
  refine Part.Keeps.trans ⟨hrest.trans ((Part.keepsRest_mapRecords _ sortRecords).trans (Part.keeps_tellWall _).toKeepsRest),
    fun ⟨hok, hcopies⟩ => ?_⟩ (Part.keeps_retireCheck _ _)
  obtain ⟨hun, hcop⟩ := hloose ⟨((Table.ok_iff _).mp hok).1, hcopies⟩
  exact ⟨hun.sort, hcop.1, fun r hr => Part.recordLaw_of_same rfl rfl rfl (hcop.2 r (mem_sortBy.mp hr))⟩

end Sys2Proof.Machine
end

section
/-! SERVICE_PUT, SERVICE_UPDATE, SERVICE_REMOVE and ASSIGN keep the laws of the Departure Table (R25 to R32, R61 to R70). -/

namespace Sys2Proof.Machine

/-! ## The owners of the platforms -/

theorem Part.controlOwnsAny_of_owned {p : Part} {n : Nat} (h : p.controlOwned n = true) : p.controlOwnsAny = true := by
  unfold Part.controlOwned at h
  rw [beq_iff_eq, List.getD_eq_getElem?_getD] at h
  unfold Part.controlOwnsAny
  rw [List.contains_iff_mem]
  cases hget : p.own.platforms[n - 1]? with
  | none => simp [hget] at h
  | some w =>
    rw [hget, Option.getD_some] at h
    exact h ▸ List.mem_of_getElem? hget

/-- A change of the owners keeps every law but those of the table. -/
theorem Part.keepsRest_own (p : Part) (o : Ownership) : p.KeepsRest { p with own := o } :=
  ⟨.refl _, id, id, id, Part.settingsOk_of_same rfl rfl, fun _ => id⟩

/-- Resources that are no platform have no part in the law of Control copies. -/
theorem Part.keeps_own (p : Part) {o : Ownership} (h : o.platforms = p.own.platforms) : p.Keeps { p with own := o } :=
  ⟨p.keepsRest_own o, Part.tableLaw_of_same rfl h⟩

/-! ## SERVICE_PUT (R25 to R29) -/

/-- What the reader of SERVICE_PUT says of a record's platform. -/
def PutRecord.platformRead (r : PutRecord) : Prop := ∀ n, r.platform = some n → 1 ≤ n

theorem readPutRecord_platform {l rest : List Byte} {r : PutRecord} (h : readPutRecord l = some (r, rest)) : r.platformRead := by
  unfold readPutRecord at h
  simp only [Option.bind_eq_bind, Option.bind_eq_some_iff] at h
  obtain ⟨_, _, _, _, _, _, ⟨pl, _⟩, _, _, _, _, _, _, _, _, _, _, _, h⟩ := h
  split at h
  · simp only [Option.some.injEq, Prod.mk.injEq] at h
    intro n hn
    rw [← h.1] at hn
    dsimp only at hn
    split at hn
    · cases hn
    · next hne =>
      rw [beq_iff_eq] at hne
      injection hn with hn
      omega
  · cases h

theorem readAll_forall {α : Type} {one : List Byte → Option (α × List Byte)} {P : α → Prop}
    (hone : ∀ l a rest, one l = some (a, rest) → P a) (n : Nat) (l : List Byte) (as : List α) (h : readAll one n l = some as) :
    ∀ a ∈ as, P a := by
  induction n generalizing l as with
  | zero =>
    cases l with
    | nil =>
      rw [readAll, Option.some.injEq] at h
      simp [← h]
    | cons b l => simp [readAll] at h
  | succ n ih =>
    rw [readAll] at h
    cases hitem : one l with
    | none => simp [hitem] at h
    | some ar =>
      rw [hitem] at h
      obtain ⟨rest, hrest, rfl⟩ := Option.map_eq_some_iff.mp h
      exact List.forall_mem_cons.mpr ⟨hone l _ _ hitem, ih _ _ hrest⟩

theorem readServicePut_platform {b : List Byte} {rs : List PutRecord} (h : readServicePut b = some rs) :
    ∀ r ∈ rs, r.platformRead := by
  unfold readServicePut at h
  obtain ⟨⟨n, l⟩, _, hall⟩ := Option.bind_eq_some_iff.mp h
  exact readAll_forall (fun _ _ _ => readPutRecord_platform) n l rs hall

/-- The platform of a record that is not malformed is 1 to 32. -/
theorem PutRecord.copy_onPlatforms {r : PutRecord} (hread : r.platformRead) (h : r.malformed = false) (st : Status) :
    (r.copy st).onPlatforms := by
  intro n hn
  have hn : r.platform = some n := hn
  simp only [PutRecord.malformed, Bool.or_eq_false_iff, hn, Option.any_some, decide_eq_false_iff_not] at h
  exact ⟨hread n hn, by omega⟩

/-- A copy may be taken where its platform is not the Control link's, or the record has a Control copy (R27). -/
theorem Part.recordLaw_of_info {p : Part} {r : Record} {c : Running} (h : p.recordLaw r) (hc : c.onPlatforms)
    (howner : r.ctl = none → ∀ n, c.platform = some n → p.controlOwned n = false) : p.recordLaw { r with info := c } := by
  obtain ⟨_, hctl, hlaw⟩ := h
  refine ⟨hc, hctl, ?_⟩
  unfold Part.copyLaw at *
  dsimp only
  split
  · next hnone => exact howner hnone
  · next d hd =>
    rw [hd] at hlaw
    exact hlaw

theorem Part.putNotOwner_none {p : Part} {r : PutRecord} {old : Option Record} (h : p.putNotOwner r old = false)
    (hbare : old.bind (·.ctl) = none) {n : Nat} (hn : r.platform = some n) : p.controlOwned n = false := by
  simpa [Part.putNotOwner, hbare, hn] using h

theorem Part.record?_none {p : Part} {id : Nat} (h : p.record? id = none) : ∀ r ∈ p.table.records, r.id ≠ id := by
  simpa [Part.record?] using h

theorem Part.keeps_putCreate {p : Part} {r : PutRecord} {st : Status} (hnone : p.record? r.id = none)
    (hroom : p.table.records.length < 96) (hon : (r.copy st).onPlatforms)
    (howner : ∀ n, r.platform = some n → p.controlOwned n = false) : p.Keeps (p.putCreate r st) := by
  refine ⟨(p.keepsRest_mapRecords _).trans (Part.keepsRest_handOn _ _ _), fun ⟨hok, hcopies⟩ => ?_⟩
  have hnew := Part.record?_none hnone
  obtain ⟨hlen, hids, horder, hnames⟩ := hok
  refine Part.handOn_tableLaw (p := p.mapRecords (· ++ [r.fresh st])) ⟨⟨?_, ?_, hnames⟩, ?_⟩ ⟨hcopies.1, fun t ht => ?_⟩ _
  · show (p.table.records ++ [r.fresh st]).length ≤ 96
    rw [List.length_append, List.length_singleton]
    omega
  · show ((p.table.records ++ [r.fresh st]).map (·.id)).Nodup
    rw [List.map_append, List.nodup_append]
    refine ⟨hids, List.nodup_singleton _, fun a ha b hb => ?_⟩
    obtain ⟨t, ht, rfl⟩ := List.mem_map.mp ha
    rw [List.mem_singleton.mp hb]
    exact hnew t ht
  · show inOrder ((p.table.records ++ [r.fresh st]).filter (·.id != r.id))
    have hgone : [r.fresh st].filter (fun t => t.id != r.id) = [] := by simp [PutRecord.fresh]
    rw [List.filter_append, hgone, List.append_nil]
    exact horder.sublist List.filter_sublist
  · rcases List.mem_append.mp ht with ht | ht
    · exact Part.recordLaw_of_same rfl rfl rfl (hcopies.2 t ht)
    · rw [List.mem_singleton.mp ht]
      exact ⟨hon, fun _ hc => (nomatch hc), howner⟩

theorem Part.keeps_putOne (p : Part) {r : PutRecord} (hread : r.platformRead) : p.Keeps (p.putOne r).1 := by
  unfold Part.putOne
  dsimp only
  split
  · exact .refl p
  · next st _ =>
    split
    · exact .refl p
    · next hfine =>
      rw [Bool.or_eq_true, not_or, Bool.not_eq_true] at hfine
      have hon := PutRecord.copy_onPlatforms hread hfine.1 st
      split
      · exact .refl p
      · next hmay =>
        rw [Bool.not_eq_true] at hmay
        split
        · next o ho =>
          obtain ⟨hmem, _⟩ := Part.record?_mem ho
          refine ⟨p.keepsRest_change _ _ _, fun h => Part.change_tableLaw h hmem rfl rfl ?_⟩
          refine Part.recordLaw_of_same rfl rfl rfl (Part.recordLaw_of_info (h.2.2 o hmem) hon fun hbare n hn => ?_)
          exact Part.putNotOwner_none hmay (by simpa [ho] using hbare) hn
        · next hnone =>
          split
          · exact .refl p
          · exact Part.keeps_putCreate hnone (by omega) hon fun n hn => Part.putNotOwner_none hmay (by simp [hnone]) hn

/-- Items taken one after another, each of which keeps every law. -/
theorem Part.keeps_takeEach {α : Type} {one : Part → α → Part × Result} {as : List α}
    (h : ∀ a ∈ as, ∀ p : Part, p.Keeps (one p a).1) (p : Part) : p.Keeps (takeEach one as p).1 := by
  induction as generalizing p with
  | nil => exact .refl p
  | cons a as ih => exact (h a List.mem_cons_self p).trans (ih (fun b hb => h b (List.mem_cons_of_mem _ hb)) _)

/-! ## SERVICE_UPDATE (R30, R31, R69, R70) -/

/-- A Control copy may be changed to a platform that is the Control link's, or to none while one is (R69, R70). -/
theorem Part.recordLaw_of_ctl {p : Part} {r : Record} {c : Running} (h : p.recordLaw r) (hc : c.onPlatforms)
    (howner : ∀ n, c.platform = some n → p.controlOwned n = true) (hany : c.platform = none → p.controlOwnsAny = true) :
    p.recordLaw { r with ctl := some c } := by
  refine ⟨h.1, fun d hd => Option.some.inj hd ▸ hc, ?_⟩
  show match c.platform with
    | some n => p.controlOwned n = true
    | none => p.controlOwnsAny = true
  split
  · next n hn => exact howner n hn
  · next hn => exact hany hn

/-- A record that has a Control copy shows that the Control link owns a platform. -/
theorem Part.recordLaw.ownsAny {p : Part} {r : Record} {c : Running} (h : p.recordLaw r) (hc : r.ctl = some c) :
    p.controlOwnsAny = true := by
  obtain ⟨_, _, hlaw⟩ := h
  unfold Part.copyLaw at hlaw
  rw [hc] at hlaw
  dsimp only at hlaw
  split at hlaw
  · exact Part.controlOwnsAny_of_owned hlaw
  · exact hlaw

theorem UpdateBody.apply_platform {u : UpdateBody} {c : Running} {n : Nat} (h : (u.apply c).platform = some n) :
    (u.platformAction = .set ∧ u.platform = n) ∨ c.platform = some n := by
  unfold UpdateBody.apply at h
  dsimp only at h
  split at h
  · next hset => exact Or.inl ⟨hset, Option.some.inj h⟩
  · cases h
  · exact Or.inr h
  · exact Or.inr h

theorem UpdateBody.apply_onPlatforms {u : UpdateBody} {c : Running} (hfine : u.malformed = false) (hc : c.onPlatforms) :
    (u.apply c).onPlatforms := by
  intro n hn
  rcases UpdateBody.apply_platform hn with ⟨hset, rfl⟩ | hn
  · simp only [UpdateBody.malformed, Bool.or_eq_false_iff] at hfine
    simpa [hset] using hfine.1.1.2
  · exact hc n hn

/-- An update that passes the checks of R30 leaves a lawful record. -/
theorem Part.recordLaw_update {p : Part} {l : Link} {u : UpdateBody} {r : Record} {c : Running} (h : p.recordLaw r)
    (hcopy : r.copyOf l = some c) (hfine : u.malformed = false) (hmay : p.updateNotOwner l u r = false) :
    p.recordLaw (r.setCopy l (u.apply c)) := by
  cases l with
  | information =>
    rw [Record.copyOf, Option.some.injEq] at hcopy
    subst hcopy
    refine Part.recordLaw_of_info h (UpdateBody.apply_onPlatforms hfine h.1) fun hbare n hn => ?_
    rcases UpdateBody.apply_platform hn with ⟨hset, rfl⟩ | hn
    · simpa [Part.updateNotOwner, hset, hbare] using hmay
    · obtain ⟨_, _, hlaw⟩ := h
      unfold Part.copyLaw at hlaw
      rw [hbare] at hlaw
      exact hlaw n hn
  | control =>
    have hcopy : r.ctl = some c := hcopy
    refine Part.recordLaw_of_ctl h (UpdateBody.apply_onPlatforms hfine (h.2.1 c hcopy)) (fun n hn => ?_) fun _ => h.ownsAny hcopy
    rcases UpdateBody.apply_platform hn with ⟨hset, rfl⟩ | hn
    · simpa [Part.updateNotOwner, hset] using hmay
    · obtain ⟨_, _, hlaw⟩ := h
      unfold Part.copyLaw at hlaw
      rw [hcopy] at hlaw
      dsimp only at hlaw
      rw [hn] at hlaw
      exact hlaw

/-- An answer leaves the part with every law kept. -/
def Part.KeepsAnswer (p : Part) : Answer → Prop
  | .reply q _ _ => p.Keeps q
  | .wait q _ => p.Keeps q

theorem Part.keepsAnswer_ite {p : Part} {a b : Answer} (c : Prop) [Decidable c] (ha : c → p.KeepsAnswer a)
    (hb : ¬c → p.KeepsAnswer b) : p.KeepsAnswer (if c then a else b) := by
  split
  · next h => exact ha h
  · next h => exact hb h

theorem Part.keeps_serviceUpdate (p : Part) (l : Link) (u : UpdateBody) : p.KeepsAnswer (serviceUpdate l u p) := by
  unfold serviceUpdate
  split
  · exact .refl p
  · next r hr =>
    obtain ⟨hmem, _⟩ := Part.record?_mem hr
    refine Part.keepsAnswer_ite _ (fun _ => .refl p) fun hfine => ?_
    split
    · exact .refl p
    · next c hc =>
      refine Part.keepsAnswer_ite _ (fun _ => .refl p) fun _ => Part.keepsAnswer_ite _ (fun _ => .refl p) fun _ =>
        Part.keepsAnswer_ite _ (fun _ => .refl p) fun hmay => Part.keepsAnswer_ite _ (fun _ => .refl p) fun _ => ?_
      rw [Bool.not_eq_true] at hfine hmay
      have hchange : p.begin.Keeps (p.begin.change r (r.setCopy l (u.apply c)) (updateOrigin l)) := by
        refine ⟨Part.keepsRest_change _ _ _ _, fun h => Part.change_tableLaw h hmem ?_ ?_ ?_⟩
        · cases l <;> rfl
        · cases l <;> rfl
        · exact Part.recordLaw_update (h.2.2 r hmem) hc hfine hmay
      exact (p.keeps_begin.trans hchange).trans (Part.keeps_settle _)

theorem Part.keeps_servicePut (p : Part) {rs : List PutRecord} (hread : ∀ r ∈ rs, r.platformRead) :
    p.KeepsAnswer (servicePut rs p) := by
  unfold servicePut
  refine Part.keepsAnswer_ite _ (fun _ => .refl p) fun _ => ?_
  exact (p.keeps_begin.trans (Part.keeps_takeEach (fun r hr q => q.keeps_putOne (hread r hr)) _)).trans (Part.keeps_settle _)

theorem Part.keeps_removeOne (p : Part) (id : Nat) : p.Keeps (p.removeOne id).1 := by
  unfold Part.removeOne
  split
  · exact .refl p
  · split
    · exact .refl p
    · exact p.keeps_deleteRecord id

theorem Part.keeps_serviceRemove (p : Part) (ids : List Nat) : p.KeepsAnswer (serviceRemove ids p) := by
  unfold serviceRemove
  refine Part.keepsAnswer_ite _ (fun _ => .refl p) fun _ => ?_
  exact (p.keeps_begin.trans (Part.keeps_takeEach (fun id _ q => q.keeps_removeOne id) _)).trans (Part.keeps_finish _)

/-! ## NAME_LOAD (R35) -/

theorem overwriteFrom_length {α : Type} {i : Nat} {new l : List α} (h : i + new.length ≤ l.length) :
    (overwriteFrom i new l).length = l.length := by
  simp only [overwriteFrom, List.length_append, List.length_take, List.length_drop]
  omega

theorem mem_overwriteFrom {α : Type} {i : Nat} {new l : List α} {a : α} (h : a ∈ overwriteFrom i new l) : a ∈ new ∨ a ∈ l := by
  simp only [overwriteFrom, List.mem_append] at h
  rcases h with (h | h) | h
  · exact Or.inr (List.mem_of_mem_take h)
  · exact Or.inl h
  · exact Or.inr (List.mem_of_mem_drop h)

theorem Part.keeps_nameLoad (p : Part) (load : Nat × List Text) : p.KeepsAnswer (nameLoad load p) := by
  unfold nameLoad
  refine Part.keepsAnswer_ite _ (fun _ => .refl p) fun hfine => ?_
  simp only [Bool.or_eq_true, not_or, decide_eq_true_eq, List.any_eq_true, not_exists, not_and] at hfine
  obtain ⟨⟨_, hshort⟩, hroom⟩ := hfine
  have hnames : p.begin.Keeps { p.begin with table :=
      { p.begin.table with names := overwriteFrom load.1 load.2 p.begin.table.names } } := by
    refine ⟨⟨.refl _, id, id, id, Part.settingsOk_of_same rfl rfl, fun _ => id⟩,
      fun ⟨⟨hlen, hids, horder, hcount, htexts⟩, hcopies⟩ => ⟨⟨hlen, hids, horder, ?_, fun t ht => ?_⟩, ?_⟩⟩
    · exact (overwriteFrom_length (by omega)).trans hcount
    · rcases mem_overwriteFrom ht with ht | ht
      · have := hshort t ht
        omega
      · exact htexts t ht
    · exact Part.copiesOk_of_mem rfl (fun r hr => ⟨r, hr, rfl, rfl⟩) hcopies
  exact ((p.keeps_begin.trans hnames).trans (Part.keeps_tellWall _)).trans (Part.keeps_finish _)

/-! ## A platform passes to the Control link (R66) -/

theorem controlOwned_put {p q : Part} {n : Nat} {w : Link} (hlen : p.own.platforms.length = 32) (hn : 1 ≤ n ∧ n ≤ 32)
    (hq : q.own.platforms = updateAt p.own.platforms (n - 1) fun _ => w) {m : Nat} (hm : 1 ≤ m) :
    q.controlOwned m = if m = n then w == .control else p.controlOwned m := by
  unfold Part.controlOwned
  rw [hq]
  split
  · next h =>
    subst h
    rw [updateAt_getD_same _ _ _ _ (by omega)]
  · rw [updateAt_getD_other _ _ _ _ _ (by omega)]

theorem keepsRest_seizePlatform (p : Part) (n : Nat) : p.KeepsRest (p.seizePlatform n) := p.keepsRest_mapRecords _

/-- The records that gain a copy are those whose platform passes (R66). -/
theorem Part.seizePlatform_tableLaw {p : Part} {n : Nat} (hn : 1 ≤ n ∧ n ≤ 32) (h : p.tableLaw) :
    (({ p with own := p.own.put (.platform n) 1 } : Part).seizePlatform n).tableLaw := by
  obtain ⟨hok, hlen, hall⟩ := h
  let q : Part := { p with own := p.own.put (.platform n) 1 }
  have hq : q.own.platforms = updateAt p.own.platforms (n - 1) fun _ => .control := rfl
  have howned : ∀ m, 1 ≤ m → q.controlOwned m = if m = n then true else p.controlOwned m := fun m hm =>
    controlOwned_put hlen hn hq hm
  have hany : q.controlOwnsAny = true := Part.controlOwnsAny_of_owned (n := n) (by rw [howned n hn.1, if_pos rfl])
  let gain (r : Record) : Record := if r.ctl.isNone && r.running.platform == some n then r.gainCopy else r
  have hsame : ∀ r, (gain r).id = r.id ∧ (gain r).key = r.key ∧ (gain r).sched = r.sched := by
    intro r
    dsimp only [gain]
    split <;> exact ⟨rfl, rfl, rfl⟩
  obtain ⟨hun, horder⟩ := (Table.ok_iff _).mp hok
  refine ⟨(Table.ok_iff _).mpr ⟨Part.map_unsorted hun fun r => (hsame r).1, ?_⟩, ?_, fun t ht => ?_⟩
  · show (p.table.records.map gain).Pairwise _
    rw [List.pairwise_map]
    refine horder.imp fun {a b} hab => ?_
    obtain ⟨hia, hka, hsa⟩ := hsame a
    obtain ⟨hib, hkb, hsb⟩ := hsame b
    rw [recordBefore_iff] at hab ⊢
    rwa [hia, hka, hsa, hib, hkb, hsb]
  · exact (updateAt_length _ _ _).trans hlen
  · obtain ⟨r, hr, rfl⟩ := List.mem_map.mp ht
    have hlaw := hall r hr
    obtain ⟨hinfo, hctl, hcopy⟩ := hlaw
    show q.recordLaw (gain r)
    dsimp only [gain]
    unfold Part.copyLaw at hcopy
    cases hc : r.ctl with
    | some c =>
      rw [hc] at hcopy
      refine ⟨hinfo, hctl, ?_⟩
      unfold Part.copyLaw
      simp only [Option.isNone_some, Bool.false_and, Bool.false_eq_true, if_false, hc]
      dsimp only at hcopy
      split
      · next m hm =>
        rw [hm] at hcopy
        rw [howned m (hctl c hc m hm).1]
        split
        · rfl
        · exact hcopy
      · exact hany
    | none =>
      rw [hc] at hcopy
      have hrunning : r.running = r.info := by rw [Record.running, hc]; rfl
      rw [hrunning]
      by_cases hp : r.info.platform = some n
      · have hgain : (if (none : Option Running).isNone && r.info.platform == some n then r.gainCopy else r) = r.gainCopy := by
          simp [hp]
        rw [hgain]
        refine ⟨hinfo, fun c hc => Option.some.inj hc ▸ hinfo, ?_⟩
        unfold Part.copyLaw
        simp only [Record.gainCopy, hp]
        rw [howned n hn.1, if_pos rfl]
      · have hstay : (if (none : Option Running).isNone && r.info.platform == some n then r.gainCopy else r) = r := by
          simp [hp]
        rw [hstay]
        refine ⟨hinfo, hctl, ?_⟩
        unfold Part.copyLaw
        rw [hc]
        intro m hm
        rw [howned m (hinfo m hm).1, if_neg (by rintro rfl; exact hp hm)]
        exact hcopy m hm

/-! ## A platform returns to the Information link (R67, R68) -/

/-- The law of copies but for the records of some ids and, where `absent` is set, for Control copies without a platform. -/
def Part.copiesBut (p : Part) (ids : List Nat) (absent : Bool) : Prop :=
  p.own.platforms.length = 32 ∧ ∀ r ∈ p.table.records, r.info.onPlatforms ∧ (∀ c, r.ctl = some c → c.onPlatforms) ∧
    (r.id ∈ ids ∨ (absent = true ∧ ∃ c, r.ctl = some c ∧ c.platform = none) ∨ p.copyLaw r)

theorem Part.copiesBut_nil {p : Part} (h : p.copiesBut [] false) : p.copiesOk := by
  refine ⟨h.1, fun r hr => ?_⟩
  obtain ⟨hi, hc, hlaw⟩ := h.2 r hr
  exact ⟨hi, hc, by simpa using hlaw⟩

theorem Part.keepsRest_dropCopy (p : Part) (r : Record) : p.KeepsRest (p.dropCopy r) := by
  unfold Part.dropCopy
  dsimp only
  split
  · exact p.keepsRest_mapRecords _
  · exact (p.keepsRest_mapRecords _).trans (Part.keepsRest_handOn _ _ _)

theorem Part.keepsRest_returnRecord (p : Part) (id : Nat) : p.KeepsRest (p.returnRecord id) := by
  unfold Part.returnRecord
  split
  · exact .refl p
  · exact (p.keepsRest_dropCopy _).trans (Part.keepsRest_mapRecords _ _)

theorem Part.dropCopy_platforms (p : Part) (r : Record) : (p.dropCopy r).own.platforms = p.own.platforms := by
  unfold Part.dropCopy
  dsimp only
  split
  · rfl
  · exact Part.handOn_platforms _ _ _

theorem Part.dropCopy_ok {p : Part} {r : Record} (h : p.table.ok) (hr : r ∈ p.table.records) : (p.dropCopy r).table.ok := by
  unfold Part.dropCopy
  dsimp only
  split
  · refine h.modRecord fun t ht hid => ?_
    rw [eq_of_id h.2.1 ht hr hid]
    exact ⟨rfl, rfl, rfl⟩
  · have hbut : (p.modRecord r.id fun _ => p.tracked r.running .returned { r with ctl := none }).table.okBut r.id :=
      (h.but r.id).modRecord fun _ _ _ => rfl
    exact Part.handOn_ok hbut _

/-- The record whose copy is dropped keeps its Information copy alone; the others are as they were. -/
theorem Part.dropCopy_mem {p : Part} {r t : Record} (h : p.table.ok) (ht : t ∈ (p.dropCopy r).table.records) :
    (t.id = r.id ∧ t.info = r.info ∧ t.ctl = none) ∨
      (t.id ≠ r.id ∧ ∃ u ∈ p.table.records, u.id = t.id ∧ u.info = t.info ∧ u.ctl = t.ctl) := by
  have hfirst : ∀ u ∈ (p.modRecord r.id fun _ => p.tracked r.running .returned { r with ctl := none }).table.records,
      (u.id = r.id ∧ u.info = r.info ∧ u.ctl = none) ∨ (u.id ≠ r.id ∧ u ∈ p.table.records) := by
    intro u hu
    rcases Part.mem_modRecord hu with ⟨_, _, _, rfl⟩ | ⟨hu, hid⟩
    · exact Or.inl ⟨rfl, rfl, rfl⟩
    · exact Or.inr ⟨hid, hu⟩
  have hbut : (p.modRecord r.id fun _ => p.tracked r.running .returned { r with ctl := none }).table.okBut r.id :=
    (h.but r.id).modRecord fun _ _ _ => rfl
  unfold Part.dropCopy at ht
  dsimp only at ht
  split at ht
  · rcases hfirst t ht with hone | ⟨hid, hmem⟩
    · exact Or.inl hone
    · exact Or.inr ⟨hid, t, hmem, rfl, rfl, rfl⟩
  · obtain ⟨u, hu, hid, hi, hc⟩ := Part.handOn_mem hbut ht
    rcases hfirst u hu with ⟨h1, h2, h3⟩ | ⟨hne, hmem⟩
    · exact Or.inl ⟨hid ▸ h1, hi ▸ h2, hc ▸ h3⟩
    · exact Or.inr ⟨hid ▸ hne, u, hmem, hid, hi, hc⟩

/-- A record whose copy is dropped is lawful when step 3 of R67 is done. -/
theorem Part.returnRecord_law {p : Part} {id : Nat} {ids : List Nat} {absent : Bool} (hok : p.table.ok)
    (h : p.copiesBut (id :: ids) absent) :
    (p.returnRecord id).table.ok ∧ (p.returnRecord id).copiesBut ids absent ∧
      (p.returnRecord id).own.platforms = p.own.platforms := by
  unfold Part.returnRecord
  split
  · next hnone =>
    refine ⟨hok, ⟨h.1, fun r hr => ?_⟩, rfl⟩
    have hne := Part.record?_none hnone r hr
    simpa [hne] using h.2 r hr
  · next r hr =>
    obtain ⟨hmem, rfl⟩ := Part.record?_mem hr
    have hdropped := Part.dropCopy_ok hok hmem
    have hplatforms := p.dropCopy_platforms r
    have howned : ∀ n, (p.dropCopy r).controlOwned n = p.controlOwned n := fun n => by
      unfold Part.controlOwned
      rw [hplatforms]
    refine ⟨hdropped.modRecord fun t _ _ => ?_, ⟨?_, fun t ht => ?_⟩, hplatforms⟩
    · split <;> exact ⟨rfl, rfl, rfl⟩
    · exact hplatforms ▸ h.1
    · have hinfo := (h.2 r hmem).1
      rcases Part.mem_modRecord ht with ⟨u, hu, hid, rfl⟩ | ⟨ht, hne⟩
      · rcases Part.dropCopy_mem hok hu with ⟨_, hi, hc⟩ | ⟨hne, _⟩
        · split
          · next hgains =>
            refine ⟨hi ▸ hinfo, fun c hc => Option.some.inj hc ▸ hi ▸ hinfo, Or.inr (Or.inr ?_)⟩
            show match u.info.platform with
              | some n => (p.dropCopy r).controlOwned n = true
              | none => (p.dropCopy r).controlOwnsAny = true
            split
            · next n hn => simpa [hn] using hgains
            · next hn => simp [hn] at hgains
          · next hbare =>
            refine ⟨hi ▸ hinfo, fun c hs => ?_, Or.inr (Or.inr ?_)⟩
            · rw [hc] at hs
              cases hs
            unfold Part.copyLaw
            rw [hc]
            intro n hn
            show (p.dropCopy r).controlOwned n = false
            simpa [hn] using hbare
        · exact absurd hid hne
      · rcases Part.dropCopy_mem hok ht with ⟨hid, _⟩ | ⟨_, u, hu, hid, hi, hc⟩
        · exact absurd hid hne
        · obtain ⟨hon, hcon, hlaw⟩ := h.2 u hu
          refine ⟨hi ▸ hon, fun c hs => hcon c (hc ▸ hs), ?_⟩
          rcases hlaw with hin | ⟨ha, c, hcopy, hnone⟩ | hlaw
          · rcases List.mem_cons.mp hin with heq | hin
            · exact absurd (hid ▸ heq) hne
            · exact Or.inl (hid ▸ hin)
          · exact Or.inr (Or.inl ⟨ha, c, hc ▸ hcopy, hnone⟩)
          · exact Or.inr (Or.inr (Part.copyLaw_of_same hplatforms hi.symm hc.symm hlaw))

/-- The copies of a list of records returned. -/
theorem Part.returnRecords_law {ids : List Nat} {absent : Bool} {p : Part} (hok : p.table.ok) (h : p.copiesBut ids absent) :
    (ids.foldl Part.returnRecord p).table.ok ∧ (ids.foldl Part.returnRecord p).copiesBut [] absent ∧
      (ids.foldl Part.returnRecord p).own.platforms = p.own.platforms := by
  induction ids generalizing p with
  | nil => exact ⟨hok, h, rfl⟩
  | cons id ids ih =>
    obtain ⟨hok', hbut, hown⟩ := Part.returnRecord_law hok h
    obtain ⟨h1, h2, h3⟩ := ih hok' hbut
    exact ⟨h1, h2, h3.trans hown⟩

theorem Part.mem_copiesOn {p : Part} {r : Record} {c : Running} (hr : r ∈ p.table.records) (hc : r.ctl = some c) :
    r.id ∈ p.copiesOn c.platform :=
  List.mem_map_of_mem (List.mem_filter.mpr ⟨hr, by simp [hc]⟩)

/-- The records of R67, and after the last platform those of R68. -/
def Part.returnedCopies (p : Part) (n : Nat) : Part :=
  let q := (p.copiesOn (some n)).foldl Part.returnRecord p
  (if q.controlOwnsAny then [] else q.copiesOn none).foldl Part.returnRecord q

theorem Part.keepsRest_returnedCopies (p : Part) (n : Nat) : p.KeepsRest (p.returnedCopies n) :=
  (Part.keepsRest_foldl _ Part.keepsRest_returnRecord _ p).trans (Part.keepsRest_foldl _ Part.keepsRest_returnRecord _ _)

/-- The copies that stay are lawful with the platform returned. -/
theorem Part.returnedCopies_tableLaw {p : Part} {n : Nat} (hok : p.table.ok)
    (h : p.copiesBut (p.copiesOn (some n)) (!p.controlOwnsAny)) : (p.returnedCopies n).tableLaw := by
  obtain ⟨hok₁, hbut₁, hown₁⟩ := Part.returnRecords_law hok h
  unfold Part.returnedCopies
  dsimp only
  generalize (p.copiesOn (some n)).foldl Part.returnRecord p = q at hok₁ hbut₁ hown₁ ⊢
  have hany : q.controlOwnsAny = p.controlOwnsAny := by
    unfold Part.controlOwnsAny
    rw [hown₁]
  split
  · next hsome =>
    rw [hany] at hsome
    rw [hsome] at hbut₁
    exact ⟨hok₁, Part.copiesBut_nil hbut₁⟩
  · have hrest : q.copiesBut (q.copiesOn none) false := by
      refine ⟨hbut₁.1, fun r hr => ?_⟩
      obtain ⟨hi, hc, hlaw⟩ := hbut₁.2 r hr
      refine ⟨hi, hc, ?_⟩
      rcases hlaw with hin | ⟨_, c, hcopy, hnone⟩ | hlaw
      · cases hin
      · exact Or.inl (hnone ▸ Part.mem_copiesOn hr hcopy)
      · exact Or.inr (Or.inr hlaw)
    obtain ⟨hok₂, hbut₂, _⟩ := Part.returnRecords_law hok₁ hrest
    exact ⟨hok₂, Part.copiesBut_nil hbut₂⟩

theorem Part.releasePlatform_eq (p : Part) (n : Nat) : ∃ purged : Bool, p.releasePlatform n =
    if purged then (p.returnedCopies n).purgeAuto else p.returnedCopies n := ⟨_, rfl⟩

/-- After a platform has been returned the law of copies holds but for the copies on it and, at the last, those without one. -/
theorem Part.copiesBut_put {p : Part} {n : Nat} (hn : 1 ≤ n ∧ n ≤ 32) (h : p.copiesOk) :
    let q : Part := { p with own := p.own.put (.platform n) 0 }
    q.copiesBut (q.copiesOn (some n)) (!q.controlOwnsAny) := by
  intro q
  obtain ⟨hlen, hall⟩ := h
  have hq : q.own.platforms = updateAt p.own.platforms (n - 1) fun _ => .information := rfl
  have howned : ∀ m, 1 ≤ m → q.controlOwned m = if m = n then false else p.controlOwned m := fun m hm =>
    controlOwned_put hlen hn hq hm
  refine ⟨(updateAt_length _ _ _).trans hlen, fun r hr => ?_⟩
  obtain ⟨hi, hc, hlaw⟩ := hall r hr
  refine ⟨hi, hc, ?_⟩
  unfold Part.copyLaw at hlaw ⊢
  cases hctl : r.ctl with
  | none =>
    rw [hctl] at hlaw
    refine Or.inr (Or.inr fun m hm => ?_)
    rw [howned m (hi m hm).1]
    split
    · rfl
    · exact hlaw m hm
  | some c =>
    rw [hctl] at hlaw
    dsimp only at hlaw ⊢
    cases hplatform : c.platform with
    | none =>
      by_cases hany : q.controlOwnsAny = true
      · exact Or.inr (Or.inr hany)
      · exact Or.inr (Or.inl ⟨by simpa using hany, c, rfl, hplatform⟩)
    | some m =>
      rw [hplatform] at hlaw
      by_cases hm : m = n
      · exact Or.inl (hm ▸ hplatform ▸ Part.mem_copiesOn (p := q) hr hctl)
      · refine Or.inr (Or.inr ?_)
        show q.controlOwned m = true
        rw [howned m (hc c hctl m hplatform).1, if_neg hm]
        exact hlaw

/-! ## ASSIGN (R61, R64) -/

theorem resourceOf_platform {code n : Nat} (h : resourceOf code = some (.platform n)) : 1 ≤ n ∧ n ≤ 32 := by
  unfold resourceOf at h
  split at h
  · cases h
  · next hne =>
    split at h
    · next hle =>
      injection h with h
      injection h with h
      rw [beq_iff_eq] at hne
      omega
    · split at h
      · injection h with h
        cases h
      · repeat' (split at h)
        all_goals simp at h

theorem Part.keeps_assignEffect {p : Part} {r : Resource} {v : Nat} (hr : ∀ n, r = .platform n → 1 ≤ n ∧ n ≤ 32)
    (hv : v ≤ 1 ∨ ∀ n, r ≠ .platform n) :
    p.Keeps (({ p with own := p.own.put r v } : Part).assignEffect r v) := by
  cases r with
  | platform n =>
    have hn := hr n rfl
    have hv : v ≤ 1 := hv.resolve_right fun h => h n rfl
    show p.Keeps (if v == 0 then Part.releasePlatform _ n else Part.seizePlatform _ n)
    refine Part.keeps_ite _ (fun h0 => ?_) fun h0 => ?_
    · rw [beq_iff_eq] at h0
      subst h0
      have hreturned : p.Keeps (({ p with own := p.own.put (.platform n) 0 } : Part).returnedCopies n) :=
        ⟨(p.keepsRest_own _).trans (Part.keepsRest_returnedCopies _ n),
          fun h => Part.returnedCopies_tableLaw h.1 (Part.copiesBut_put hn h.2)⟩
      obtain ⟨purged, h⟩ := Part.releasePlatform_eq ({ p with own := p.own.put (.platform n) 0 } : Part) n
      rw [h]
      exact Part.keeps_ite _ (fun _ => hreturned.trans (Part.keeps_purgeAuto _)) fun _ => hreturned
    · rw [beq_iff_eq] at h0
      obtain rfl : v = 1 := by omega
      exact ⟨(p.keepsRest_own _).trans (Part.keepsRest_mapRecords _ _), Part.seizePlatform_tableLaw hn⟩
  | zone n => exact p.keeps_own rfl
  | banner => exact (p.keeps_own (o := p.own.put .banner v) rfl).trans (Part.keeps_tellWall _)
  | time => exact p.keeps_own rfl
  | clockLines => exact p.keeps_own rfl
  | wall => exact (p.keeps_own (o := p.own.put .wall v) rfl).trans (Part.keeps_tellWall _)

theorem Part.keeps_assign (p : Part) (l : Link) (a : Nat × Nat) : p.KeepsAnswer (assign l a p) := by
  unfold assign
  split
  · exact .refl p
  · next r hr =>
    refine Part.keepsAnswer_ite _ (fun _ => .refl p) fun hallowed => Part.keepsAnswer_ite _ (fun _ => .refl p) fun _ =>
      Part.keepsAnswer_ite _ (fun _ => .refl p) fun _ => ?_
    have heffect : p.begin.Keeps (({ p.begin with own := p.begin.own.put r a.2 } : Part).assignEffect r a.2) := by
      refine Part.keeps_assignEffect (fun n hn => resourceOf_platform (hn ▸ hr)) ?_
      cases r with
      | platform n => exact Or.inl (by simpa [Resource.allows] using hallowed)
      | zone n => exact Or.inr (by simp)
      | banner => exact Or.inr (by simp)
      | time => exact Or.inr (by simp)
      | clockLines => exact Or.inr (by simp)
      | wall => exact Or.inr (by simp)
    exact ((p.keeps_begin.trans heffect).trans (Part.keeps_latchNat _ _ _)).trans (Part.keeps_settle _)

end Sys2Proof.Machine
end

section
/-! Rows and their fields: what clamping changes, and the rows in range (R201, R202). -/

namespace Sys2Proof.Machine

/-! ## Bytes written over a list -/

theorem overwriteFrom_getElem? {α : Type} {off : Nat} {new l : List α} (h : off + new.length ≤ l.length) (i : Nat) :
    (overwriteFrom off new l)[i]? = if off ≤ i ∧ i < off + new.length then new[i - off]? else l[i]? := by
  have htake : (l.take off).length = off := by rw [List.length_take]; omega
  unfold overwriteFrom
  by_cases hlow : i < off
  · rw [if_neg (by omega), List.append_assoc, List.getElem?_append_left (by omega), List.getElem?_take_of_lt hlow]
  · rw [List.append_assoc, List.getElem?_append_right (by omega), htake]
    by_cases hmid : i < off + new.length
    · rw [if_pos (by omega), List.getElem?_append_left (by omega)]
    · rw [if_neg (by omega), List.getElem?_append_right (by omega), List.getElem?_drop]
      congr 1
      omega

/-- Bytes written over a slice are that slice. -/
theorem slice_overwriteFrom {α : Type} {off : Nat} {new l : List α} (h : off + new.length ≤ l.length) :
    ((overwriteFrom off new l).drop off).take new.length = new := by
  refine List.ext_getElem? fun i => ?_
  rw [List.getElem?_take]
  split
  · next hi =>
    rw [List.getElem?_drop, overwriteFrom_getElem? h, if_pos (by omega)]
    congr 1
    omega
  · next hi => rw [List.getElem?_eq_none (by omega)]

/-- A slice apart from the bytes written is as it was. -/
theorem slice_overwriteFrom_other {α : Type} {off a n : Nat} {new l : List α} (h : off + new.length ≤ l.length)
    (hapart : a + n ≤ off ∨ off + new.length ≤ a) : ((overwriteFrom off new l).drop a).take n = (l.drop a).take n := by
  refine List.ext_getElem? fun i => ?_
  rw [List.getElem?_take, List.getElem?_take]
  split
  · next hi => rw [List.getElem?_drop, List.getElem?_drop, overwriteFrom_getElem? h, if_neg (by omega)]
  · rfl

theorem overwriteFrom_self {α : Type} {off n : Nat} (l : List α) (h : off + n ≤ l.length) :
    overwriteFrom off ((l.drop off).take n) l = l := by
  have hlen : ((l.drop off).take n).length = n := by rw [List.length_take, List.length_drop]; omega
  unfold overwriteFrom
  rw [hlen, List.append_assoc, ← List.drop_drop, List.take_append_drop, List.take_append_drop]

theorem be_add_mul (n v k : Nat) : be n (k * 256 ^ n + v) = be n v := by
  induction n generalizing k with
  | zero => rfl
  | succ n ih =>
    have hsplit : k * 256 ^ (n + 1) + v = k * 256 * 256 ^ n + v := by rw [Nat.pow_succ]; ring
    have hdiv : (k * 256 * 256 ^ n + v) / 256 ^ n = k * 256 + v / 256 ^ n := by
      rw [Nat.add_comm, Nat.add_mul_div_right _ _ (Nat.pow_pos (by omega)), Nat.add_comm]
    rw [be, be, hsplit, ih, hdiv]
    congr 1
    apply BitVec.eq_of_toNat_eq
    simp

theorem be_ofBe (l : List Byte) : be l.length (ofBe l) = l := by
  induction l with
  | nil => rfl
  | cons b l ih =>
    have hlt : ofBe l < 256 ^ l.length := by
      rw [← ih, ofBe_be, be_length]
      exact Nat.mod_lt _ (Nat.pow_pos (by omega))
    rw [List.length_cons, be, ofBe_cons, be_add_mul, ih, Nat.mul_comm, Nat.mul_add_div (Nat.pow_pos (by omega)),
      Nat.div_eq_of_lt hlt, Nat.add_zero, BitVec.ofNat_toNat, BitVec.setWidth_eq]

theorem ofBe_lt (l : List Byte) : ofBe l < 256 ^ l.length := by
  rw [← be_ofBe l, ofBe_be, be_length]
  exact Nat.mod_lt _ (Nat.pow_pos (by omega))

/-! ## Clamping (R201, R202) -/

/-- The value of a field of a row. -/
def Field.value (f : Field) (row : List Byte) : Nat := ofBe ((row.drop f.off).take f.size)

/-- A field lies in a row, and clamping gives a value that it can hold. -/
def Field.fits (f : Field) : Prop :=
  f.off + f.size ≤ 64 ∧
    match f.kind with
    | .range lo _ => lo < 256 ^ f.size
    | .repeatGap => f.size = 1
    | .token => True
    | .inputFlags => True

/-- Two fields have no byte in common. -/
def Field.apart (f g : Field) : Prop := f.off + f.size ≤ g.off ∨ g.off + g.size ≤ f.off

theorem Field.apart.symm {f g : Field} (h : f.apart g) : g.apart f := Or.symm h

theorem clampTwoBits_le (v : Nat) : clampTwoBits v ≤ v ∧ clampTwoBits v ≤ 2 := by
  unfold clampTwoBits
  omega

theorem Field.clampValue_lt {f : Field} (hf : f.fits) {v : Nat} (hv : v < 256 ^ f.size) : clampValue f.kind v < 256 ^ f.size := by
  obtain ⟨_, hkind⟩ := hf
  cases hk : f.kind with
  | range lo hi =>
    rw [hk] at hkind
    have hlo : lo < 256 ^ f.size := hkind
    rw [clampValue]
    omega
  | repeatGap =>
    rw [hk] at hkind
    have hsize : f.size = 1 := hkind
    rw [hsize, clampValue]
    split
    · omega
    · split <;> omega
  | token =>
    rw [clampValue]
    split <;> omega
  | inputFlags =>
    have h1 := clampTwoBits_le (v % 4)
    have h2 := clampTwoBits_le (v / 4 % 4)
    rw [clampValue]
    omega

/-- A clamped value stays as it is when it is clamped again. -/
theorem clampValue_idem (k : FieldKind) (v : Nat) : clampValue k (clampValue k v) = clampValue k v := by
  cases k with
  | range lo hi =>
    simp only [clampValue]
    omega
  | repeatGap =>
    simp only [clampValue]
    split
    · rfl
    · split
      · rfl
      · next h1 h2 =>
        rw [beq_iff_eq] at h2
        have hle : ¬min 60 v ≤ 1 := by omega
        have hne : (min 60 v == 2) = false := by rw [beq_eq_false_iff_ne]; omega
        rw [if_neg hle, hne]
        simp
  | token =>
    simp only [clampValue]
    split
    · rfl
    · rw [if_neg (by omega)]
      omega
  | inputFlags =>
    have h1 := clampTwoBits_le (v % 4)
    have h2 := clampTwoBits_le (v / 4 % 4)
    have hself : ∀ n, n ≤ 2 → clampTwoBits n = n := fun n hn => by unfold clampTwoBits; omega
    simp only [clampValue]
    generalize clampTwoBits (v % 4) = a at *
    generalize clampTwoBits (v / 4 % 4) = b at *
    have ha : (a + 4 * b + 16 * (v / 16)) % 4 = a := by omega
    have hb : (a + 4 * b + 16 * (v / 16)) / 4 % 4 = b := by omega
    have hc : (a + 4 * b + 16 * (v / 16)) / 16 = v / 16 := by omega
    rw [ha, hb, hc, hself a (by omega), hself b (by omega)]

theorem clampField_eq (row : List Byte) (f : Field) :
    clampField row f = overwriteFrom f.off (be f.size (clampValue f.kind (f.value row))) row := by
  unfold clampField overwriteFrom
  rw [be_length]
  rfl

theorem clampField_length {row : List Byte} {f : Field} (hrow : row.length = 64) (hf : f.fits) : (clampField row f).length = 64 := by
  have := hf.1
  rw [clampField_eq, overwriteFrom_length (by rw [be_length]; omega), hrow]

theorem Field.value_lt (f : Field) {row : List Byte} (hrow : row.length = 64) (hf : f.fits) : f.value row < 256 ^ f.size := by
  have h := ofBe_lt ((row.drop f.off).take f.size)
  have := hf.1
  have hlen : ((row.drop f.off).take f.size).length = f.size := by rw [List.length_take, List.length_drop]; omega
  rwa [hlen] at h

theorem Field.value_clampField {row : List Byte} {f : Field} (hrow : row.length = 64) (hf : f.fits) :
    f.value (clampField row f) = clampValue f.kind (f.value row) := by
  have := hf.1
  have hslice := slice_overwriteFrom (off := f.off) (new := be f.size (clampValue f.kind (f.value row))) (l := row)
    (by rw [be_length]; omega)
  rw [be_length] at hslice
  rw [clampField_eq]
  show ofBe (((overwriteFrom f.off (be f.size (clampValue f.kind (f.value row))) row).drop f.off).take f.size) = _
  rw [hslice, ofBe_be, Nat.mod_eq_of_lt (Field.clampValue_lt hf (f.value_lt hrow hf))]

/-- Clamping one field leaves the value of another. -/
theorem Field.value_clampField_other {row : List Byte} {f g : Field} (hrow : row.length = 64) (hg : g.fits) (h : f.apart g) :
    f.value (clampField row g) = f.value row := by
  have := hg.1
  rw [clampField_eq, Field.value, slice_overwriteFrom_other (by rw [be_length]; omega) (by rw [be_length]; exact h)]
  rfl

/-- A field in its range. -/
def Field.inRange (f : Field) (row : List Byte) : Prop := clampValue f.kind (f.value row) = f.value row

theorem clampField_of_inRange {row : List Byte} {f : Field} (hrow : row.length = 64) (hf : f.fits) (h : f.inRange row) :
    clampField row f = row := by
  have := hf.1
  have hlen : ((row.drop f.off).take f.size).length = f.size := by rw [List.length_take, List.length_drop]; omega
  have hbytes : be f.size (f.value row) = (row.drop f.off).take f.size := by
    have hb := be_ofBe ((row.drop f.off).take f.size)
    rwa [hlen] at hb
  rw [clampField_eq, h, hbytes, overwriteFrom_self row (by omega)]

/-! ## A list of fields clamped -/

theorem clampFields_length {fs : List Field} {row : List Byte} (hrow : row.length = 64) (hfs : ∀ f ∈ fs, f.fits) :
    (fs.foldl clampField row).length = 64 := by
  induction fs generalizing row with
  | nil => exact hrow
  | cons f fs ih =>
    have ⟨hf, hrest⟩ := List.forall_mem_cons.mp hfs
    exact ih (clampField_length hrow hf) hrest

theorem Field.value_clampFields_other {fs : List Field} {row : List Byte} {g : Field} (hrow : row.length = 64)
    (hfs : ∀ f ∈ fs, f.fits) (hapart : ∀ f ∈ fs, g.apart f) : g.value (fs.foldl clampField row) = g.value row := by
  induction fs generalizing row with
  | nil => rfl
  | cons f fs ih =>
    have ⟨hf, hrest⟩ := List.forall_mem_cons.mp hfs
    have ⟨hg, happ⟩ := List.forall_mem_cons.mp hapart
    rw [List.foldl_cons, ih (clampField_length hrow hf) hrest happ, Field.value_clampField_other hrow hf hg]

/-- Clamping fields that are apart clamps each of them. -/
theorem Field.value_clampFields {fs : List Field} {row : List Byte} {g : Field} (hrow : row.length = 64)
    (hfs : ∀ f ∈ fs, f.fits) (hapart : fs.Pairwise Field.apart) (hg : g ∈ fs) :
    g.value (fs.foldl clampField row) = clampValue g.kind (g.value row) := by
  induction fs generalizing row with
  | nil => cases hg
  | cons f fs ih =>
    have ⟨hf, hrest⟩ := List.forall_mem_cons.mp hfs
    have ⟨happ, hpairs⟩ := List.pairwise_cons.mp hapart
    rw [List.foldl_cons]
    rcases List.mem_cons.mp hg with rfl | hg
    · rw [Field.value_clampFields_other (clampField_length hrow hf) hrest happ, Field.value_clampField hrow hf]
    · rw [ih (clampField_length hrow hf) hrest hpairs hg, Field.value_clampField_other hrow hf (happ g hg).symm]

theorem clampFields_of_inRange {fs : List Field} {row : List Byte} (hrow : row.length = 64) (hfs : ∀ f ∈ fs, f.fits)
    (h : ∀ f ∈ fs, f.inRange row) : fs.foldl clampField row = row := by
  induction fs with
  | nil => rfl
  | cons f fs ih =>
    have ⟨hf, hrest⟩ := List.forall_mem_cons.mp hfs
    have ⟨hr, hranges⟩ := List.forall_mem_cons.mp h
    rw [List.foldl_cons, clampField_of_inRange hrow hf hr, ih hrest hranges]

/-! ## The fields of the eleven rows -/

/-- Whether a field fits, as a test. -/
def Field.fitsTest (f : Field) : Bool :=
  f.off + f.size ≤ 64 &&
    match f.kind with
    | .range lo _ => decide (lo < 256 ^ f.size)
    | .repeatGap => f.size == 1
    | .token => true
    | .inputFlags => true

theorem Field.fits_of_test {f : Field} (h : f.fitsTest = true) : f.fits := by
  unfold Field.fitsTest at h
  rw [Bool.and_eq_true, decide_eq_true_eq] at h
  refine ⟨h.1, ?_⟩
  cases hk : f.kind <;> simp_all

theorem rowFields_test : ∀ r ∈ List.range 11, ∀ f ∈ rowFields r, f.fitsTest = true := by decide +kernel

theorem rowFields_apart_test : ∀ r ∈ List.range 11, (rowFields r).Pairwise fun f g =>
    f.off + f.size ≤ g.off ∨ g.off + g.size ≤ f.off := by decide +kernel

theorem rowFields_fits (r : Nat) : ∀ f ∈ rowFields r, f.fits := by
  intro f hf
  by_cases h : r < 11
  · exact Field.fits_of_test (rowFields_test r (List.mem_range.mpr h) f hf)
  · have hnone : rowFields r = [] := by
      match r, h with
      | r + 11, _ => rfl
    rw [hnone] at hf
    cases hf

theorem rowFields_apart (r : Nat) : (rowFields r).Pairwise Field.apart := by
  by_cases h : r < 11
  · exact rowFields_apart_test r (List.mem_range.mpr h)
  · match r, h with
    | r + 11, _ => exact List.Pairwise.nil

/-- A row is in range when each of its fields is. -/
theorem rowInRange_iff {r : Nat} {row : List Byte} : rowInRange r row ↔
    row.length = 64 ∧ ∀ f ∈ rowFields r, f.inRange row := by
  constructor
  · rintro ⟨hrow, hsame⟩
    refine ⟨hrow, fun f hf => ?_⟩
    have hvalue := Field.value_clampFields hrow (rowFields_fits r) (rowFields_apart r) hf
    rw [show (rowFields r).foldl clampField row = row from hsame] at hvalue
    exact hvalue.symm
  · rintro ⟨hrow, hranges⟩
    exact ⟨hrow, clampFields_of_inRange hrow (rowFields_fits r) hranges⟩

/-- A row of 64 bytes with every field clamped is in range. -/
theorem rowInRange_clampRow (r : Nat) {row : List Byte} (hrow : row.length = 64) : rowInRange r (clampRow r row) := by
  refine rowInRange_iff.mpr ⟨clampFields_length hrow (rowFields_fits r), fun f hf => ?_⟩
  have hvalue := Field.value_clampFields hrow (rowFields_fits r) (rowFields_apart r) hf
  show clampValue f.kind (f.value (clampRow r row)) = f.value (clampRow r row)
  rw [show f.value (clampRow r row) = clampValue f.kind (f.value row) from hvalue, clampValue_idem]

/-! ## A write (R202) -/

/-- The fields of a row that a write touches. -/
def touchedFields (r off n : Nat) : List Field := (rowFields r).filter fun f => f.touched off n

theorem touchedFields_fits (r off n : Nat) : ∀ f ∈ touchedFields r off n, f.fits :=
  fun f hf => rowFields_fits r f (List.mem_filter.mp hf).1

theorem touchedFields_apart (r off n : Nat) : (touchedFields r off n).Pairwise Field.apart :=
  (rowFields_apart r).sublist List.filter_sublist

/-- A field that a write does not touch has the value it had. -/
theorem Field.value_placed_untouched {f : Field} {off : Nat} {bytes row : List Byte} (hfit : off + bytes.length ≤ row.length)
    (h : f.touched off bytes.length = false) : f.value (overwriteFrom off bytes row) = f.value row := by
  by_cases hempty : bytes.length = 0
  · have hnil : bytes = [] := List.length_eq_zero_iff.mp hempty
    have hself := overwriteFrom_self (off := off) (n := 0) row (by omega)
    rw [List.take_zero] at hself
    rw [hnil, hself]
  · rw [Field.value, slice_overwriteFrom_other hfit]
    · rfl
    · simp only [Field.touched, Bool.and_eq_false_iff, decide_eq_false_iff_not] at h
      omega

/-- The row that a write leaves, every field in range, is the placed row with every field clamped. -/
theorem clampWritten_eq {r off : Nat} {bytes row : List Byte} (hrow : rowInRange r row) (hfit : off + bytes.length ≤ 64) :
    clampWritten r off bytes.length (overwriteFrom off bytes row) = clampRow r (overwriteFrom off bytes row) ∧
      rowInRange r (clampWritten r off bytes.length (overwriteFrom off bytes row)) := by
  obtain ⟨hlen, hranges⟩ := rowInRange_iff.mp hrow
  have hplaced : (overwriteFrom off bytes row).length = 64 := (overwriteFrom_length (by omega)).trans hlen
  have hinRange : ∀ f ∈ rowFields r, f.touched off bytes.length = false → f.inRange (overwriteFrom off bytes row) := by
    intro f hf ht
    unfold Field.inRange
    rw [Field.value_placed_untouched (by omega) ht]
    exact hranges f hf
  have hskip : ∀ (fs : List Field) (l : List Byte), l.length = 64 → (∀ f ∈ fs, f.fits) → fs.Pairwise Field.apart →
      (∀ f ∈ fs, f.touched off bytes.length = false → f.inRange l) →
      (fs.filter fun f => f.touched off bytes.length).foldl clampField l = fs.foldl clampField l := by
    intro fs
    induction fs with
    | nil => exact fun _ _ _ _ _ => rfl
    | cons f fs ih =>
      intro l hl hfits hpairs hin
      have ⟨hf, hrest⟩ := List.forall_mem_cons.mp hfits
      have ⟨happ, hpairs'⟩ := List.pairwise_cons.mp hpairs
      have ⟨hinf, hinrest⟩ := List.forall_mem_cons.mp hin
      have hnext : ∀ g ∈ fs, g.touched off bytes.length = false → g.inRange (clampField l f) := by
        intro g hg ht
        unfold Field.inRange
        rw [Field.value_clampField_other hl hf (happ g hg).symm]
        exact hinrest g hg ht
      by_cases ht : f.touched off bytes.length = true
      · rw [List.filter_cons_of_pos (by exact ht), List.foldl_cons, List.foldl_cons]
        exact ih _ (clampField_length hl hf) hrest hpairs' hnext
      · rw [Bool.not_eq_true] at ht
        rw [List.filter_cons_of_neg (by rw [ht]; exact Bool.false_ne_true), List.foldl_cons,
          clampField_of_inRange hl hf (hinf ht)]
        exact ih l hl hrest hpairs' hinrest
  have hsame := hskip (rowFields r) _ hplaced (rowFields_fits r) (rowFields_apart r) hinRange
  exact ⟨hsame, (show clampWritten r off bytes.length _ = clampRow r _ from hsame) ▸ rowInRange_clampRow r hplaced⟩

end Sys2Proof.Machine
end

section
/-! The clock lines and the Settings Store keep the laws of the settings (R170 to R183, R201 to R205). -/

namespace Sys2Proof.Machine

/-! ## The law of the settings, part by part -/

/-- The working copy: eleven rows in range. -/
def Store.workingOk (st : Store) : Prop := st.working.length = 11 ∧ ∀ r, r < 11 → rowInRange r (st.working.getD r [])

/-- The stored copy: eleven rows of 64 bytes. -/
def Store.storedOk (st : Store) : Prop := st.stored.length = 11 ∧ ∀ x ∈ st.stored, x.bytes.length = 64

/-- A park write holds thirteen bytes. -/
def Store.writesOk (st : Store) : Prop := ∀ e, StoreWrite.park e ∈ st.writes → e.length = 13

theorem Part.settingsOk_iff (p : Part) : p.settingsOk ↔
    p.store.workingOk ∧ p.store.storedOk ∧ p.clocks.lines.length = 4 ∧ p.store.writesOk :=
  ⟨fun ⟨h1, h2, h3, h4, h5, h6⟩ => ⟨⟨h1, h2⟩, ⟨h3, h4⟩, h5, h6⟩, fun ⟨⟨h1, h2⟩, ⟨h3, h4⟩, h5, h6⟩ => ⟨h1, h2, h3, h4, h5, h6⟩⟩

theorem Part.keeps_modClocks (p : Part) {f : Clocks → Clocks} (h : (f p.clocks).lines.length = p.clocks.lines.length) :
    p.Keeps (p.modClocks f) :=
  p.keeps_clocks_store (f p.clocks) p.store fun hs => by
    obtain ⟨hw, hst, hl, hq⟩ := (Part.settingsOk_iff _).mp hs
    exact (Part.settingsOk_iff _).mpr ⟨hw, hst, h.trans hl, hq⟩

theorem Part.keeps_modLine (p : Part) (i : Nat) (f : ClockLine → ClockLine) : p.Keeps (p.modLine i f) :=
  p.keeps_modClocks (updateAt_length _ _ _)

theorem Part.keeps_modStore (p : Part) {f : Store → Store}
    (h : p.settingsOk → (f p.store).workingOk ∧ (f p.store).storedOk ∧ (f p.store).writesOk) : p.Keeps (p.modStore f) :=
  p.keeps_clocks_store p.clocks (f p.store) fun hs => by
    obtain ⟨_, _, hl, _⟩ := (Part.settingsOk_iff _).mp hs
    obtain ⟨hw, hst, hq⟩ := h hs
    exact (Part.settingsOk_iff _).mpr ⟨hw, hst, hl, hq⟩

/-! ## Store writes asked for (R203) -/

theorem Part.keeps_askWrite (p : Part) (w : StoreWrite) (h : p.settingsOk → ∀ e, w = .park e → e.length = 13) :
    p.Keeps (p.askWrite w) := by
  refine p.keeps_clocks_store p.clocks _ fun hs => ?_
  obtain ⟨hwork, hstored, hlines, hwrites⟩ := (Part.settingsOk_iff _).mp hs
  refine (Part.settingsOk_iff _).mpr ?_
  dsimp only
  split
  · refine ⟨hwork, hstored, hlines, fun e he => ?_⟩
    exact h hs e (List.mem_singleton.mp he).symm
  · refine ⟨hwork, hstored, hlines, fun e he => ?_⟩
    rcases List.mem_append.mp he with he | he
    · exact hwrites e he
    · exact h hs e (List.mem_singleton.mp he).symm

theorem Part.keeps_spoilRecord (p : Part) : p.Keeps p.spoilRecord := by
  refine Part.keeps_ite _ (fun _ => ?_) fun _ => .refl p
  have hnot : p.Keeps (p.modClocks fun c => { c with recordValid := false }) := p.keeps_modClocks rfl
  exact hnot.trans (Part.keeps_askWrite _ _ fun _ e he => by cases he)

/-! ## Impulses and evaluation (R172 to R176) -/

theorem Part.keeps_startImpulse (p : Part) (i : Nat) (retry : Bool) : p.Keeps (p.startImpulse i retry) :=
  (p.keeps_modLine i _).trans (Part.keeps_spoilRecord _)

theorem Part.keeps_openFault (p : Part) (i : Nat) : p.Keeps (p.openFault i) :=
  Part.keeps_ite _ (fun _ => p.keeps_modLine i _) fun _ => (p.keeps_modLine i _).trans (Part.keeps_latchNat _ _ _)

theorem Part.keeps_overloadFault (p : Part) (i : Nat) : p.Keeps (p.overloadFault i) :=
  (p.keeps_modLine i _).trans (Part.keeps_latchNat _ _ _)

theorem Part.keeps_evaluate (p : Part) (i : Nat) (boundary retry : Bool) : p.Keeps (p.evaluate i boundary retry) := by
  unfold Part.evaluate
  dsimp only
  refine Part.keeps_ite _ (fun _ => .refl p) fun _ => ?_
  have himpulse : ∀ (q : Part) (c : Prop) [Decidable c], q.Keeps (if c then q.startImpulse i retry else q) :=
    fun q c _ => Part.keeps_ite c (fun _ => q.keeps_startImpulse i retry) fun _ => .refl q
  have hlatch : ∀ (q : Part) (c : Prop) [Decidable c], q.Keeps (if c then q.latchNat .clockLineInStep (i + 1) else q) :=
    fun q c _ => Part.keeps_ite c (fun _ => q.keeps_latchNat _ _) fun _ => .refl q
  exact ((p.keeps_modLine i _).trans (himpulse _ _)).trans (hlatch _ _)

theorem Part.keeps_evaluateFree (p : Part) (i : Nat) (boundary : Bool) : p.Keeps (p.evaluateFree i boundary) :=
  Part.keeps_ite _ (fun _ => .refl p) fun _ => p.keeps_evaluate i boundary false

theorem Part.keeps_evaluateAll (p : Part) (boundary : Bool) : p.Keeps (p.evaluateAll boundary) :=
  Part.keeps_foldl _ (fun q i => q.keeps_evaluateFree i boundary) _ p

/-! ## Parking (R180) -/

theorem Clocks.parkRecord_length {c : Clocks} (h : c.lines.length = 4) : c.parkRecord.length = 13 := by
  have hentry : ∀ k : ClockLine, k.parkEntry.length = 3 := fun k => by simp [ClockLine.parkEntry]
  simp [Clocks.parkRecord, List.length_flatMap, hentry, h]

theorem Part.keeps_parkCheck (p : Part) : p.Keeps p.parkCheck := by
  unfold Part.parkCheck
  split
  · next k _ =>
    refine Part.keeps_ite _ (fun _ => ?_) fun _ => .refl p
    have hasked : p.Keeps (p.modClocks fun c => { c with park := some { k with asked := true } }) := p.keeps_modClocks rfl
    refine hasked.trans (Part.keeps_askWrite _ _ fun hs e he => ?_)
    injection he with he
    obtain ⟨_, _, hlines, _⟩ := (Part.settingsOk_iff _).mp hs
    exact he ▸ Clocks.parkRecord_length (c := p.clocks) hlines
  · exact .refl p

theorem Part.keeps_startPark (p : Part) (lines : List Nat) : p.Keeps (p.startPark lines) := by
  have hstarted : p.Keeps (p.modClocks fun c => { c with park := some { lines := lines, asked := false } }) := p.keeps_modClocks rfl
  refine (hstarted.trans (Part.keeps_foldl _ (fun q i => ?_) _ _)).trans (Part.keeps_parkCheck _)
  exact Part.keeps_ite _ (fun _ => .refl q) fun _ => q.keeps_modLine i _

/-! ## Events of an impulse -/

theorem Part.keeps_impulseOpenCheck (p : Part) (i : Nat) (flows : Bool) : p.Keeps (p.impulseOpenCheck i flows) := by
  unfold Part.impulseOpenCheck
  split
  · exact .refl p
  · refine Part.keeps_ite _ (fun _ => ?_) fun _ => .refl p
    have hread := fun t f => (p.keeps_advanceTo t).trans (Part.keeps_modLine _ i f)
    exact Part.keeps_ite _ (fun _ => hread _ _) fun _ => (hread _ _).trans (Part.keeps_openFault _ i)

theorem Part.keeps_impulseOverload (p : Part) (i : Nat) : p.Keeps (p.impulseOverload i) := by
  unfold Part.impulseOverload
  split
  · exact .refl p
  · exact Part.keeps_ite _ (fun _ => p.keeps_overloadFault i) fun _ => .refl p

theorem Part.keeps_impulseDriveEnd (p : Part) (i : Nat) : p.Keeps (p.impulseDriveEnd i) := by
  unfold Part.impulseDriveEnd
  split
  · exact .refl p
  · exact Part.keeps_ite _ (fun _ => (p.keeps_advanceTo _).trans (Part.keeps_modLine _ i _)) fun _ => .refl p

theorem Part.keeps_impulseGapEnd (p : Part) (i : Nat) : p.Keeps (p.impulseGapEnd i) := by
  unfold Part.impulseGapEnd
  split
  · exact .refl p
  · refine Part.keeps_ite _ (fun _ => .refl p) fun _ => ?_
    have hended := fun t f => (p.keeps_advanceTo t).trans (Part.keeps_modLine _ i f)
    exact Part.keeps_ite _ (fun _ => ((hended _ _).trans (Part.keeps_modLine _ i _)).trans (Part.keeps_parkCheck _))
      fun _ => (hended _ _).trans (Part.keeps_evaluate _ i false false)

theorem Part.keeps_clockRetryExpiry (p : Part) (i : Nat) : p.Keeps (p.clockRetryExpiry i) := by
  unfold Part.clockRetryExpiry
  split
  · exact .refl p
  · exact ((p.keeps_advanceTo _).trans (Part.keeps_modLine _ i _)).trans (Part.keeps_evaluate _ i false true)

/-! ## Store writes (R203) -/

theorem Store.storedRow_length {st : Store} (h : st.storedOk) {r : Nat} (hr : r < 11) : (st.storedRow r).bytes.length = 64 := by
  have hlt : r < st.stored.length := by rw [h.1]; exact hr
  rw [Store.storedRow, List.getD_eq_getElem?_getD, List.getElem?_eq_getElem hlt, Option.getD_some]
  exact h.2 _ (List.getElem_mem hlt)

/-- A stored row replaced by one of 64 bytes. -/
theorem Store.storedOk.update {st : Store} (h : st.storedOk) (r : Nat) {f : StoredRow → StoredRow}
    (hf : r < 11 → ∀ x ∈ st.stored, (f x).bytes.length = 64) : ({ st with stored := updateAt st.stored r f } : Store).storedOk := by
  refine ⟨(updateAt_length _ _ _).trans h.1, fun x hx => ?_⟩
  obtain ⟨i, hi⟩ := List.mem_iff_getElem?.mp hx
  rw [show ({ st with stored := updateAt st.stored r f } : Store).stored = updateAt st.stored r f from rfl,
    updateAt_getElem?] at hi
  split at hi
  · next hri =>
    obtain ⟨y, hy, rfl⟩ := Option.map_eq_some_iff.mp hi
    refine hf ?_ y (List.mem_of_getElem? hy)
    have := (List.getElem?_eq_some_iff.mp hy).1
    have := h.1
    omega
  · exact h.2 x (List.mem_of_getElem? hi)

/-- The bytes that a store write leaves in its row. -/
theorem Part.writtenBytes_length {p : Part} (h : p.settingsOk) {w : StoreWrite} (hw : w ∈ p.store.writes) (hr : w.row < 11) :
    (p.writtenBytes w).length = 64 := by
  obtain ⟨hwork, hstored, _, hwrites⟩ := (Part.settingsOk_iff _).mp h
  have hold := Store.storedRow_length hstored hr
  cases w with
  | save r => exact (hwork.2 r hr).1
  | park e =>
    have he := hwrites e hw
    have hold : (p.store.storedRow 10).bytes.length = 64 := hold
    show (e ++ (p.store.storedRow 10).bytes.drop e.length).length = 64
    rw [List.length_append, List.length_drop]
    omega
  | invalidate =>
    have hold : (p.store.storedRow 10).bytes.length = 64 := hold
    show (0 :: (p.store.storedRow 10).bytes.drop 1).length = 64
    rw [List.length_cons, List.length_drop]
    omega

theorem Part.keeps_performWrite {p : Part} {w : StoreWrite} (hw : w ∈ p.store.writes) : p.Keeps (p.performWrite w) := by
  unfold Part.performWrite
  dsimp only
  refine p.keeps_modStore fun hs => ?_
  obtain ⟨hwork, hstored, _, hwrites⟩ := (Part.settingsOk_iff _).mp hs
  refine ⟨hwork, ?_, fun e he => hwrites e (List.mem_of_mem_drop he)⟩
  exact hstored.update w.row fun hr _ _ => Part.writtenBytes_length hs hw hr

theorem Part.keeps_parkDone (p : Part) : p.Keeps p.parkDone := by
  unfold Part.parkDone
  split
  · have hdone : p.Keeps (p.modClocks fun c => { c with park := none, recordValid := true }) := p.keeps_modClocks rfl
    exact hdone.trans (Part.keeps_latchNat _ _ _)
  · exact .refl p

theorem Part.keeps_answerWaiting (p : Part) (l : Link) (k t : Byte) (r : Result) (b : List Byte) :
    p.Keeps (p.answerWaiting l k t r b) := Part.keeps_of_ports (p.answerWaiting_beyondPorts l k t r b)

theorem Part.keeps_reportWrite (p : Part) (w : StoreWrite) : p.Keeps (p.reportWrite w) := by
  unfold Part.reportWrite
  split
  · split
    · exact p.keeps_answerWaiting _ _ _ _ _
    · exact .refl p
  · exact p.keeps_parkDone
  · exact .refl p

theorem Part.keeps_checkRow (p : Part) (r : Nat) : p.Keeps (p.checkRow r) := by
  have hmark : p.Keeps (p.modStore fun s => { s with stored := updateAt s.stored r fun x => { x with failed := true } }) := by
    refine p.keeps_modStore fun hs => ?_
    obtain ⟨hwork, hstored, _, hwrites⟩ := (Part.settingsOk_iff _).mp hs
    exact ⟨hwork, hstored.update r fun _ x hx => hstored.2 x hx, hwrites⟩
  unfold Part.checkRow
  exact Part.keeps_ite _ (fun _ => .refl p) fun _ =>
    Part.keeps_ite _ (fun _ => hmark) fun _ => hmark.trans (Part.keeps_latchNat _ _ _)

theorem Part.keeps_checkRows (p : Part) : p.Keeps p.checkRows := Part.keeps_foldl _ Part.keeps_checkRow _ p

theorem Part.keeps_waitingCheck (p : Part) : p.Keeps p.waitingCheck := by
  unfold Part.waitingCheck
  split
  · exact Part.keeps_ite _ (fun _ => p.keeps_checkRows.trans (Part.keeps_answerWaiting _ _ _ _ _ _)) fun _ => .refl p
  · exact .refl p
  · exact .refl p
  · exact .refl p

theorem Part.keeps_writeComplete (p : Part) : p.Keeps p.writeComplete := by
  unfold Part.writeComplete
  split
  · exact .refl p
  · next w _ hw =>
    exact ((Part.keeps_performWrite (hw ▸ List.mem_cons_self)).trans (Part.keeps_reportWrite _ _)).trans (Part.keeps_waitingCheck _)

/-! ## Inputs under a change of configuration (R198, R199) -/

theorem Part.keeps_modInput (p : Part) (i : Nat) (f : WallInput → WallInput) : p.Keeps (p.modInput i f) := Part.keeps_of_bare rfl

theorem Part.keeps_actionsBegin (p : Part) (i : Nat) : p.Keeps (p.actionsBegin i) :=
  p.keeps_tellWall.trans (Part.keeps_inputStart _ i)

theorem Part.keeps_actionsEnd (p : Part) (i : Nat) : p.Keeps (p.actionsEnd i) := p.keeps_tellWall.trans (Part.keeps_inputEnd _ i)

theorem Part.keeps_qualified (p : Part) (i : Nat) : p.Keeps (p.qualified i) := by
  unfold Part.qualified
  have hmoved := fun f => (p.keeps_modInput i f).trans (Part.keeps_latchNat _ .inputChanged (i + 1))
  dsimp only
  split
  · exact Part.keeps_ite _ (fun _ => (hmoved _).trans (Part.keeps_actionsBegin _ i)) fun _ => hmoved _
  · exact Part.keeps_ite _ (fun _ => (hmoved _).trans (Part.keeps_actionsEnd _ i)) fun _ => hmoved _
  · exact .refl p
  · exact .refl p

theorem Part.keeps_qualificationExpiry (p : Part) (i : Nat) : p.Keeps (p.qualificationExpiry i) := by
  unfold Part.qualificationExpiry
  split
  · exact .refl p
  · exact (((p.keeps_advanceTo _).trans (Part.keeps_begin _)).trans (Part.keeps_qualified _ i)).trans (Part.keeps_finish _)

theorem Part.keeps_inputLevel (p : Part) (i : Nat) (asserted : Bool) : p.Keeps (p.inputLevel i asserted) := by
  refine Part.keeps_ite _ (fun _ => .refl p) fun _ => ?_
  have hlapse : p.Keeps (p.inputLapse i) := Part.keeps_ite _ (fun _ => p.keeps_qualificationExpiry i) fun _ => .refl p
  exact hlapse.trans (Part.keeps_modInput _ i _)

theorem Part.keeps_configConsequences (p : Part) (i : Nat) (w : WallInput) (old new : InputConfig) :
    p.Keeps (p.configConsequences i w old new) := by
  have htold : ∀ (q : Part) (c : Prop) [Decidable c], q.Keeps (if c then q.tellWall else q) := fun q c _ =>
    Part.keeps_ite c (fun _ => q.keeps_tellWall) fun _ => .refl q
  have hlatched : p.Keeps (if (new.mode == .off && old.mode != .off && w.isOn) = true then p.latchNat .inputChanged (i + 1) else p) :=
    Part.keeps_ite _ (fun _ => p.keeps_latchNat _ _) fun _ => .refl p
  unfold Part.configConsequences
  refine hlatched.trans ?_
  generalize (if (new.mode == .off && old.mode != .off && w.isOn) = true then p.latchNat .inputChanged (i + 1) else p) = q
  refine Part.keeps_ite _ (fun _ => .refl q) fun _ => Part.keeps_ite _ (fun _ => q.keeps_actionsEnd i) fun _ =>
    Part.keeps_ite _ (fun _ => ?_) fun _ => Part.keeps_ite _ (fun _ => ?_) fun _ => .refl q
  · exact Part.keeps_ite _ (fun _ => q.keeps_actionsBegin i) fun _ => q.keeps_tellWall
  · exact Part.keeps_ite _ (fun _ => (htold q _).trans (Part.keeps_inputEnd _ i)) fun _ =>
      Part.keeps_ite _ (fun _ => (htold q _).trans (Part.keeps_inputStart _ i)) fun _ => htold q _

theorem Part.keeps_inputsConfigured (p : Part) (rows : List (List Byte)) : p.Keeps (p.inputsConfigured rows) :=
  Part.keeps_foldl _ (fun q i => (q.keeps_modInput i _).trans (Part.keeps_configConsequences _ i _ _ _)) _ p

theorem Part.keeps_inputsReloaded (p : Part) (rows : List (List Byte)) : p.Keeps (p.inputsReloaded rows) :=
  Part.keeps_foldl _ (fun q i => q.keeps_modInput i _) _ p

theorem Part.keeps_inputRestarts (p : Part) : p.Keeps p.inputRestarts :=
  Part.keeps_foldl _ (fun q i => Part.keeps_ite _ (fun _ => q.keeps_inputStart i) fun _ => .refl q) _ p

/-! ## SETTINGS_WRITE (R202) -/

theorem Part.keeps_afterWrite (p old : Part) (r : Nat) : p.Keeps (p.afterWrite old r) := by
  have hcomputed : p.Keeps (if p.thresholds == old.thresholds then p else p.recomputeAll) :=
    Part.keeps_ite _ (fun _ => .refl p) fun _ => p.keeps_recomputeAll
  have htold : ∀ q : Part, q.Keeps (q.tellOfRow r) := fun q => Part.keeps_ite _ (fun _ => q.keeps_tellWall) fun _ => .refl q
  exact (hcomputed.trans (htold _)).trans (Part.keeps_inputsConfigured _ _)

/-- A working row replaced by one in range. -/
theorem Store.workingOk.update {st : Store} (h : st.workingOk) {r : Nat} {row : List Byte} (hrow : rowInRange r row) :
    ({ st with working := updateAt st.working r fun _ => row } : Store).workingOk := by
  refine ⟨(updateAt_length _ _ _).trans h.1, fun k hk => ?_⟩
  show rowInRange k ((updateAt st.working r fun _ => row).getD k [])
  by_cases hkr : r = k
  · subst hkr
    rw [updateAt_getD_same _ _ _ _ (by rw [h.1]; exact hk)]
    exact hrow
  · rw [updateAt_getD_other _ _ _ _ _ hkr]
    exact h.2 k hk

theorem Part.keeps_settingsWrite (p : Part) (a : Nat × Nat × List Byte) : p.KeepsAnswer (settingsWrite a p) := by
  unfold settingsWrite
  refine Part.keepsAnswer_ite _ (fun _ => .refl p) fun _ => Part.keepsAnswer_ite _ (fun _ => .refl p) fun hfits =>
    Part.keepsAnswer_ite _ (fun _ => .refl p) fun _ => ?_
  simp only [Bool.or_eq_true, not_or, decide_eq_true_eq] at hfits
  have hwritten : p.begin.Keeps (p.begin.modStore fun st =>
      { st with working := updateAt st.working a.1 fun _ => (p.rowWritten a.1 a.2.1 a.2.2).2 }) := by
    refine p.begin.keeps_modStore fun hs => ?_
    obtain ⟨hwork, hstored, _, hwrites⟩ := (Part.settingsOk_iff _).mp hs
    exact ⟨hwork.update (clampWritten_eq (hwork.2 a.1 (by omega)) (by omega)).2, hstored, hwrites⟩
  exact ((p.keeps_begin.trans hwritten).trans (Part.keeps_afterWrite _ _ _)).trans (Part.keeps_finish _)

/-! ## The rows at a reset (R201, R203) -/

theorem defaultRow_length_test : ∀ r ∈ List.range 11, (defaultRow r).length = 64 := by decide +kernel

theorem defaultRow_length {r : Nat} (h : r < 11) : (defaultRow r).length = 64 := defaultRow_length_test r (List.mem_range.mpr h)

/-- Every stored row with its number. -/
theorem Store.zip_range {st : Store} (h : st.storedOk) {xr : StoredRow × Nat} (hx : xr ∈ st.stored.zip (List.range 11)) :
    xr.1.bytes.length = 64 ∧ xr.2 < 11 := by
  obtain ⟨h1, h2⟩ := List.of_mem_zip hx
  exact ⟨h.2 _ h1, List.mem_range.mp h2⟩

theorem loadedRow_inRange {r : Nat} {x : StoredRow} (hr : r < 11) (hx : x.bytes.length = 64) : rowInRange r (loadedRow r x) := by
  refine rowInRange_clampRow r ?_
  split
  · exact defaultRow_length hr
  · exact hx

/-- A load puts every working row in range. -/
theorem Part.keeps_loadRows (p : Part) : p.Keeps p.loadRows := by
  refine p.keeps_modStore fun hs => ?_
  obtain ⟨_, hstored, _, hwrites⟩ := (Part.settingsOk_iff _).mp hs
  refine ⟨⟨?_, fun r hr => ?_⟩, hstored, hwrites⟩
  · simp [hstored.1]
  · have hlt : r < p.store.stored.length := by rw [hstored.1]; exact hr
    have hrow : ((p.store.stored.zip (List.range 11)).map fun xr => loadedRow xr.2 xr.1).getD r [] =
        loadedRow r p.store.stored[r] := by
      simp [List.getD_eq_getElem?_getD, hlt, hr]
    show rowInRange r (((p.store.stored.zip (List.range 11)).map fun xr => loadedRow xr.2 xr.1).getD r [])
    rw [hrow]
    exact loadedRow_inRange hr (hstored.2 _ (List.getElem_mem hlt))

theorem freeRow_length (k : Nat) (x : StoredRow) : (freeRow k x).bytes.length = 64 := by simp [freeRow]

theorem Part.keeps_free (p : Part) (n : Nat) : p.Keeps { p with free := n } := Part.keeps_of_bare rfl

theorem Part.keeps_tearWrite (p : Part) : p.Keeps p.tearWrite := by
  unfold Part.tearWrite
  split
  · exact .refl p
  · next w _ _ =>
    have htorn : p.Keeps (p.modStore fun st => { st with stored := updateAt st.stored w.row (tornRow p.free), writes := [] }) := by
      refine p.keeps_modStore fun hs => ?_
      obtain ⟨hwork, hstored, _, _⟩ := (Part.settingsOk_iff _).mp hs
      exact ⟨hwork, hstored.update w.row fun _ x _ => freeRow_length _ x, fun _ he => by cases he⟩
    exact htorn.trans (Part.keeps_free _ _)

/-- Stored rows mapped to rows of 64 bytes. -/
theorem Part.keeps_decayRows (p : Part) : p.Keeps p.decayRows := by
  refine Part.keeps_ite _ (fun _ => ?_) fun _ => .refl p
  have hdecayed : p.Keeps (p.modStore fun st =>
      { st with stored := (st.stored.zip (List.range 11)).map fun xr => decayRow p.free xr.2 xr.1 }) := by
    refine p.keeps_modStore fun hs => ?_
    obtain ⟨hwork, hstored, _, hwrites⟩ := (Part.settingsOk_iff _).mp hs
    refine ⟨hwork, ⟨by simp [hstored.1], fun x hx => ?_⟩, hwrites⟩
    obtain ⟨xr, hxr, rfl⟩ := List.mem_map.mp hx
    show (decayRow p.free xr.2 xr.1).bytes.length = 64
    unfold decayRow
    split
    · exact freeRow_length _ _
    · exact (Store.zip_range hstored hxr).1
  exact hdecayed.trans (Part.keeps_free _ _)

theorem Part.keeps_startUpCheck (p : Part) : p.Keeps p.startUpCheck := by
  refine p.keeps_modStore fun hs => ?_
  obtain ⟨hwork, hstored, _, hwrites⟩ := (Part.settingsOk_iff _).mp hs
  refine ⟨hwork, ⟨by simp [hstored.1], fun x hx => ?_⟩, hwrites⟩
  obtain ⟨y, hy, rfl⟩ := List.mem_map.mp hx
  exact hstored.2 y hy

theorem Part.keeps_softWrites (p : Part) : p.Keeps p.softWrites := by
  unfold Part.softWrites
  split
  · exact .refl p
  · next w _ hw =>
    refine (Part.keeps_performWrite (hw ▸ List.mem_cons_self)).trans (Part.keeps_modStore _ fun hs => ?_)
    obtain ⟨hwork, hstored, _, _⟩ := (Part.settingsOk_iff _).mp hs
    exact ⟨hwork, hstored, fun _ he => by cases he⟩

theorem Part.keeps_latchFailed (p : Part) : p.Keeps p.latchFailed :=
  Part.keeps_foldl _ (fun q _ => Part.keeps_ite _ (fun _ => q.keeps_latchNat _ _) fun _ => .refl q) _ p

/-! ## The clock lines at a reset (R181 to R183) -/

theorem Part.keeps_freshClocks (p : Part) : p.Keeps p.freshClocks := by
  refine p.keeps_clocks_store _ p.store fun hs => ?_
  obtain ⟨hwork, hstored, _, hwrites⟩ := (Part.settingsOk_iff _).mp hs
  exact (Part.settingsOk_iff _).mpr ⟨hwork, hstored, by simp, hwrites⟩

theorem Part.keeps_keptClocks (p : Part) : p.Keeps p.keptClocks := by
  have hkept : p.Keeps (p.modClocks fun c => { c with
      lines := c.lines.map fun k => if k.state == .parked then { k with state := .stopped } else k
      park := none }) := p.keeps_modClocks (List.length_map _)
  have hread : ∀ q : Part, q.Keeps q.readRecord := fun q => q.keeps_modClocks rfl
  exact (hkept.trans (hread _)).trans (Part.keeps_evaluateAll _ _)

end Sys2Proof.Machine
end

section
/-! The Panel Chain Controller keeps the law of the spare (R124 to R136). -/

namespace Sys2Proof.Machine

/-! ## The law in two halves -/

/-- The law's part about addresses: thirteen panels, twelve positions at most, no poll to address 0. -/
def Chain.frameLaw (c : Chain) : Prop :=
  c.panels.length = 13 ∧ c.positions ≤ 12 ∧ (∀ q, c.poll = some q → 1 ≤ q.frame.address) ∧ ∀ a ∈ c.cycleRest, 1 ≤ a

/-- A position that the spare may cover: in use with its own panel FAULTED. -/
def Chain.mayCover (c : Chain) (n : Nat) : Prop := c.inUse n = true ∧ (c.panel n).isFaulted = true

theorem Chain.spareLaw_iff (c : Chain) : c.spareLaw ↔ c.frameLaw ∧
    (∀ n, c.duty = .engaged n → c.mayCover n ∧ (c.panel 13).isUp = true) ∧ ∀ n, c.mode = .pinned n → c.mayCover n :=
  ⟨fun ⟨h1, h2, h3, h4, h5, h6⟩ => ⟨⟨h1, h2, h3, h4⟩, fun n hn => ⟨⟨(h5 n hn).1, (h5 n hn).2.1⟩, (h5 n hn).2.2⟩, h6⟩,
    fun ⟨⟨h1, h2, h3, h4⟩, h5, h6⟩ => ⟨h1, h2, h3, h4, fun n hn => ⟨(h5 n hn).1.1, (h5 n hn).1.2, (h5 n hn).2⟩, h6⟩⟩

theorem Chain.mayCover.range {c : Chain} {n : Nat} (h : c.mayCover n) (hc : c.frameLaw) : 1 ≤ n ∧ n ≤ 12 := by
  have hin := h.1
  simp only [Chain.inUse, Bool.and_eq_true, decide_eq_true_eq] at hin
  have := hc.2.1
  omega

/-- The addresses are those of `c`, and no poll goes elsewhere. -/
structure Chain.SameFrame (c d : Chain) : Prop where
  positions : d.positions = c.positions
  length : d.panels.length = c.panels.length
  poll : ∀ q, d.poll = some q → ∃ r, c.poll = some r ∧ q.frame = r.frame
  rest : ∀ a ∈ d.cycleRest, a ∈ c.cycleRest

theorem Chain.SameFrame.refl (c : Chain) : c.SameFrame c := ⟨rfl, rfl, fun q hq => ⟨q, hq, rfl⟩, fun _ h => h⟩

theorem Chain.SameFrame.trans {c d e : Chain} (h₁ : c.SameFrame d) (h₂ : d.SameFrame e) : c.SameFrame e := by
  refine ⟨h₂.positions.trans h₁.positions, h₂.length.trans h₁.length, fun q hq => ?_, fun a ha => h₁.rest a (h₂.rest a ha)⟩
  obtain ⟨r, hr, hqr⟩ := h₂.poll q hq
  obtain ⟨t, ht, hrt⟩ := h₁.poll r hr
  exact ⟨t, ht, hqr.trans hrt⟩

theorem Chain.SameFrame.law {c d : Chain} (h : c.SameFrame d) (hc : c.frameLaw) : d.frameLaw := by
  obtain ⟨hlen, hpos, hpoll, hrest⟩ := hc
  refine ⟨h.length.trans hlen, h.positions ▸ hpos, fun q hq => ?_, fun a ha => hrest a (h.rest a ha)⟩
  obtain ⟨r, hr, hqr⟩ := h.poll q hq
  exact hqr ▸ hpoll r hr

theorem Chain.SameFrame.mayCover {c d : Chain} (h : c.SameFrame d) {n : Nat} (hn : c.mayCover n)
    (hs : (c.panel n).isFaulted = true → (d.panel n).isFaulted = true) : d.mayCover n := by
  refine ⟨?_, hs hn.2⟩
  have := hn.1
  unfold Chain.inUse at this ⊢
  rwa [h.positions]

theorem Panel.isFaulted_of_state {a b : Panel} (h : a.state = b.state) : a.isFaulted = b.isFaulted := by
  unfold Panel.isFaulted
  rw [h]

theorem Panel.isUp_of_state {a b : Panel} (h : a.state = b.state) : a.isUp = b.isUp := by
  unfold Panel.isUp
  rw [h]

theorem Panel.not_isFaulted_of_isUp {n : Panel} (h : n.isUp = true) : n.isFaulted = false := by
  unfold Panel.isUp at h
  unfold Panel.isFaulted
  split
  · next why hw => simp [hw] at h
  · rfl

/-! ## A panel record changed -/

theorem Part.modPanel_frame (p : Part) (a : Nat) (f : Panel → Panel) : p.chain.SameFrame (p.modPanel a f).chain :=
  ⟨rfl, updateAt_length _ _ _, fun q hq => ⟨q, hq, rfl⟩, fun _ h => h⟩

theorem Part.modPanel_other (p : Part) {a n : Nat} (f : Panel → Panel) (ha : 1 ≤ a) (hn : 1 ≤ n) (h : n ≠ a) :
    (p.modPanel a f).chain.panel n = p.chain.panel n := updateAt_getD_other _ _ _ _ _ (by omega)

theorem Part.modPanel_same (p : Part) {a : Nat} (f : Panel → Panel) (ha : 1 ≤ a) (hlen : a ≤ p.chain.panels.length) :
    (p.modPanel a f).chain.panel a = f (p.chain.panel a) := updateAt_getD_same _ _ _ _ (by omega)

/-- Outside the panels there is nothing to change. -/
theorem Part.modPanel_beyond (p : Part) {a : Nat} (f : Panel → Panel) (hlen : p.chain.panels.length < a) (n : Nat) :
    (p.modPanel a f).chain.panel n = p.chain.panel n := by
  show (updateAt p.chain.panels (a - 1) f).getD (n - 1) resetPanel = p.chain.panels.getD (n - 1) resetPanel
  rw [List.getD_eq_getElem?_getD, List.getD_eq_getElem?_getD, updateAt_getElem?]
  split
  · next h => rw [List.getElem?_eq_none (by omega)]; rfl
  · rfl

/-- A change of a panel record that keeps its state keeps every state. -/
theorem Part.modPanel_state (p : Part) (a : Nat) (f : Panel → Panel) (hf : ∀ n, (f n).state = n.state) (n : Nat) :
    ((p.modPanel a f).chain.panel n).state = (p.chain.panel n).state := by
  show ((updateAt p.chain.panels (a - 1) f).getD (n - 1) resetPanel).state = _
  unfold Chain.panel
  rw [List.getD_eq_getElem?_getD, List.getD_eq_getElem?_getD, updateAt_getElem?]
  split
  · cases p.chain.panels[n - 1]? with
    | none => rfl
    | some k => exact hf k
  · rfl

/-- The states of the panels from address 1 on are those of `c`. -/
def Chain.SameStates (c d : Chain) : Prop := ∀ n, (d.panel n).state = (c.panel n).state

theorem Chain.spareLaw_of_same {c d : Chain} (hf : c.SameFrame d) (hs : c.SameStates d) (hd : d.duty = c.duty)
    (hm : ∀ n, d.mode = .pinned n → c.mode = .pinned n) (h : c.spareLaw) : d.spareLaw := by
  obtain ⟨hframe, hduty, hmode⟩ := (Chain.spareLaw_iff _).mp h
  refine (Chain.spareLaw_iff _).mpr ⟨hf.law hframe, fun n hn => ?_, fun n hn => ?_⟩
  · obtain ⟨hc, hup⟩ := hduty n (hd ▸ hn)
    exact ⟨hf.mayCover hc fun hx => Panel.isFaulted_of_state (hs n) ▸ hx, Panel.isUp_of_state (hs 13) ▸ hup⟩
  · exact hf.mayCover (hmode n (hm n hn)) fun hx => Panel.isFaulted_of_state (hs n) ▸ hx

theorem Part.spareLaw_modPanel {p : Part} (h : p.chain.spareLaw) (a : Nat) {f : Panel → Panel} (hf : ∀ n, (f n).state = n.state) :
    (p.modPanel a f).chain.spareLaw :=
  Chain.spareLaw_of_same (p.modPanel_frame a f) (p.modPanel_state a f hf) rfl (fun _ => id) h

/-! ## The duty of the spare (R132, R133) -/

theorem Chain.sameFrame_supersede (c : Chain) (sel : Nat → Bool) : c.SameFrame (c.supersede sel) := by
  refine ⟨rfl, rfl, fun q hq => ?_, fun _ h => h⟩
  obtain ⟨r, hr, rfl⟩ := Option.map_eq_some_iff.mp hq
  exact ⟨r, hr, rfl⟩

/-- What setting the duty can do: the duty is set or none is fitted, and the states and addresses stay. -/
theorem Part.setDuty_chain (p : Part) (d : Duty) : p.chain.SameFrame (p.setDuty d).chain ∧ p.chain.SameStates (p.setDuty d).chain ∧
    (p.setDuty d).chain.mode = p.chain.mode ∧ ((p.setDuty d).chain.duty = d ∨ (p.setDuty d).chain.duty = .notFitted) := by
  unfold Part.setDuty
  split
  · next h =>
    refine ⟨.refl _, fun _ => rfl, rfl, ?_⟩
    simpa using h
  · have hset : p.chain.SameFrame (p.modChain fun c => { c.supersede (· == 13) with duty := d, clearDue := true }).chain := by
      have := p.chain.sameFrame_supersede (· == 13)
      exact ⟨this.positions, this.length, this.poll, this.rest⟩
    exact ⟨hset.trans (Part.modPanel_frame _ 13 _), fun n => Part.modPanel_state _ 13 (fun k => { k with ack := 0, refresh := true }) (fun _ => rfl) n, rfl, Or.inl rfl⟩

theorem Part.setDuty_spareLaw {p : Part} {d : Duty} (hframe : p.chain.frameLaw)
    (hduty : ∀ n, d = .engaged n → p.chain.mayCover n ∧ (p.chain.panel 13).isUp = true)
    (hmode : ∀ n, p.chain.mode = .pinned n → p.chain.mayCover n) : (p.setDuty d).chain.spareLaw := by
  obtain ⟨hf, hs, hm, hd⟩ := p.setDuty_chain d
  refine (Chain.spareLaw_iff _).mpr ⟨hf.law hframe, fun n hn => ?_, fun n hn => ?_⟩
  · have hn : d = .engaged n := by
      rcases hd with hd | hd
      · exact hd ▸ hn
      · rw [hd] at hn
        cases hn
    obtain ⟨hc, hup⟩ := hduty n hn
    exact ⟨hf.mayCover hc fun hx => Panel.isFaulted_of_state (hs n) ▸ hx, Panel.isUp_of_state (hs 13) ▸ hup⟩
  · exact hf.mayCover (hmode n (hm ▸ hn)) fun hx => Panel.isFaulted_of_state (hs n) ▸ hx

/-- The spare's choice is a position that it may cover, made while the spare is up (R132). -/
theorem Part.spareChoice_law {p : Part} {n : Nat} (h : p.spareChoice = some n) :
    p.chain.mayCover n ∧ (p.chain.panel 13).isUp = true := by
  unfold Part.spareChoice at h
  split at h
  · cases h
  · next hup =>
    have hmem := foldl_pick_mem (fun b a => by cases b <;> dsimp only <;> (try split) <;> simp) h
    obtain ⟨hin, hfault⟩ := List.mem_filter.mp hmem
    refine ⟨⟨?_, hfault⟩, by simpa using hup⟩
    have := mem_numbersFrom.mp hin
    simp only [Chain.inUse, Bool.and_eq_true, decide_eq_true_eq]
    omega

theorem Part.chooseSpare_spareLaw {p : Part} (h : p.chain.spareLaw) : p.chooseSpare.chain.spareLaw := by
  obtain ⟨hframe, hduty, hmode⟩ := (Chain.spareLaw_iff _).mp h
  unfold Part.chooseSpare
  split
  · refine Part.setDuty_spareLaw hframe (fun n hn => ?_) hmode
    split at hn
    · next k hk =>
      injection hn with hn
      exact hn ▸ Part.spareChoice_law hk
    · cases hn
  · exact h

/-! ## Entries to FAULTED, ACTIVE and WARM (R128, R129) -/

theorem Part.enterFault_spareLaw {p : Part} (h : p.chain.spareLaw) {a : Nat} (ha : 1 ≤ a) (why : FaultReason) :
    (p.enterFault a why).chain.spareLaw := by
  obtain ⟨hframe, hduty, hmode⟩ := (Chain.spareLaw_iff _).mp h
  let f : Panel → Panel := fun n => { n with state := .faulted why, misses := 0, recovery := 0, ack := 0, refresh := true }
  let q := (p.modPanel a f).latchNat .panelFault a
  have hf : p.chain.SameFrame q.chain := p.modPanel_frame a f
  have hmore : ∀ n, 1 ≤ n → (p.chain.panel n).isFaulted = true → (q.chain.panel n).isFaulted = true := by
    intro n hn hfault
    show ((p.modPanel a f).chain.panel n).isFaulted = true
    by_cases hna : n = a
    · subst hna
      by_cases hlen : n ≤ p.chain.panels.length
      · rw [p.modPanel_same f ha hlen]
        rfl
      · rwa [p.modPanel_beyond f (by omega)]
    · rwa [p.modPanel_other f ha hn hna]
  have hcover : ∀ n, p.chain.mayCover n → q.chain.mayCover n := fun n hn =>
    hf.mayCover hn (hmore n (hn.range hframe).1)
  have hmode' : ∀ n, q.chain.mode = .pinned n → q.chain.mayCover n := fun n hn => hcover n (hmode n hn)
  refine Part.chooseSpare_spareLaw (p := if a == 13 then q.setDuty .standby else q) ?_
  split
  · exact Part.setDuty_spareLaw (hf.law hframe) (fun n hn => by cases hn) hmode'
  · next hne =>
    refine (Chain.spareLaw_iff _).mpr ⟨hf.law hframe, fun n hn => ?_, hmode'⟩
    obtain ⟨hc, hup⟩ := hduty n hn
    refine ⟨hcover n hc, ?_⟩
    show ((p.modPanel a f).chain.panel 13).isUp = true
    rwa [p.modPanel_other f ha (by omega) (by simpa using Ne.symm (by simpa using hne : a ≠ 13))]

/-- A state that is up. -/
def PanelState.up (st : PanelState) : Prop := st = .active ∨ st = .warm

theorem Panel.isUp_of_up {n : Panel} (h : n.state.up) : n.isUp = true := by
  rcases h with h | h <;> simp [Panel.isUp, h]

theorem Part.enterUp_spareLaw {p : Part} (h : p.chain.spareLaw) {a : Nat} (ha : 1 ≤ a) {st : PanelState} (hst : st.up)
    (hnot : (p.chain.panel a).isFaulted = false) : (p.enterUp a st).chain.spareLaw := by
  obtain ⟨hframe, hduty, hmode⟩ := (Chain.spareLaw_iff _).mp h
  let f : Panel → Panel := fun n => { n with state := st }
  have hf := p.modPanel_frame a f
  have hcover : ∀ n, p.chain.mayCover n → (p.modPanel a f).chain.mayCover n := by
    intro n hn
    refine hf.mayCover hn fun hfault => ?_
    rw [p.modPanel_other f ha (hn.range hframe).1]
    · exact hfault
    · rintro rfl
      rw [hnot] at hfault
      cases hfault
  have hlaw : (p.modPanel a f).chain.spareLaw := by
    refine (Chain.spareLaw_iff _).mpr ⟨hf.law hframe, fun n hn => ?_, fun n hn => hcover n (hmode n hn)⟩
    obtain ⟨hc, hup⟩ := hduty n hn
    refine ⟨hcover n hc, ?_⟩
    by_cases h13 : 13 = a
    · rw [← h13, p.modPanel_same f (by omega) (by rw [hframe.1])]
      exact Panel.isUp_of_up hst
    · rwa [p.modPanel_other f ha (by omega) h13]
  have hlatched : (if st == .warm then (p.modPanel a f).latchNat .thermalWarning a else p.modPanel a f).chain.spareLaw := by
    split
    · exact hlaw
    · exact hlaw
  unfold Part.enterUp
  dsimp only
  split
  · exact Part.chooseSpare_spareLaw hlatched
  · exact hlatched

theorem Part.judge_spareLaw {p : Part} (h : p.chain.spareLaw) {a : Nat} (ha : 1 ≤ a)
    (hnot : (p.chain.panel a).isFaulted = false) (temp : Int) (driver : Bool) : (p.judge a temp driver).chain.spareLaw := by
  have hwarm := Part.enterUp_spareLaw h ha (Or.inr rfl : PanelState.warm.up) hnot
  have hactive := Part.enterUp_spareLaw h ha (Or.inl rfl : PanelState.active.up) hnot
  unfold Part.judge
  dsimp only
  split
  · exact Part.enterFault_spareLaw h ha _
  · split
    · exact Part.enterFault_spareLaw h ha _
    · split
      · split
        · exact h
        · exact hwarm
      · split
        · split
          · exact hactive
          · exact h
        · split
          · exact h
          · exact hactive

/-! ## Recovery (R130, R131, R136) -/

/-- The panel at `a` has come up, and nothing else has changed that the law reads. -/
structure Chain.Raised (c d : Chain) (a : Nat) : Prop where
  frame : c.SameFrame d
  duty : d.duty = c.duty
  mode : d.mode = c.mode
  others : ∀ n, 1 ≤ n → n ≠ a → (d.panel n).state = (c.panel n).state
  up : (d.panel a).isUp = true

/-- A recovered panel is judged from ACTIVE: it stays or becomes WARM. -/
theorem Part.raised_judge {p : Part} {a : Nat} {temp : Int} (ha : 1 ≤ a) (hlen : a ≤ p.chain.panels.length) (htemp : temp < 85)
    (hactive : (p.chain.panel a).state = .active) : p.chain.Raised (p.judge a temp false).chain a := by
  have hstay : p.chain.Raised p.chain a := ⟨.refl _, rfl, rfl, fun _ _ _ => rfl, Panel.isUp_of_up (Or.inl hactive)⟩
  unfold Part.judge
  dsimp only
  rw [if_neg (by omega), if_neg Bool.false_ne_true, hactive]
  split
  · have hwarm : (if (PanelState.active == PanelState.warm) = true then p else p.enterUp a .warm) =
        (p.modPanel a fun n => { n with state := .warm }).latchNat .thermalWarning a := by
      unfold Part.enterUp
      simp [hactive]
    rw [hwarm]
    refine ⟨p.modPanel_frame a _, rfl, rfl, fun n hn hne => ?_, ?_⟩
    · show ((p.modPanel a _).chain.panel n).state = _
      rw [p.modPanel_other _ ha hn hne]
    · show ((p.modPanel a _).chain.panel a).isUp = true
      rw [p.modPanel_same _ ha hlen]
      rfl
  · split
    · exact hstay
    · exact hstay

theorem Part.leaveRecovered_spareLaw {p q : Part} {a : Nat} (hr : p.chain.Raised q.chain a) (h : p.chain.spareLaw) (ha : 1 ≤ a)
    (h13 : a ≠ 13) : (q.leaveRecovered a).chain.spareLaw := by
  obtain ⟨hframe, hduty, hmode⟩ := (Chain.spareLaw_iff _).mp h
  have hqframe := hr.frame.law hframe
  have hcover : ∀ n, n ≠ a → p.chain.mayCover n → q.chain.mayCover n := fun n hne hn =>
    hr.frame.mayCover hn fun hx => Panel.isFaulted_of_state (hr.others n (hn.range hframe).1 hne) ▸ hx
  have hup : (q.chain.panel 13).isUp = (p.chain.panel 13).isUp := Panel.isUp_of_state (hr.others 13 (by omega) (Ne.symm h13))
  let t := if q.chain.duty == .engaged a then q.setDuty .standby else q
  have ht : q.chain.SameFrame t.chain ∧ q.chain.SameStates t.chain ∧ t.chain.mode = q.chain.mode ∧
      ∀ n, t.chain.duty = .engaged n → q.chain.duty = .engaged n ∧ n ≠ a := by
    dsimp only [t]
    split
    · obtain ⟨hf, hs, hm, hd⟩ := q.setDuty_chain .standby
      refine ⟨hf, hs, hm, fun n hn => ?_⟩
      rcases hd with hd | hd <;> rw [hd] at hn <;> cases hn
    · next hne =>
      refine ⟨.refl _, fun _ => rfl, rfl, fun n hn => ⟨hn, ?_⟩⟩
      rintro rfl
      exact hne (beq_iff_eq.mpr hn)
  obtain ⟨hf, hs, hm, hd⟩ := ht
  have hdutyT : ∀ n, t.chain.duty = .engaged n → t.chain.mayCover n ∧ (t.chain.panel 13).isUp = true := by
    intro n hn
    obtain ⟨hq, hne⟩ := hd n hn
    obtain ⟨hc, hu⟩ := hduty n (hr.duty ▸ hq)
    exact ⟨hf.mayCover (hcover n hne hc) fun hx => Panel.isFaulted_of_state (hs n) ▸ hx,
      (Panel.isUp_of_state (hs 13)).trans (hup.trans hu)⟩
  show (if t.chain.mode == .pinned a then t.modChain fun c => { c with mode := .automatic } else t).chain.spareLaw
  split
  · exact (Chain.spareLaw_iff _).mpr ⟨hf.law hqframe, hdutyT, fun n hn => by cases hn⟩
  · next hne =>
    refine (Chain.spareLaw_iff _).mpr ⟨hf.law hqframe, hdutyT, fun n hn => ?_⟩
    have hna : n ≠ a := by
      rintro rfl
      exact hne (beq_iff_eq.mpr hn)
    have hp : p.chain.mode = .pinned n := hr.mode ▸ hm ▸ hn
    exact hf.mayCover (hcover n hna (hmode n hp)) fun hx => Panel.isFaulted_of_state (hs n) ▸ hx

theorem Part.repin_spareLaw {p q : Part} (hr : p.chain.Raised q.chain 13) (h : p.chain.spareLaw)
    (hfault : (p.chain.panel 13).isFaulted = true) : q.repin.chain.spareLaw := by
  obtain ⟨hframe, hduty, hmode⟩ := (Chain.spareLaw_iff _).mp h
  have hqframe := hr.frame.law hframe
  have hqmode : ∀ n, q.chain.mode = .pinned n → q.chain.mayCover n := by
    intro n hn
    have hc := hmode n (hr.mode ▸ hn)
    have hrange := hc.range hframe
    exact hr.frame.mayCover hc fun hx => Panel.isFaulted_of_state (hr.others n hrange.1 (by omega)) ▸ hx
  have hidle : ∀ n, q.chain.duty ≠ .engaged n := by
    intro n hn
    have hup := (hduty n (hr.duty ▸ hn)).2
    rw [Panel.not_isFaulted_of_isUp hup] at hfault
    cases hfault
  have hq : q.chain.spareLaw := (Chain.spareLaw_iff _).mpr ⟨hqframe, fun n hn => absurd hn (hidle n), hqmode⟩
  unfold Part.repin
  split
  · next n hn =>
    refine Part.setDuty_spareLaw hqframe (fun k hk => ?_) hqmode
    injection hk with hk
    exact ⟨hk ▸ hqmode n hn, hr.up⟩
  · exact hq
  · exact hq

theorem Part.panel_length_of_faulted {c : Chain} {a : Nat} (h : (c.panel a).isFaulted = true) : a - 1 < c.panels.length := by
  by_contra hlen
  unfold Chain.panel at h
  rw [List.getD_eq_getElem?_getD, List.getElem?_eq_none (by omega)] at h
  cases h

theorem Part.recover_spareLaw {p : Part} (h : p.chain.spareLaw) {a : Nat} (ha : 1 ≤ a) {temp : Int} (htemp : temp < 85)
    (hfault : (p.chain.panel a).isFaulted = true) : (p.recover a temp).chain.spareLaw := by
  have hlen := Part.panel_length_of_faulted hfault
  let f : Panel → Panel := fun n => { n with state := .active, misses := 0, refresh := true }
  let q := (p.modPanel a f).latchNat .panelRecovered a
  have hactive : (q.chain.panel a).state = .active := by
    show ((p.modPanel a f).chain.panel a).state = _
    rw [p.modPanel_same f ha (by omega)]
  have hqlen : a ≤ q.chain.panels.length := by
    show a ≤ (updateAt p.chain.panels (a - 1) f).length
    rw [updateAt_length]
    omega
  have hjudged := Part.raised_judge ha hqlen htemp hactive
  have hraised : p.chain.Raised (q.judge a temp false).chain a := by
    refine ⟨(p.modPanel_frame a f).trans hjudged.frame, hjudged.duty, hjudged.mode, fun n hn hne => ?_, hjudged.up⟩
    rw [hjudged.others n hn hne]
    show ((p.modPanel a f).chain.panel n).state = _
    rw [p.modPanel_other f ha hn hne]
  refine Part.chooseSpare_spareLaw (p := if a == 13 then (q.judge a temp false).repin else (q.judge a temp false).leaveRecovered a) ?_
  split
  · next h13 =>
    obtain rfl := beq_iff_eq.mp h13
    exact Part.repin_spareLaw hraised h hfault
  · next h13 => exact Part.leaveRecovered_spareLaw hraised h ha (by simpa using h13)

/-! ## Replies and misses (R126, R130) -/

/-- A FAULTED panel given another reason. -/
theorem Part.refault_spareLaw {p : Part} (h : p.chain.spareLaw) {a : Nat} (ha : 1 ≤ a) (hfault : (p.chain.panel a).isFaulted = true)
    (w : FaultReason) : (p.modPanel a fun n => { n with state := .faulted w, recovery := 0 }).chain.spareLaw := by
  obtain ⟨hframe, hduty, hmode⟩ := (Chain.spareLaw_iff _).mp h
  have hlen := Part.panel_length_of_faulted hfault
  let f : Panel → Panel := fun n => { n with state := .faulted w, recovery := 0 }
  have hf := p.modPanel_frame a f
  have hcover : ∀ n, p.chain.mayCover n → (p.modPanel a f).chain.mayCover n := by
    intro n hn
    refine hf.mayCover hn fun hx => ?_
    by_cases hna : n = a
    · rw [hna, p.modPanel_same f ha (by omega)]
      rfl
    · rwa [p.modPanel_other f ha (hn.range hframe).1 hna]
  refine (Chain.spareLaw_iff _).mpr ⟨hf.law hframe, fun n hn => ?_, fun n hn => hcover n (hmode n hn)⟩
  obtain ⟨hc, hup⟩ := hduty n hn
  refine ⟨hcover n hc, ?_⟩
  have h13 : 13 ≠ a := by
    rintro rfl
    rw [Panel.not_isFaulted_of_isUp hup] at hfault
    cases hfault
  rwa [p.modPanel_other f ha (by omega) h13]

theorem Part.faultedReply_spareLaw {p : Part} (h : p.chain.spareLaw) {a : Nat} (ha : 1 ≤ a)
    (hfault : (p.chain.panel a).isFaulted = true) (why : FaultReason) (temp : Int) (driver : Bool) :
    (p.faultedReply a why temp driver).chain.spareLaw := by
  have hcount : ∀ k, (p.setRecovery a k).chain.spareLaw := fun k => Part.spareLaw_modPanel h a fun _ => rfl
  unfold Part.faultedReply
  dsimp only
  split
  · exact Part.refault_spareLaw h ha hfault _
  · next htemp =>
    split
    · exact Part.refault_spareLaw h ha hfault _
    · split
      · exact hcount 0
      · split
        · refine Part.recover_spareLaw (hcount _) ha (by omega) ?_
          exact (Panel.isFaulted_of_state (p.modPanel_state a (fun n => { n with recovery := (p.chain.panel a).recovery + 1 }) (fun _ => rfl) a)).trans hfault
        · exact hcount _

theorem Panel.isFaulted_of_faulted {n : Panel} {why : FaultReason} (h : n.state = .faulted why) : n.isFaulted = true := by
  rw [Panel.isFaulted, h]

theorem Part.goodReply_spareLaw {p : Part} (h : p.chain.spareLaw) {poll : Poll} (ha : 1 ≤ poll.frame.address) (temp : Int)
    (driver : Bool) : (p.goodReply poll temp driver).chain.spareLaw := by
  have hheard : (p.modPanel poll.frame.address fun n => n.heard poll temp driver).chain.spareLaw :=
    Part.spareLaw_modPanel h _ fun _ => rfl
  unfold Part.goodReply
  dsimp only
  generalize (p.modPanel poll.frame.address fun n => n.heard poll temp driver) = q at hheard ⊢
  have hjudge : (q.chain.panel poll.frame.address).isFaulted = false →
      ((q.modPanel poll.frame.address fun n => { n with misses := 0 }).judge poll.frame.address temp driver).chain.spareLaw :=
    fun hnot => by
      have hstate := q.modPanel_state poll.frame.address (fun n => { n with misses := 0 }) (fun _ => rfl) poll.frame.address
      refine Part.judge_spareLaw ?_ ha ((Panel.isFaulted_of_state hstate).trans hnot) temp driver
      exact Part.spareLaw_modPanel hheard _ fun _ => rfl
  split
  · next why hw => exact Part.faultedReply_spareLaw hheard ha (Panel.isFaulted_of_faulted hw) why temp driver
  · next hw => exact hjudge (by rw [Panel.isFaulted, hw])
  · next hw => exact hjudge (by rw [Panel.isFaulted, hw])
  · next hw => exact hjudge (by rw [Panel.isFaulted, hw])

theorem Part.badReply_spareLaw {p : Part} (h : p.chain.spareLaw) {a : Nat} (ha : 1 ≤ a) : (p.badReply a).chain.spareLaw := by
  have hpending : (p.modPanel a fun n => { n with refresh := true }).chain.spareLaw := Part.spareLaw_modPanel h a fun _ => rfl
  unfold Part.badReply
  dsimp only
  generalize (p.modPanel a fun n => { n with refresh := true }) = q at hpending ⊢
  have hmissed : ∀ k, (if 3 ≤ k then q.enterFault a .silent else q.modPanel a fun n => { n with misses := k }).chain.spareLaw := by
    intro k
    split
    · exact Part.enterFault_spareLaw hpending ha _
    · exact Part.spareLaw_modPanel hpending a fun _ => rfl
  split
  · exact Part.spareLaw_modPanel hpending a fun _ => rfl
  · exact hmissed _
  · exact hmissed _
  · exact hmissed _

end Sys2Proof.Machine
end

section
/-! The commands of the chain, the Timebase, the Cue Scheduler, the notices and the links keep every law. -/

namespace Sys2Proof.Machine

/-! ## The chain (R124 to R143) -/

/-- A change of the chain that leaves what the law of the spare reads. -/
theorem Part.keeps_modChain_same (p : Part) {f : Chain → Chain} (hp : (f p.chain).positions = p.chain.positions)
    (hn : (f p.chain).panels = p.chain.panels) (hd : (f p.chain).duty = p.chain.duty) (hm : (f p.chain).mode = p.chain.mode)
    (hq : (f p.chain).poll = p.chain.poll ∨ (f p.chain).poll = none)
    (hr : (f p.chain).cycleRest = p.chain.cycleRest ∨ (f p.chain).cycleRest = []) : p.Keeps (p.modChain f) := by
  refine p.keeps_chain _ fun _ h => Chain.spareLaw_of_same ⟨hp, by rw [hn], fun q hq' => ?_, fun a ha => ?_⟩ (fun n => ?_) hd
    (fun n hx => hm ▸ hx) h
  · rcases hq with hq | hq
    · exact ⟨q, hq ▸ hq', rfl⟩
    · rw [hq] at hq'
      cases hq'
  · rcases hr with hr | hr
    · exact hr ▸ ha
    · rw [hr] at ha
      cases ha
  · unfold Chain.panel
    rw [hn]

theorem Part.keeps_modTest (p : Part) (f : LinkTest → LinkTest) : p.Keeps (p.modTest f) :=
  p.keeps_modChain_same rfl rfl rfl rfl (Or.inl rfl) (Or.inl rfl)

theorem Part.keeps_testCommand (p : Part) (b : Bool) : p.Keeps (p.testCommand b) :=
  Part.keeps_of_chain rfl fun _ ⟨h1, h2, h3, h4, h5, h6⟩ => ⟨h1, h2, h3, h4, h5, h6⟩

/-- A poll of an address from 1 on. -/
theorem Part.sendPoll_spareLaw {p : Part} (h : p.chain.spareLaw) {a : Nat} {rest : List Nat} (ha : 1 ≤ a)
    (hrest : ∀ b ∈ rest, 1 ≤ b) : (p.sendPoll a rest).chain.spareLaw := by
  obtain ⟨hlen, hpos, _, _, hduty, hmode⟩ := h
  exact ⟨hlen, hpos, fun q hq => Option.some.inj hq ▸ ha, hrest, hduty, hmode⟩

theorem Part.keeps_sendPoll (p : Part) {a : Nat} {rest : List Nat} (h : ∀ b ∈ a :: rest, 1 ≤ b) : p.Keeps (p.sendPoll a rest) :=
  have ⟨ha, hrest⟩ := List.forall_mem_cons.mp h
  Part.keeps_of_chain rfl fun _ hs => Part.sendPoll_spareLaw hs ha hrest

theorem Chain.polled_ge {c : Chain} {a : Nat} (h : a ∈ c.polled) : 1 ≤ a := by
  rcases List.mem_append.mp h with h | h
  · exact (mem_numbersFrom.mp h).1
  · split at h
    · rw [List.mem_singleton.mp h]
      omega
    · cases h

theorem Part.keeps_startCycle (p : Part) : p.Keeps p.startCycle := by
  refine Part.keeps_ite _ (fun _ => .refl p) fun _ => ?_
  have hat := p.keeps_advanceTo p.chain.nextCycleAt
  have hnext : (p.advanceTo p.chain.nextCycleAt).Keeps ((p.advanceTo p.chain.nextCycleAt).modChain fun c =>
      { c with nextCycleAt := (p.advanceTo p.chain.nextCycleAt).elapsed + 250 }) :=
    Part.keeps_modChain_same _ rfl rfl rfl rfl (Or.inl rfl) (Or.inl rfl)
  dsimp only
  split
  · next hpolled => exact (hat.trans hnext).trans (Part.keeps_sendPoll _ fun b hb => Chain.polled_ge (hpolled ▸ hb))
  · exact hat.trans hnext

theorem Part.keeps_nextPoll (p : Part) : p.Keeps p.nextPoll := by
  unfold Part.nextPoll
  split
  · next a rest hcycle =>
    refine Part.keeps_of_chain rfl fun _ h => ?_
    have hall := h.2.2.2.1
    rw [hcycle] at hall
    have ⟨ha, hrest⟩ := List.forall_mem_cons.mp hall
    exact Part.sendPoll_spareLaw h ha hrest
  · exact .refl p

/-- The end of a poll, when what processes it changes the chain alone and keeps the law of the spare. -/
theorem Part.keeps_endPoll (p : Part) {f : Poll → Part → Part} (hframe : ∀ poll q, (f poll q).beyondChain = q.beyondChain)
    (hlaw : ∀ poll (q : Part), 1 ≤ poll.frame.address → q.chain.spareLaw → (f poll q).chain.spareLaw) : p.Keeps (p.endPoll f) := by
  unfold Part.endPoll
  split
  · exact .refl p
  · next poll hpoll =>
    have hover : p.Keeps (p.modChain fun c => { c with poll := none }) :=
      p.keeps_modChain_same rfl rfl rfl rfl (Or.inr rfl) (Or.inl rfl)
    dsimp only
    split
    · have hdone : p.begin.Keeps (f poll (p.modChain fun c => { c with poll := none }).begin) := by
        refine Part.keeps_of_chain (hframe poll _) fun hs h => hlaw poll _ (h.2.2.1 poll hpoll) ?_
        exact hover.spare hs h
      exact ((p.keeps_begin.trans hdone).trans (Part.keeps_nextPoll _)).trans (Part.keeps_finish _)
    · exact hover.trans (Part.keeps_modChain_same _ rfl rfl rfl rfl (Or.inl rfl) (Or.inl rfl))
    · exact hover

theorem Part.keeps_panelReply (p : Part) (r : PanelReplyFrame) : p.Keeps (p.panelReply r) := by
  refine p.keeps_endPoll (fun poll q => ?_) fun poll q ha h => ?_
  · split
    · exact q.goodReply_beyondChain _ _ _
    · exact q.badReply_beyondChain _
  · split
    · exact Part.goodReply_spareLaw h ha _ _
    · exact Part.badReply_spareLaw h ha

theorem Part.keeps_panelMiss (p : Part) : p.Keeps p.panelMiss :=
  p.keeps_endPoll (fun _ q => q.badReply_beyondChain _) fun _ _ ha h => Part.badReply_spareLaw h ha

theorem Part.keeps_chooseSpare (p : Part) : p.Keeps p.chooseSpare :=
  Part.keeps_of_chain p.chooseSpare_beyondChain fun _ h => Part.chooseSpare_spareLaw h

/-- A PANEL_SPARE that passes the checks of R135. -/
theorem Part.keeps_spareAction (p : Part) {l : Link} {action position : Nat} (h : p.spareBarred l action position = none) :
    p.Keeps (p.spareAction action position) := by
  have hpin : action = 0 → p.chain.mayCover position ∧ (p.chain.panel 13).isUp = true := by
    rintro rfl
    unfold Part.spareBarred at h
    dsimp only at h
    repeat' (split at h)
    all_goals try cases h
    next hfault hup =>
      simp only [Bool.and_eq_true, Bool.or_eq_true, Bool.not_eq_true', beq_self_eq_true, true_and, not_or,
        Bool.not_eq_false] at hfault hup
      exact ⟨⟨hfault.1, hfault.2⟩, hup⟩
  unfold Part.spareAction
  refine Part.keeps_ite _ (fun h0 => ?_) fun _ => Part.keeps_ite _ (fun _ => ?_) fun _ => ?_
  · obtain ⟨hcover, hup⟩ := hpin (beq_iff_eq.mp h0)
    refine Part.keeps_of_chain (Part.setDuty_beyondChain _ _) fun _ hs => ?_
    obtain ⟨hframe, hduty, _⟩ := (Chain.spareLaw_iff _).mp hs
    refine Part.setDuty_spareLaw (p := p.modChain fun c => { c with mode := .pinned position }) hframe (fun n hn => ?_) fun n hn => ?_
    · injection hn with hn
      exact hn ▸ ⟨hcover, hup⟩
    · have hn : SpareMode.pinned position = .pinned n := hn
      injection hn with hn
      exact hn ▸ hcover
  · refine Part.keeps_of_chain (Part.setDuty_beyondChain _ _) fun _ hs => ?_
    obtain ⟨hframe, _, _⟩ := (Chain.spareLaw_iff _).mp hs
    exact Part.setDuty_spareLaw (p := p.modChain fun c => { c with mode := .released }) hframe (fun n hn => by cases hn)
      fun n hn => by cases hn
  · refine Part.Keeps.trans (q := p.modChain fun c => { c with mode := .automatic }) ?_ (Part.keeps_chooseSpare _)
    refine p.keeps_chain _ fun _ hs => ?_
    obtain ⟨hframe, hduty, _⟩ := (Chain.spareLaw_iff _).mp hs
    exact (Chain.spareLaw_iff _).mpr ⟨hframe, hduty, fun n hn => by cases hn⟩

theorem Part.keeps_panelSpare (p : Part) (l : Link) (a : Nat × Nat) : p.KeepsAnswer (panelSpare l a p) := by
  unfold panelSpare
  split
  · exact .refl p
  · next h =>
    have hbegin : p.begin.spareBarred l a.1 a.2 = none := h
    exact (p.keeps_begin.trans (Part.keeps_spareAction _ hbegin)).trans (Part.keeps_finish _)

/-! ## The link test (R138 to R142) -/

theorem Part.keeps_acceptTest (p : Part) (m : TestMode) (n : Nat) : p.Keeps (p.acceptTest m n) :=
  p.keeps_modChain_same rfl rfl rfl rfl (Or.inl rfl) (Or.inr rfl)

theorem Part.keeps_linkTestBegin (p : Part) : p.Keeps p.linkTestBegin := by
  unfold Part.linkTestBegin
  split
  · have hsent : p.Keeps (if p.chain.test.isEcho then p.testCommand true else p) :=
      Part.keeps_ite _ (fun _ => p.keeps_testCommand true) fun _ => .refl p
    exact hsent.trans (Part.keeps_modTest _ _)
  · exact .refl p

theorem Chain.panel_map_state (c : Chain) {f : Panel → Panel} (hf : ∀ n, (f n).state = n.state) (n : Nat) :
    (({ c with panels := c.panels.map f } : Chain).panel n).state = (c.panel n).state := by
  unfold Chain.panel
  rw [List.getD_eq_getElem?_getD, List.getD_eq_getElem?_getD, List.getElem?_map]
  cases c.panels[n - 1]? with
  | none => rfl
  | some k => exact hf k

theorem Part.keeps_endTest (p : Part) (how : TestEnd) : p.Keeps (p.endTest how) := by
  have hsent : p.Keeps (if p.chain.test.isSending && p.chain.test.isEcho then p.testCommand false else p) :=
    Part.keeps_ite _ (fun _ => p.keeps_testCommand false) fun _ => .refl p
  have hanew : ∀ q : Part, q.Keeps (q.modChain fun c =>
      { c.supersede (fun _ => true) with
        panels := c.panels.map fun n => { n with ack := 0, refresh := true }
        cycleRest := []
        nextCycleAt := q.elapsed }) := by
    intro q
    refine q.keeps_chain _ fun _ h => Chain.spareLaw_of_same (c := q.chain) ⟨rfl, List.length_map _,
      (q.chain.sameFrame_supersede fun _ => true).poll, fun a ha => by cases ha⟩ (fun n => ?_) rfl (fun _ => id) h
    exact q.chain.panel_map_state (f := fun n => { n with ack := 0, refresh := true }) (fun _ => rfl) n
  exact (((hsent.trans (Part.keeps_modTest _ _)).trans (hanew _)).trans (Part.keeps_chooseSpare _)).trans (Part.keeps_latchNat _ _ _)

theorem Part.keeps_wallTest (p : Part) (l : Link) (a : Nat × Nat × Nat) : p.KeepsAnswer (wallTest l a p) := by
  refine Part.keepsAnswer_ite _ (fun _ => .refl p) fun _ => ?_
  unfold Part.wallTestAction
  dsimp only
  split
  · split
    · exact .refl p
    · exact Part.keepsAnswer_ite _ (fun _ => .refl p) fun _ => Part.keepsAnswer_ite _ (fun _ => .refl p) fun _ => p.keeps_acceptTest _ _
  · exact Part.keepsAnswer_ite _ (fun _ => (p.keeps_begin.trans (Part.keeps_endTest _ _)).trans (Part.keeps_finish _)) fun _ => .refl p
  · exact Part.keepsAnswer_ite _ (fun _ => p.keeps_modTest _) fun _ => .refl p
  · exact .refl p

theorem Part.keeps_testDurationEnd (p : Part) : p.Keeps p.testDurationEnd := by
  unfold Part.testDurationEnd
  split
  · exact (((p.keeps_advanceTo _).trans (Part.keeps_begin _)).trans (Part.keeps_endTest _ _)).trans (Part.keeps_finish _)
  · exact .refl p
  · exact .refl p

theorem Part.keeps_patternBit (p : Part) : p.Keeps p.patternBit := Part.keeps_ite _ (fun _ => p.keeps_modTest _) fun _ => .refl p

theorem Part.keeps_detectorSeed (p : Part) (bits : BitVec 11) : p.Keeps (p.detectorSeed bits) :=
  Part.keeps_ite _ (fun _ => p.keeps_modTest _) fun _ => .refl p

theorem Part.keeps_judgeWindow (p : Part) (locked : Bool) (errors : Nat) : p.Keeps (p.judgeWindow locked errors) := by
  have hnext := p.keeps_modTest fun t => { t with window := { bits := 0, errors := 0 } }
  refine Part.keeps_ite _ (fun _ => Part.keeps_ite _ (fun _ => hnext) fun _ => ?_) fun _ => Part.keeps_ite _ (fun _ => ?_) fun _ => ?_
  · exact (hnext.trans (Part.keeps_modTest _ _)).trans (Part.keeps_latchNat _ _ _)
  · exact (hnext.trans (Part.keeps_modTest _ _)).trans (Part.keeps_latchNat _ _ _)
  · exact hnext.trans (Part.keeps_modTest _ _)

theorem Part.keeps_comparedBit (p : Part) (b : Bool) : p.Keeps (p.comparedBit b) := by
  unfold Part.comparedBit
  split
  · next g _ _ _ =>
    have hcompared := p.keeps_modTest fun t => t.compareBit g b
    exact Part.keeps_ite _ (fun _ => hcompared) fun _ => hcompared.trans (Part.keeps_judgeWindow _ _ _)
  · exact .refl p

theorem Part.keeps_detectorWindow (p : Part) (bits : List Bool) : p.Keeps (p.detectorWindow bits) :=
  Part.keeps_ite _ (fun _ => Part.keeps_foldl _ Part.keeps_comparedBit _ p) fun _ => .refl p

theorem Part.keeps_chainResetComplete (p : Part) : p.Keeps p.chainResetComplete := by
  unfold Part.chainResetComplete
  split
  · have hdone : p.Keeps (p.modChain fun c => { c with reset := .complete, nextCycleAt := p.elapsed }) :=
      p.keeps_modChain_same rfl rfl rfl rfl (Or.inl rfl) (Or.inl rfl)
    exact hdone.trans (Part.keeps_startCycle _)
  · exact .refl p
  · exact .refl p

/-! ## The Timebase (R1 to R17) -/

theorem Part.keeps_modTime (p : Part) {f : Timebase → Timebase} (h : p.time.second < 86400 → (f p.time).second < 86400) :
    p.Keeps (p.modTime f) := p.keeps_time _ h

theorem Part.keeps_modTime_same (p : Part) {f : Timebase → Timebase} (h : (f p.time).second = p.time.second) :
    p.Keeps (p.modTime f) := p.keeps_modTime fun hs => h.symm ▸ hs

theorem Timebase.setTo_second (t : Timebase) (secs ms : Nat) : (t.setTo secs ms).second = secs % 86400 := by
  unfold Timebase.setTo
  dsimp only
  split <;> rfl

theorem Part.keeps_times (f : Part → Part) (h : ∀ p : Part, p.Keeps (f p)) (n : Nat) (p : Part) : p.Keeps (times n f p) :=
  times_invariant (p.Keeps ·) f (fun q hq => hq.trans (h q)) n p (.refl p)

theorem Part.keeps_stepTime (p : Part) (secs ms : Nat) : p.Keeps (p.stepTime secs ms) := by
  have hset : p.Keeps (p.modTime (·.setTo secs ms)) := p.keeps_modTime fun _ => by
    rw [Timebase.setTo_second]
    exact Nat.mod_lt _ (by omega)
  have hrolled : ∀ n, p.Keeps (times n Part.rollover (p.modTime (·.setTo secs ms))) := fun n =>
    hset.trans (Part.keeps_times _ Part.keeps_rollover n _)
  have hend : ∀ q : Part, q.Keeps ((q.retireCheck fun _ => true).evaluateAll false).tellWall := fun q =>
    ((q.keeps_retireCheck _).trans (Part.keeps_evaluateAll _ _)).trans (Part.keeps_tellWall _)
  exact ((hrolled _).trans (hend _)).trans (Part.keeps_latch _ _ _)

theorem Timebase.tick_second {t : Timebase} (h : t.second < 86400) : t.tick.second < 86400 := by
  show (if t.second == 86399 then 0 else t.second + 1) < 86400
  split
  · omega
  · next hne =>
    rw [beq_iff_eq] at hne
    omega

theorem Part.keeps_secondBoundary (p : Part) : p.Keeps p.secondBoundary := by
  have hrolled : ∀ (c : Prop) [Decidable c], p.Keeps (if c then p.rollover else p) := fun c _ =>
    Part.keeps_ite c (fun _ => p.keeps_rollover) fun _ => .refl p
  have htold : ∀ q : Part, q.Keeps (q.retireCheck fun _ => true).tellWall := fun q =>
    (q.keeps_retireCheck _).trans (Part.keeps_tellWall _)
  have hlines : ∀ q : Part, q.Keeps (if q.time.second % 60 == 0 then q.evaluateAll true else q) := fun q =>
    Part.keeps_ite _ (fun _ => q.keeps_evaluateAll true) fun _ => .refl q
  exact ((hrolled _).trans (htold _)).trans (hlines _)

theorem Part.keeps_rangeEnd (p : Part) : p.Keeps p.rangeEnd := by
  have hinvalid : p.Keeps (p.modTime fun t => { t with valid := false, serviceDay := none }) := p.keeps_modTime_same rfl
  exact (hinvalid.trans (Part.keeps_tellWall _)).trans (Part.keeps_evaluateAll _ _)

theorem Part.keeps_stationSecond (p : Part) : p.Keeps p.stationSecond := by
  have hticked : ∀ t, p.Keeps (((p.advanceTo t).modTime Timebase.tick).begin) := fun t =>
    ((p.keeps_advanceTo t).trans (Part.keeps_modTime _ Timebase.tick_second)).trans (Part.keeps_begin _)
  unfold Part.stationSecond
  refine Part.keeps_ite _ (fun _ => ?_) fun _ => Part.keeps_ite _ (fun _ => ?_) fun _ => ?_
  · exact ((hticked _).trans (Part.keeps_rangeEnd _)).trans (Part.keeps_finish _)
  · exact ((hticked _).trans (Part.keeps_secondBoundary _)).trans (Part.keeps_finish _)
  · exact (hticked _).trans (Part.keeps_finish _)

theorem Part.keeps_owedSeconds (p : Part) : p.Keeps p.owedSeconds :=
  Part.keeps_times _ (fun q => Part.keeps_ite _ (fun _ => q.keeps_stationSecond) fun _ => .refl q) _ p

@[simp] theorem Timebase.discardRun_second (t : Timebase) : t.discardRun.second = t.second := by
  unfold Timebase.discardRun
  split <;> rfl

@[simp] theorem Timebase.joinRun_second (t : Timebase) (n : Nat) (run : List Int) (o : Int) : (t.joinRun n run o).second = t.second := by
  unfold Timebase.joinRun
  split <;> rfl

theorem Part.keeps_correct (p : Part) (a : Nat) (o : Int) : p.Keeps (p.correct a o) :=
  Part.keeps_ite _ (fun _ => p.keeps_stepTime _ _) fun _ =>
    Part.keeps_ite _ (fun _ => p.keeps_modTime_same rfl) fun _ => p.keeps_stepTime _ _

/-- The state of the reference replaced. -/
theorem Part.keeps_setRef (p : Part) (r : RefState) : p.Keeps (p.modTime fun t => { t with ref := r }) := p.keeps_modTime_same rfl

theorem Part.keeps_lockedOffset (p : Part) (n : Nat) (run : List Int) (a : Nat) (o : Int) : p.Keeps (p.lockedOffset n run a o) := by
  have hjoined : p.Keeps (p.modTime fun t => t.joinRun n run o) := p.keeps_modTime_same (Timebase.joinRun_second _ _ _ _)
  unfold Part.lockedOffset
  refine Part.keeps_ite _ (fun _ => (p.keeps_setRef _).trans (Part.keeps_stepTime _ _ _)) fun _ => Part.keeps_ite _ (fun _ => ?_) fun _ => ?_
  · exact p.keeps_modTime_same (Timebase.discardRun_second p.time)
  · dsimp only
    split
    · exact (hjoined.trans (Part.keeps_setRef _ _)).trans (Part.keeps_stepTime _ _ _)
    · exact hjoined

theorem Part.keeps_enterHoldover (p : Part) : p.Keeps p.enterHoldover := by
  have hheld : p.Keeps (p.modTime fun t => { t.discardRun with ref := .holdover p.elapsed }) :=
    p.keeps_modTime_same (Timebase.discardRun_second p.time)
  exact hheld.trans (Part.keeps_latchNat _ _ _)

theorem Part.keeps_countStep (p : Part) (ok : Bool) : p.Keeps (p.countStep ok) := by
  unfold Part.countStep
  split
  · exact Part.keeps_ite _ (fun _ => p.keeps_setRef _) fun _ => Part.keeps_ite _ (fun _ => p.keeps_enterHoldover) fun _ => p.keeps_setRef _
  · exact .refl p

theorem Part.keeps_refAdvance (p : Part) (ok : Bool) (a : Nat) (o : Int) : p.Keeps (p.refAdvance ok a o) := by
  unfold Part.refAdvance
  split
  · exact p.keeps_setRef _
  · exact p.keeps_setRef _
  · refine Part.keeps_ite _ (fun _ => p.keeps_setRef _) fun _ => Part.keeps_ite _ (fun _ => p.keeps_setRef _) fun _ => ?_
    exact ((p.keeps_setRef _).trans (Part.keeps_correct _ _ _)).trans (Part.keeps_latchNat _ _ _)
  · exact (p.keeps_lockedOffset _ _ _ _).trans (Part.keeps_countStep _ _)

theorem Part.keeps_referenceTimeout (p : Part) : p.Keeps p.referenceTimeout := by
  unfold Part.referenceTimeout
  split
  · exact (p.keeps_advanceTo _).trans (Part.keeps_enterHoldover _)
  · exact .refl p

theorem Part.keeps_referenceLapse (p : Part) : p.Keeps p.referenceLapse := by
  unfold Part.referenceLapse
  split
  · exact Part.keeps_ite _ (fun _ => p.keeps_referenceTimeout) fun _ => .refl p
  · exact .refl p

theorem Part.keeps_telegram (p : Part) (bytes : List Byte) : p.Keeps (p.telegram bytes) := by
  have hended : ∀ q : Part, q.Keeps ((q.advanceTo (q.elapsed + telegramGap)).owedSeconds) := fun q =>
    (q.keeps_advanceTo _).trans (Part.keeps_owedSeconds _)
  unfold Part.telegram
  dsimp only
  split
  · exact p.keeps_owedSeconds.trans (hended _)
  · have hcaptured := (p.keeps_referenceLapse.trans (Part.keeps_owedSeconds _)).trans (hended _)
    exact (((hcaptured.trans (Part.keeps_begin _)).trans (Part.keeps_modTime_same _ rfl)).trans (Part.keeps_refAdvance _ _ _ _)).trans
      (Part.keeps_finish _)

theorem Part.keeps_holdoverExpiry (p : Part) : p.Keeps p.holdoverExpiry := by
  unfold Part.holdoverExpiry
  split
  · exact (p.keeps_advanceTo _).trans (Part.keeps_setRef _ _)
  · exact .refl p

theorem Part.keeps_timeSet (p : Part) (l : Link) (a : Nat × Nat × Nat × Nat × Bool) : p.KeepsAnswer (timeSet l a p) := by
  refine Part.keepsAnswer_ite _ (fun _ => .refl p) fun _ => ?_
  split
  · exact .refl p
  · refine Part.keepsAnswer_ite _ (fun _ => .refl p) fun _ => Part.keepsAnswer_ite _ (fun _ => .refl p) fun _ => ?_
    have hdiscarded : ∀ q : Part, q.Keeps (q.modTime Timebase.discardRun) := fun q =>
      q.keeps_modTime_same (Timebase.discardRun_second _)
    exact (((p.keeps_owedSeconds.trans (Part.keeps_begin _)).trans (hdiscarded _)).trans (Part.keeps_stepTime _ _ _)).trans
      (Part.keeps_finish _)

theorem Part.keeps_timebaseSelect (p : Part) (l : Link) (tag : Byte) : p.KeepsAnswer (timebaseSelect l tag p) := by
  refine Part.keepsAnswer_ite _ (fun _ => .refl p) fun _ => ?_
  split
  · exact .refl p
  · exact Part.keepsAnswer_ite _ (fun _ => .refl p) fun _ => .refl p

theorem Part.keeps_answerEdge (p : Part) (l : Link) (r : Result) : p.Keeps (p.answerEdge l r) := by
  unfold Part.answerEdge
  split
  · exact p.keeps_answerWaiting _ _ _ _ _
  · exact .refl p

theorem Part.keeps_oscillatorGap (p : Part) : p.Keeps p.oscillatorGap := by
  have hderived : p.Keeps (p.modTime fun t => { t with edgesSince := none, source := .derived }) := p.keeps_modTime_same rfl
  have hlatched : ∀ (q : Part) (c : Prop) [Decidable c], q.Keeps (if c then q.latchNat .oscillatorSwitched 1 else q) := fun q c _ =>
    Part.keeps_ite c (fun _ => q.keeps_latchNat _ _) fun _ => .refl q
  exact ((hderived.trans (hlatched _ _)).trans (Part.keeps_answerEdge _ _ _)).trans (Part.keeps_answerEdge _ _ _)

theorem Part.keeps_oscillatorEdge (p : Part) : p.Keeps p.oscillatorEdge := by
  have hgap : p.Keeps (if p.edgeOverdue then p.oscillatorGap else p) :=
    Part.keeps_ite _ (fun _ => p.keeps_oscillatorGap) fun _ => .refl p
  have hruns : ∀ q : Part, q.Keeps (q.modTime fun t => { t with edgesSince := some (t.edgesSince.getD q.elapsed) }) := fun q =>
    q.keeps_modTime_same rfl
  have hswitch : ∀ q : Part, q.Keeps (((((q.modTime fun t => { t with source := .oscillator }).latchNat .oscillatorSwitched 0).answerEdge
      .information .ok).answerEdge .control .ok)) := fun q =>
    (((q.keeps_modTime_same rfl).trans (Part.keeps_latchNat _ _ _)).trans (Part.keeps_answerEdge _ _ _)).trans (Part.keeps_answerEdge _ _ _)
  unfold Part.oscillatorEdge
  exact Part.keeps_ite _ (fun _ => (hgap.trans (hruns _)).trans (hswitch _)) fun _ => hgap.trans (hruns _)

/-! ## The Cue Scheduler (R152 to R169) -/

theorem readCuePost_zones {b : List Byte} {a : Nat × List Nat × Option Nat × List Nat} (h : readCuePost b = some a) :
    ∀ z ∈ a.2.1, 1 ≤ z ∧ z ≤ 8 := by
  unfold readCuePost at h
  simp only [Option.bind_eq_bind, Option.bind_eq_some_iff, Option.some.injEq] at h
  obtain ⟨_, _, ⟨z, _⟩, _, _, _, _, _, _, _, _, _, rfl⟩ := h
  exact fun z hz => zonesOfByte_range hz

theorem Part.keeps_cuePost (p : Part) (l : Link) {a : Nat × List Nat × Option Nat × List Nat} (hzones : ∀ z ∈ a.2.1, 1 ≤ z ∧ z ≤ 8) :
    p.KeepsAnswer (cuePost l a p) := by
  unfold cuePost
  split
  · exact .refl p
  · refine Part.keepsAnswer_ite _ (fun _ => .refl p) fun _ => ?_
    dsimp only
    refine Part.keepsAnswer_ite _ (fun _ => .refl p) fun _ => ?_
    split
    · exact .refl p
    · exact .refl p
    · refine (p.keeps_begin.trans (Part.keeps_place _ _ fun z hz => ?_)).trans (Part.keeps_finish _)
      exact hzones z (List.mem_filter.mp hz).1

theorem Part.keeps_cueCancel (p : Part) (l : Link) (id : Nat) : p.KeepsAnswer (cueCancel l id p) := by
  unfold cueCancel
  split
  · exact .refl p
  · refine Part.keepsAnswer_ite _ (fun _ => .refl p) fun _ => Part.keepsAnswer_ite _ (fun _ => ?_) fun _ => ?_
    · exact (p.keeps_begin.trans (Part.keeps_freeCue _ _)).trans (Part.keeps_finish _)
    · exact (p.keeps_begin.trans (Part.keeps_cancelFlight _ _)).trans (Part.keeps_finish _)

theorem Part.keeps_cueAgeOut (p : Part) (id : Nat) : p.Keeps (p.cueAgeOut id) := by
  unfold Part.cueAgeOut
  split
  · exact .refl p
  · exact (((p.keeps_advanceTo _).trans (Part.keeps_begin _)).trans (Part.keeps_dropCue _ _)).trans (Part.keeps_finish _)

theorem Part.keeps_acceptWaitExpiry (p : Part) (id : Nat) : p.Keeps (p.acceptWaitExpiry id) := by
  unfold Part.acceptWaitExpiry
  split
  · exact ((((p.keeps_advanceTo _).trans (Part.keeps_begin _)).trans (Part.keeps_failCue _ _)).trans (Part.keeps_bumpSilence _)).trans
      (Part.keeps_finish _)
  · exact .refl p

theorem Part.keeps_setOutcome (p : Part) (id : Nat) (sel : Nat → Bool) (o : ZoneOutcome) :
    p.Keeps (p.modCues (·.modCue id (·.setOutcome sel o))) := p.keeps_modCue id fun c => c.key_setOutcome sel o

theorem Part.keeps_endedWaitExpiry (p : Part) (id : Nat) : p.Keeps (p.endedWaitExpiry id) := by
  unfold Part.endedWaitExpiry
  split
  · have hstopped : ∀ (q : Part) zs, q.Keeps ((q.modCues (·.modCue id (·.setOutcome zs .failed))).stopCue id .timeout) := fun q zs =>
      (q.keeps_setOutcome id zs .failed).trans (Part.keeps_stopCue _ _ _)
    exact (((((p.keeps_advanceTo _).trans (Part.keeps_begin _)).trans (hstopped _ _)).trans (Part.keeps_latchNat _ _ _)).trans
      (Part.keeps_bumpSilence _)).trans (Part.keeps_finish _)
  · exact .refl p

theorem Part.keeps_stopWaitExpiry (p : Part) (id : Nat) : p.Keeps (p.stopWaitExpiry id) := by
  unfold Part.stopWaitExpiry
  split
  · exact .refl p
  · dsimp only
    split
    · have hfailed : ∀ (q : Part) (c : Prop) [Decidable c], q.Keeps (if c then q else q.latchNat .cueFailed id) := fun q c _ =>
        Part.keeps_ite c (fun _ => .refl q) fun _ => q.keeps_latchNat _ _
      exact (((((p.keeps_advanceTo _).trans (Part.keeps_begin _)).trans (Part.keeps_endQuietly _ _)).trans (hfailed _ _)).trans
        (Part.keeps_bumpSilence _)).trans (Part.keeps_finish _)
    all_goals exact .refl p

theorem Part.keeps_probeWaitExpiry (p : Part) : p.Keeps p.probeWaitExpiry := by
  unfold Part.probeWaitExpiry
  split
  · exact .refl p
  · have hended : ∀ q : Part, q.Keeps (q.modCues fun q => { q with probeWait := none }) := fun q => q.keeps_modCues_same rfl rfl rfl
    exact ((((p.keeps_advanceTo _).trans (Part.keeps_begin _)).trans (hended _)).trans (Part.keeps_bumpSilence _)).trans (Part.keeps_finish _)

theorem Part.keeps_probe (p : Part) : p.Keeps p.probe := by
  have hlapse : p.Keeps p.probeLapse := Part.keeps_ite _ (fun _ => p.keeps_probeWaitExpiry) fun _ => .refl p
  have hsent : ∀ q : Part, q.Keeps (q.modCues fun c =>
      { c.transmit .probe with probeWait := some (q.elapsed + 2000), probeAt := q.elapsed + 10000 }) := fun q =>
    q.keeps_modCues_same rfl rfl rfl
  exact (hlapse.trans (Part.keeps_advanceTo _ _)).trans (hsent _)

theorem Part.keeps_freeReserved (p : Part) (id : Nat) : p.Keeps (p.freeReserved id) :=
  p.keeps_modCues_shrinks ⟨List.Sublist.refl _, fun l hl => ⟨l, hl, Nat.le_refl _⟩, List.length_filter_le _ _⟩

theorem Part.keeps_reservedRelease (p : Part) (id : Nat) : p.Keeps (p.reservedRelease id) := by
  unfold Part.reservedRelease
  split
  · exact .refl p
  · exact (p.keeps_advanceTo _).trans (Part.keeps_freeReserved _ _)

theorem Part.keeps_repeatDue (p : Part) (i : Nat) : p.Keeps (p.repeatDue i) := by
  unfold Part.repeatDue
  split
  · exact .refl p
  · exact (((p.keeps_advanceTo _).trans (Part.keeps_begin _)).trans (Part.keeps_inputRepeat _ _)).trans (Part.keeps_finish _)

theorem Part.keeps_waitLapse (p : Part) (id : Nat) : p.Keeps (p.waitLapse id) := by
  unfold Part.waitLapse
  split
  · exact Part.keeps_ite _ (fun _ => p.keeps_acceptWaitExpiry id) fun _ => .refl p
  · exact Part.keeps_ite _ (fun _ => p.keeps_endedWaitExpiry id) fun _ => .refl p
  · exact Part.keeps_ite _ (fun _ => p.keeps_stopWaitExpiry id) fun _ => .refl p
  · exact .refl p
  · exact .refl p

theorem Part.keeps_hear (p : Part) {f : Part → Part} (h : ∀ q : Part, q.Keeps (f q)) : p.Keeps (p.hear f) :=
  ((p.keeps_heardFrame.trans (Part.keeps_begin _)).trans (h _)).trans (Part.keeps_finish _)

theorem Part.keeps_hearAnswer (p : Part) (id : Nat) {f : Part → Part} (h : ∀ q : Part, q.Keeps (f q)) : p.Keeps (p.hearAnswer id f) :=
  (p.keeps_waitLapse id).trans (Part.keeps_hear _ h)

theorem Part.keeps_cueAccept (p : Part) (id : Nat) : p.Keeps (p.cueAccept id) := by
  unfold Part.cueAccept
  split
  · exact .refl p
  · split
    · exact p.keeps_modCue id fun _ => rfl
    all_goals exact .refl p

theorem Part.keeps_keepReason (p : Part) (b : Byte) : p.Keeps (p.keepReason b) := p.keeps_modCues_same rfl rfl rfl

theorem Part.keeps_cueReject (p : Part) (id : Nat) (b : Byte) : p.Keeps (p.cueReject id b) := by
  have hfail := (p.keeps_keepReason b).trans (Part.keeps_failCue _ id)
  have hquiet := (p.keeps_keepReason b).trans (Part.keeps_endQuietly _ id)
  unfold Part.cueReject
  split
  · exact .refl p
  · split
    · exact .refl p
    · exact hfail
    · exact hfail
    · exact hfail
    · exact hquiet
    · exact hquiet

theorem Part.keeps_cueComplete (p : Part) (c : Cue) : p.Keeps (p.cueComplete c) := by
  have hquiet := p.keeps_endQuietly c.id
  have hdone := hquiet.trans (Part.keeps_latchNat _ .cueDone c.id)
  unfold Part.cueComplete
  split
  · exact .refl p
  · exact hquiet
  all_goals exact hdone

theorem Part.keeps_cueStopped (p : Part) (c : Cue) : p.Keeps (p.cueStopped c) := by
  unfold Part.cueStopped
  split
  · exact .refl p
  · exact p.keeps_failCue _
  · exact p.keeps_failCue _
  · exact p.keeps_endPreempted c
  · exact p.keeps_endQuietly _
  · exact p.keeps_endQuietly _

theorem Part.keeps_cueEnded (p : Part) (id : Nat) (o : EndOutcome) : p.Keeps (p.cueEnded id o) := by
  unfold Part.cueEnded
  refine (p.keeps_freeReserved id).trans ?_
  dsimp only
  split
  · exact .refl _
  · cases o with
    | complete => exact Part.keeps_cueComplete _ _
    | stopped => exact Part.keeps_cueStopped _ _

theorem Part.keeps_probeReply (p : Part) : p.Keeps p.probeReply := by
  have hup : p.Keeps (p.modCues fun q => { q with probeWait := none, announcer := .up }) := p.keeps_modCues_same rfl rfl rfl
  exact Part.keeps_ite _ (fun _ => hup.trans (Part.keeps_latchNat _ _ _)) fun _ => hup

theorem Part.keeps_setZone (p : Part) (z : Nat) (st : ZoneState) : p.Keeps (p.modCues (·.setZone z st)) :=
  p.keeps_modCues_shrinks (p.cues.shrinks_setZone z st)

theorem Part.keeps_zoneFault (p : Part) (z : Nat) : p.Keeps (p.zoneFault z) := by
  have hoff := p.keeps_setZone z .offline
  have hfailed := fun c => (hoff.trans (Part.keeps_setOutcome _ c (· == z) .failed)).trans (Part.keeps_latchNat _ .cueFailed c)
  unfold Part.zoneFault
  dsimp only
  split
  · exact .refl p
  · exact hoff
  · exact hfailed _
  · exact hfailed _

theorem Part.keeps_zoneState (p : Part) (z : Nat) (r : ZoneReport) : p.Keeps (p.zoneState z r) := by
  refine Part.keeps_ite _ (fun _ => .refl p) fun _ => ?_
  cases r with
  | fault => exact p.keeps_zoneFault z
  | ok => exact Part.keeps_ite _ (fun _ => p.keeps_setZone z .idle) fun _ => .refl p

theorem Part.keeps_cueDiscard (p : Part) (why : CueDiscard) : p.Keeps (p.cueDiscard why) := by
  cases why with
  | broken => exact .refl p
  | unexpectedKind => exact p.keeps_heardFrame

/-! ## Notices, the banner and the wall (R72, R94 to R101, R119) -/

theorem takenPriority_le {l : Link} {n : Nat} (h : n ≤ 3) : takenPriority l n ≤ 3 := by
  unfold takenPriority
  split <;> omega

theorem Part.keeps_noticePost (p : Part) (l : Link) (a : Nat × Option Nat × Text) : p.KeepsAnswer (noticePost l a p) := by
  refine Part.keepsAnswer_ite _ (fun _ => .refl p) fun hfine => ?_
  simp only [Bool.or_eq_true, not_or, decide_eq_true_eq] at hfine
  dsimp only
  split
  · exact .refl p
  · next q hq =>
    refine (p.keeps_begin.trans (Part.keeps_postNotice hq (takenPriority_le ?_) _ _ _ _)).trans (Part.keeps_finish _)
    omega

theorem Part.keeps_noticeWithdraw (p : Part) (l : Link) (id : Nat) : p.KeepsAnswer (noticeWithdraw l id p) := by
  unfold noticeWithdraw
  split
  · exact .refl p
  · refine Part.keepsAnswer_ite _ (fun _ => .refl p) fun _ => Part.keepsAnswer_ite _ (fun _ => .refl p) fun _ => ?_
    exact (p.keeps_begin.trans (Part.keeps_dropNotice _ _)).trans (Part.keeps_finish _)

theorem Part.keeps_noticeExpiry (p : Part) (id : Nat) : p.Keeps (p.noticeExpiry id) := by
  unfold Part.noticeExpiry
  split
  · exact .refl p
  · split
    · exact .refl p
    · exact ((((p.keeps_advanceTo _).trans (Part.keeps_begin _)).trans (Part.keeps_dropNotice _ _)).trans (Part.keeps_latchNat _ _ _)).trans
        (Part.keeps_finish _)

theorem Part.keeps_rotationDwellEnd (p : Part) : p.Keeps p.rotationDwellEnd := by
  unfold Part.rotationDwellEnd
  split
  · exact .refl p
  · exact (((p.keeps_advanceTo _).trans (Part.keeps_begin _)).trans (Part.keeps_dwellEnd _)).trans (Part.keeps_finish _)

theorem Part.keeps_tellIfBanner (p : Part) (l : Link) : p.Keeps (p.tellIfBanner l) :=
  Part.keeps_ite _ (fun _ => p.keeps_tellWall) fun _ => .refl p

theorem Ownership.setBanner_platforms (o : Ownership) (l : Link) (b : BannerShadow) : (o.setBanner l b).platforms = o.platforms := by
  cases l <;> rfl

theorem Ownership.setBright_platforms (o : Ownership) (l : Link) (n : Nat) : (o.setBright l n).platforms = o.platforms := by
  cases l <;> rfl

theorem Part.keeps_setBanner (p : Part) (l : Link) (b : BannerShadow) : p.Keeps { p with own := p.own.setBanner l b } :=
  p.keeps_own (Ownership.setBanner_platforms _ _ _)

theorem Part.keeps_bannerSet (p : Part) (l : Link) (a : Bool × Option Nat × Text) : p.KeepsAnswer (bannerSet l a p) := by
  refine Part.keepsAnswer_ite _ (fun _ => .refl p) fun _ => ?_
  exact ((p.keeps_begin.trans (Part.keeps_setBanner _ l _)).trans (Part.keeps_tellIfBanner _ l)).trans (Part.keeps_finish _)

theorem Part.keeps_shadowExpiry (p : Part) (l : Link) : p.Keeps (p.shadowExpiry l) := by
  unfold Part.shadowExpiry
  split
  · exact .refl p
  · exact ((((p.keeps_advanceTo _).trans (Part.keeps_begin _)).trans (Part.keeps_setBanner _ l _)).trans (Part.keeps_tellIfBanner _ l)).trans
      (Part.keeps_finish _)

theorem Part.keeps_brightnessSet (p : Part) (l : Link) (n : Nat) : p.KeepsAnswer (brightnessSet l n p) := by
  have hset : p.begin.Keeps { p.begin with own := p.begin.own.setBright l (min 15 n) } :=
    p.begin.keeps_own (Ownership.setBright_platforms _ _ _)
  have htold : ∀ (q : Part) (c : Prop) [Decidable c], q.Keeps (if c then q.tellWall else q) := fun q c _ =>
    Part.keeps_ite c (fun _ => q.keeps_tellWall) fun _ => .refl q
  exact ((p.keeps_begin.trans hset).trans (htold _ _)).trans (Part.keeps_finish _)

/-! ## The feed (R193, R194) -/

theorem Part.keeps_modFeed (p : Part) (f : Feed → Feed) : p.Keeps (p.modFeed f) := Part.keeps_of_bare rfl

theorem Part.keeps_feedRestored (p : Part) (n : Nat) : p.Keeps (p.feedRestored n) :=
  ((p.keeps_modFeed _).trans (Part.keeps_tellWall _)).trans (Part.keeps_latchNat _ _ _)

theorem Part.keeps_takeHeartbeat (p : Part) (n : Nat) : p.Keeps (p.takeHeartbeat n) := by
  unfold Part.takeHeartbeat
  dsimp only
  split
  · exact p.keeps_modFeed _
  · exact ((p.keeps_modFeed _).trans (Part.keeps_withdrawNotice _ _ _)).trans (Part.keeps_feedRestored _ _)
  · exact (p.keeps_modFeed _).trans (Part.keeps_feedRestored _ _)

theorem Part.keeps_heartbeat (p : Part) (n : Nat) : p.KeepsAnswer (heartbeat n p) := by
  refine Part.keepsAnswer_ite _ (fun _ => .refl p) fun _ => Part.keepsAnswer_ite _ (fun _ => .refl p) fun _ => ?_
  exact (p.keeps_begin.trans (Part.keeps_takeHeartbeat _ _)).trans (Part.keeps_finish _)

theorem Part.keeps_heartbeatExpiry (p : Part) : p.Keeps p.heartbeatExpiry := by
  unfold Part.heartbeatExpiry
  split
  · exact .refl p
  · exact (((((((p.keeps_advanceTo _).trans (Part.keeps_begin _)).trans (Part.keeps_modFeed _ _)).trans (Part.keeps_askNotice _ _ _)).trans
      (Part.keeps_purgeAuto _)).trans (Part.keeps_tellWall _)).trans (Part.keeps_latchNat _ _ _)).trans (Part.keeps_finish _)

theorem Part.keeps_staleExpiry (p : Part) : p.Keeps p.staleExpiry := by
  unfold Part.staleExpiry
  split
  · exact .refl p
  · exact ((((((p.keeps_advanceTo _).trans (Part.keeps_begin _)).trans (Part.keeps_modFeed _ _)).trans (Part.keeps_withdrawNotice _ _ _)).trans
      (Part.keeps_tellWall _)).trans (Part.keeps_latchNat _ _ _)).trans (Part.keeps_finish _)

/-! ## Marks, clock lines and settings -/

theorem Part.keeps_markExpiry (p : Part) (id : Nat) : p.Keeps (p.markExpiry id) := by
  unfold Part.markExpiry
  split
  · exact .refl p
  · have hended : ∀ q : Part, q.Keeps (q.endMark id) := fun q => q.keeps_modRecord id fun _ => ⟨rfl, rfl, rfl, rfl, rfl⟩
    exact (((((p.keeps_advanceTo _).trans (Part.keeps_begin _)).trans (hended _)).trans (Part.keeps_withdrawNotice _ _ _)).trans
      (Part.keeps_tellWall _)).trans (Part.keeps_finish _)

theorem Part.keeps_clockLineSet (p : Part) (l : Link) (a : Nat × Nat × Nat) : p.KeepsAnswer (clockLineSet l a p) := by
  refine Part.keepsAnswer_ite _ (fun _ => .refl p) fun _ => ?_
  dsimp only
  split
  · exact .refl p
  · refine Part.keepsAnswer_ite _ (fun _ => .refl p) fun _ => Part.keepsAnswer_ite _ (fun _ => .refl p) fun _ =>
      Part.keepsAnswer_ite _ (fun _ => .refl p) fun _ => Part.keepsAnswer_ite _ (fun _ => .refl p) fun _ => ?_
    exact (p.keeps_modLine _ _).trans (Part.keeps_evaluate _ _ _ _)

theorem Part.keeps_clockLineRetry (p : Part) (l : Link) (n : Nat) : p.KeepsAnswer (clockLineRetry l n p) := by
  refine Part.keepsAnswer_ite _ (fun _ => .refl p) fun _ => Part.keepsAnswer_ite _ (fun _ => .refl p) fun _ =>
    Part.keepsAnswer_ite _ (fun _ => .refl p) fun _ => ?_
  exact (p.keeps_modLine _ _).trans (Part.keeps_evaluate _ _ _ _)

theorem Part.keeps_parkClocks (p : Part) (l : Link) : p.KeepsAnswer (parkClocks l p) :=
  Part.keepsAnswer_ite _ (fun _ => .refl p) fun _ => Part.keepsAnswer_ite _ (fun _ => .refl p) fun _ => p.keeps_startPark _

theorem Part.keeps_settingsSave (p : Part) (tag : Byte) (r : Nat) : p.KeepsAnswer (settingsSave tag r p) := by
  refine Part.keepsAnswer_ite _ (fun _ => .refl p) fun _ => Part.keepsAnswer_ite _ (fun _ => .refl p) fun _ =>
    Part.keepsAnswer_ite _ (fun _ => .refl p) fun _ => Part.keepsAnswer_ite _ (fun _ => .refl p) fun _ => ?_
  exact p.keeps_askWrite _ fun _ e he => by cases he

theorem Part.keeps_settingsCheck (p : Part) (tag : Byte) : p.KeepsAnswer (settingsCheck tag p) :=
  Part.keepsAnswer_ite _ (fun _ => p.keeps_checkRows) fun _ => .refl p

theorem Part.keeps_settingsFreeze (p : Part) : p.KeepsAnswer (settingsFreeze p) := by
  refine p.keeps_modStore (f := fun st => { st with frozen := true }) fun hs => ?_
  obtain ⟨hwork, hstored, _, hwrites⟩ := (Part.settingsOk_iff _).mp hs
  exact ⟨hwork, hstored, hwrites⟩

/-! ## Reading requests -/

theorem Part.keeps_readOnly (p : Part) {c : Prop} [Decidable c] (r : Result) (body : List Byte) :
    p.KeepsAnswer (if c then refuse p r else readOk p body) := Part.keepsAnswer_ite _ (fun _ => .refl p) fun _ => .refl p

/-! ## The links (R185 to R196) -/

theorem Part.keeps_receive (p : Part) (l : Link) (f : RequestFrame) : p.Keeps (p.receive l f) :=
  Part.keeps_of_ports (p.receive_beyondPorts l f)

theorem Part.keeps_answer (p : Part) (l : Link) (k t : Byte) (r : Result) (b : List Byte) :
    p.Keeps ((p.freePlace l).answer l k t r b) :=
  (p.keeps_modPort l _).trans (Part.keeps_of_ports (Part.answer_beyondPorts _ l k t r b))

theorem Part.keeps_unknownKind (p : Part) (l : Link) (f : RequestFrame) : p.Keeps (p.unknownKind l f) :=
  Part.keeps_ite _ (fun _ => .refl p) fun _ => Part.keeps_ite _ (fun _ => p.keeps_answer _ _ _ _ _) fun _ => p.keeps_receive l f

theorem Part.keeps_sendNotice (p : Part) (l : Link) : p.Keeps (p.sendNotice l) := by
  refine Part.keeps_ite _ (fun _ => ?_) fun _ => .refl p
  have hat := p.keeps_advanceTo ((p.port l).lineEnd.getD p.elapsed)
  exact Part.keeps_ite _ (fun _ => hat.trans (Part.keeps_modPort _ _ _)) fun _ => hat

/-- A request whose handler keeps every law keeps it. -/
theorem Part.keeps_runRequest {α : Type} (p : Part) {kind : Nat} {read : List Byte → Option α} {handler : Link → α → Part → Answer}
    {rq : Req} (h : ∀ a, read rq.body = some a → p.KeepsAnswer (handler rq.link a p)) : p.Keeps (runRequest kind read handler rq p) := by
  refine Part.keeps_ite _ (fun _ => ?_) fun _ => p.keeps_receive _ _
  split
  · exact p.keeps_answer _ _ _ _ _
  · next a ha =>
    refine Part.keeps_ite _ (fun _ => p.keeps_answer _ _ _ _ _) fun _ => ?_
    have hanswer := h a ha
    split
    · next q r body heq =>
      rw [heq] at hanswer
      exact Part.Keeps.trans hanswer (Part.keeps_answer _ _ _ _ _ _)
    · next q w heq =>
      rw [heq] at hanswer
      exact Part.Keeps.trans hanswer (Part.keeps_modPort _ _ _)

end Sys2Proof.Machine
end

section
/-! Every step keeps the invariants (O56 to O59). -/

namespace Sys2Proof.Machine

/-! ## The Cue Scheduler's reset (R169) -/

/-- The scheduler after a reset, before the STOP frames go out. -/
def CueSched.fresh (q : CueSched) (next now : Nat) : CueSched :=
  { pool := [], queues := List.replicate 8 [], zones := List.replicate 8 .idle, announcer := .lost, silence := 0,
    lastReject := none, nextId := next, nextArrival := 1,
    reserved := q.reserved ++ q.inFlight.map fun id => (id, now + 5000),
    repeats := List.replicate 4 none, probeAt := now, probeWait := none, tx := q.tx, tag := 0 }

theorem Part.resetCues_cues (p : Part) (next : Nat) : (p.resetCues next).cues =
    p.cues.inFlight.foldl (fun q id => q.transmit fun t => .stop t id) (p.cues.fresh next p.elapsed) := rfl

theorem CueSched.inFlight_length (q : CueSched) : q.inFlight.length ≤ q.pool.length := by
  unfold CueSched.inFlight
  rw [List.length_map, sortBy_length]
  exact List.length_filter_le _ _

theorem CueSched.fresh_ok (q : CueSched) (next now : Nat) : (q.fresh next now).ok := by
  refine ⟨Nat.zero_le _, Nat.zero_le _, Nat.zero_le _, fun c hc => (List.not_mem_nil hc).elim, fun l hl => ?_⟩
  rw [List.eq_of_mem_replicate hl]
  exact Nat.zero_le _

theorem CueSched.shrinks_stops (ids : List Nat) (q : CueSched) :
    q.Shrinks (ids.foldl (fun q id => q.transmit fun t => .stop t id) q) :=
  CueSched.shrinks_foldl _ (fun q _ => q.shrinks_transmit _) ids q

theorem Part.resetCues_ok (p : Part) (next : Nat) : (p.resetCues next).cues.ok :=
  (CueSched.shrinks_stops _ _).keeps.ok (CueSched.fresh_ok _ _ _)

/-- No record is left, and only ids of records in flight have been reserved besides. -/
theorem Part.resetCues_ids {p : Part} (h : p.cues.ok) {n : Nat} (hn : n + 32 ≤ reservedMax) (hr : p.cues.reserved.length ≤ n)
    (next : Nat) : (p.resetCues next).cues.reserved.length ≤ n + 32 ∧ ((p.resetCues next).cues.pool.map (·.id)).Nodup := by
  refine (CueSched.shrinks_stops _ (p.cues.fresh next p.elapsed)).keeps.ids _ hn (CueSched.fresh_ok _ _ _) ?_ List.nodup_nil
  have hpool := h.pool_le
  have hflight := p.cues.inFlight_length
  simp only [CueSched.fresh, List.length_append, List.length_map]
  omega

/-! ## What a step keeps -/

/-- Every invariant passes from one part to the other. -/
structure Part.StepKeeps (p q : Part) : Prop where
  table : p.tableLaw → q.tableLaw
  cues : p.cues.ok → q.cues.ok
  ids : p.cues.ok → p.cues.reserved.length ≤ 1000 → (p.cues.pool.map (·.id)).Nodup → (q.cues.pool.map (·.id)).Nodup
  notices : p.notices.ok → q.notices.ok
  image : p.image.ok → q.image.ok
  second : p.time.second < 86400 → q.time.second < 86400
  settings : p.settingsOk → q.settingsOk
  spare : p.settingsOk → p.chain.spareLaw → q.chain.spareLaw

theorem Part.Keeps.step {p q : Part} (h : p.Keeps q) : p.StepKeeps q :=
  ⟨h.table, h.cues.ok, fun hok hr hd => (h.cues.ids 1000 (by decide) hok hr hd).2, h.notices, h.image, h.second, h.settings, h.spare⟩

/-- A reset of the Cue Scheduler amid operations that keep every law. -/
theorem Part.StepKeeps.of_resetCues {p m q : Part} {next : Nat} (h₁ : p.Keeps m) (h₂ : (m.resetCues next).Keeps q) :
    p.StepKeeps q where
  table h := h₂.table (Part.tableLaw_of_same rfl rfl (h₁.table h))
  cues _ := h₂.cues.ok (m.resetCues_ok next)
  ids hok hr hd := by
    have hm := h₁.cues.ids 1000 (by decide) hok hr hd
    obtain ⟨hr', hd'⟩ := Part.resetCues_ids (h₁.cues.ok hok) (n := 1000) (by decide) hm.1 next
    exact (h₂.cues.ids 1032 (by decide) (m.resetCues_ok next) hr' hd').2
  notices h := h₂.notices (h₁.notices h)
  image h := h₂.image (h₁.image h)
  second h := h₂.second (h₁.second h)
  settings h := h₂.settings (Part.settingsOk_of_same rfl rfl (h₁.settings h))
  spare hs h := h₂.spare (Part.settingsOk_of_same rfl rfl (h₁.settings hs)) (h₁.spare hs h)

/-! ## Resets (R18, R40, R143, R196) -/

theorem Part.keeps_resetLinks (p : Part) (x : BitVec 16) : p.Keeps (p.resetLinks x) := Part.keeps_of_bare rfl

theorem resetTable_ok : resetTable.ok := by
  refine ⟨Nat.zero_le _, List.nodup_nil, List.Pairwise.nil, List.length_replicate, fun t ht => ?_⟩
  rw [List.eq_of_mem_replicate ht]
  exact Nat.zero_le _

theorem resetNotices_ok : resetNotices.ok :=
  ⟨Nat.zero_le _, List.nodup_nil, List.Pairwise.nil, List.Pairwise.nil, fun _ hn => (List.not_mem_nil hn).elim, by decide, rfl⟩

theorem Part.keeps_resetTables (p : Part) : p.Keeps p.resetTables :=
  ⟨⟨.refl _, fun _ => resetNotices_ok, id, id, Part.settingsOk_of_same rfl rfl, fun _ => id⟩,
    fun _ => ⟨resetTable_ok, List.length_replicate, fun _ hr => (List.not_mem_nil hr).elim⟩⟩

theorem positionsField_mem : byteRange 5 1 12 ∈ rowFields 0 := by decide

/-- The configured number of positions is in its range. -/
theorem Part.positions_le {p : Part} (h : p.settingsOk) : p.cfg 0 5 ≤ 12 := by
  obtain ⟨hlen, hranges⟩ := rowInRange_iff.mp (h.2.1 0 (by omega))
  have hin : max 1 (min 12 ((byteRange 5 1 12).value (p.row 0))) = (byteRange 5 1 12).value (p.row 0) := hranges _ positionsField_mem
  have hvalue : (byteRange 5 1 12).value (p.row 0) = p.cfg 0 5 := by
    have hlt : 5 < (p.row 0).length := by omega
    show ofBe (((p.row 0).drop 5).take 1) = ((p.row 0).getD 5 0).toNat
    rw [List.drop_eq_getElem_cons hlt, List.take_succ_cons, List.take_zero, List.getD_eq_getElem?_getD, List.getElem?_eq_getElem hlt]
    simp [ofBe]
  omega

/-- The chain at a reset (R143): no position is covered, and the poll in progress alone stays. -/
theorem Part.keeps_resetChain (p : Part) : p.Keeps p.resetChain := by
  refine p.keeps_chain _ fun hs h => (Chain.spareLaw_iff _).mpr ⟨⟨List.length_replicate, Part.positions_le hs, h.2.2.1,
    fun a ha => (List.not_mem_nil ha).elim⟩, fun n hn => ?_, fun n hn => ?_⟩
  · dsimp only at hn
    split at hn <;> cases hn
  · dsimp only at hn
    split at hn <;> cases hn

theorem Part.keeps_cutPoll (p : Part) : p.Keeps (p.modChain fun c => { c with poll := none, lastSent := none }) :=
  p.keeps_modChain_same rfl rfl rfl rfl (Or.inr rfl) (Or.inl rfl)

theorem Part.keeps_freshInputs (p : Part) : p.Keeps p.freshInputs := Part.keeps_of_bare rfl

theorem Part.keeps_closed (p : Part) : p.Keeps { p with ev := noEvent } := Part.keeps_of_bare rfl

theorem Part.stepKeeps_powerOn (p : Part) : p.StepKeeps p.powerOn := by
  have hloaded : p.Keeps p.tearWrite.decayRows.startUpCheck.loadRows :=
    ((p.keeps_tearWrite.trans (Part.keeps_decayRows _)).trans (Part.keeps_startUpCheck _)).trans (Part.keeps_loadRows _)
  unfold Part.powerOn
  generalize p.tearWrite.decayRows.startUpCheck.loadRows = m at hloaded ⊢
  have hlinks : m.Keeps ((m.resetLinks 0).latchFailed) := (m.keeps_resetLinks 0).trans (Part.keeps_latchFailed _)
  have htime : ∀ q : Part, q.Keeps { q with powered := true, time := resetTimebase q.elapsed (q.cfg 0 0) } := fun q =>
    (q.keeps_time (resetTimebase q.elapsed (q.cfg 0 0)) fun _ => Nat.zero_lt_succ _).trans (Part.keeps_of_bare rfl)
  have hsilent : ∀ q : Part, q.Keeps (q.modCues fun c => { c with tx := [] }) := fun q => q.keeps_modCues_same rfl rfl rfl
  have hbefore := (((hloaded.trans hlinks).trans (htime _)).trans (Part.keeps_resetTables _)).trans (Part.keeps_freshInputs _)
  refine Part.StepKeeps.of_resetCues (next := 1) (hbefore.trans (hsilent _)) ?_
  exact ((((Part.keeps_cutPoll _).trans (Part.keeps_resetChain _)).trans (Part.keeps_freshClocks _)).trans
    (Part.keeps_composeFresh _ (Nat.le_refl 1) (by decide))).trans (Part.keeps_closed _)

theorem Part.keeps_sendResetReply (p : Part) : p.Keeps p.sendResetReply :=
  Part.keeps_ite _ (fun _ => p.keeps_advanceTo _) fun _ => .refl p

theorem Part.keeps_completeControl (p : Part) : p.Keeps p.completeControl := by
  unfold Part.completeControl
  split
  · exact (p.keeps_advanceTo _).trans (Part.keeps_oscillatorGap _)
  · exact .refl p

theorem Part.keeps_softTime (p : Part) : p.Keeps p.softTime := p.keeps_modTime_same rfl

theorem Part.stepKeeps_softReset (p : Part) : p.StepKeeps p.softReset := by
  have hsent := p.keeps_sendResetReply.trans (Part.keeps_completeControl _)
  unfold Part.softReset
  dsimp only
  generalize p.sendResetReply.completeControl = m at hsent ⊢
  have hloaded : m.Keeps m.begin.softWrites.loadRows := (m.keeps_begin.trans (Part.keeps_softWrites _)).trans (Part.keeps_loadRows _)
  have hblocks : ∀ q : Part, q.Keeps ((q.resetLinks 1).softTime).resetTables := fun q =>
    ((q.keeps_resetLinks 1).trans (Part.keeps_softTime _)).trans (Part.keeps_resetTables _)
  refine Part.StepKeeps.of_resetCues (next := m.begin.softWrites.loadRows.cues.nextId) ((hsent.trans hloaded).trans (hblocks _)) ?_
  have hrest : ∀ (q : Part) rows, q.Keeps ((q.inputsReloaded rows).resetChain.keptClocks) := fun q rows =>
    ((q.keeps_inputsReloaded rows).trans (Part.keeps_resetChain _)).trans (Part.keeps_keptClocks _)
  have hnext := fun i : Image => countNext_range i.generation
  exact (((hrest _ _).trans (Part.keeps_composeFresh _ (hnext _).1 (hnext _).2)).trans (Part.keeps_inputRestarts _)).trans
    (Part.keeps_finish _)

theorem Part.keeps_losePower (p : Part) : p.Keeps p.losePower := by
  have hlines : ∀ q : Part, q.Keeps (q.modClocks fun c => { c with
      lines := c.lines.map fun k => { k with impulse := none, retryImpulse := false, retryAt := none }, park := none }) := fun q =>
    q.keeps_modClocks (List.length_map _)
  have hchain : ∀ q : Part, q.Keeps (q.modChain fun c =>
      { c with poll := none, cycleRest := [], lastSent := none, reset := .complete, test := resetTest }) := fun q =>
    q.keeps_modChain_same rfl rfl rfl rfl (Or.inr rfl) (Or.inr rfl)
  have hcues : ∀ q : Part, q.Keeps (q.modCues fun q =>
      { q with pool := [], queues := List.replicate 8 [], zones := List.replicate 8 .idle, reserved := [],
               repeats := List.replicate 4 none, probeWait := none, tx := [] }) := by
    refine fun q => q.keeps_modCues ⟨fun _ => ⟨Nat.zero_le _, Nat.zero_le _, Nat.zero_le _,
      fun c hc => (List.not_mem_nil hc).elim, fun l hl => ?_⟩, fun _ _ _ _ _ => ⟨Nat.zero_le _, List.nodup_nil⟩⟩
    rw [List.eq_of_mem_replicate hl]
    exact Nat.zero_le _
  exact (((p.keeps_tearWrite.trans (hlines _)).trans (hchain _)).trans (hcues _)).trans (Part.keeps_of_bare rfl)

/-! ## Reading requests -/

theorem Part.keeps_serviceRead (p : Part) (id : Nat) : p.KeepsAnswer (serviceRead id p) := by
  unfold serviceRead
  split <;> exact .refl p

theorem Part.keeps_cueStatus (p : Part) (id : Nat) : p.KeepsAnswer (cueStatus id p) := by
  refine Part.keepsAnswer_ite _ (fun _ => .refl p) fun _ => ?_
  split <;> exact .refl p

/-! ## Every command -/

theorem Part.keeps_act {f : Part → Part} (h : ∀ p : Part, p.Keeps (f p)) {s t : State} (hx : act f s = .next t) :
    s.part.Keeps t.part := by
  injection hx with hx
  rw [← hx]
  exact Part.keeps_ite _ (fun _ => h _) fun _ => .refl _

/-- A command that executes a request. -/
theorem keeps_request {α : Type} {kind : Nat} {read : List Byte → Option α} {handler : Link → α → Part → Answer} {rq : Req}
    {s t : State} (hx : act (runRequest kind read handler rq) s = .next t)
    (h : ∀ (p : Part) a, read rq.body = some a → p.KeepsAnswer (handler rq.link a p)) : s.part.Keeps t.part :=
  Part.keeps_act (fun p => p.keeps_runRequest (h p)) hx

/-- A command that executes a request whose body holds the action it is for. -/
theorem keeps_requestIf {α : Type} {kind : Nat} {read : List Byte → Option α} {handler : Link → α → Part → Answer} {rq : Req}
    {c : Bool} {s t : State} (hx : act (fun p => if c then runRequest kind read handler rq p else p) s = .next t)
    (h : ∀ (p : Part) a, p.KeepsAnswer (handler rq.link a p)) : s.part.Keeps t.part :=
  Part.keeps_act (fun p => Part.keeps_ite _ (fun _ => p.keeps_runRequest fun a _ => h p a) fun _ => .refl p) hx

theorem keeps_inputLevelChange {i : Fin 4} {b : Bool} {s t : State} (h : exec (.inputLevelChange i b) s = .next t) :
    s.part.Keeps t.part := by
  have hx : (if s.part.powered then act (fun p => p.inputLevel i b) s
    else .next { s with part := s.part.modInput i fun w => { w with asserted := b } }) = .next t := h
  split at hx
  · exact Part.keeps_act (fun p => p.keeps_inputLevel i b) hx
  · injection hx with hx
    rw [← hx]
    exact Part.keeps_modInput _ _ _

/-- Every command keeps every invariant. -/
theorem stepKeeps_exec (c : Instr) {s t : State} (h : exec c s = .next t) : s.part.StepKeeps t.part := by
  cases c with
  | powerOnReset =>
    injection h with h
    rw [← h]
    exact s.part.stepKeeps_powerOn
  | softReset =>
    injection h with h
    rw [← h]
    dsimp only
    split
    · exact s.part.stepKeeps_softReset
    · exact (Part.Keeps.refl _).step
  | chainResetComplete => exact (Part.keeps_act Part.keeps_chainResetComplete h).step
  | powerLoss => exact (Part.keeps_act Part.keeps_losePower h).step
  | requestFrameReceived l f => exact (Part.keeps_act (fun p => p.keeps_receive l f) h).step
  | frameError l w => exact (Part.keeps_act (fun p => p.keeps_modPort l _) h).step
  | unknownKindRequest l f => exact (Part.keeps_act (fun p => p.keeps_unknownKind l f) h).step
  | noticeFrameSend l => exact (Part.keeps_act (fun p => p.keeps_sendNotice l) h).step
  | identify rq => exact (keeps_request h (fun p _ _ => Part.Keeps.refl p)).step
  | eventsReadClear rq => exact (keeps_request h (fun p _ _ => p.keeps_modPort _ _)).step
  | eventsMaskSet rq =>
    exact (keeps_request h (fun p _ _ => Part.keepsAnswer_ite _ (fun _ => Part.Keeps.refl p) fun _ => p.keeps_modPort _ _)).step
  | resetPart rq => exact (keeps_request h (fun p _ _ => Part.keeps_of_bare (p := p) rfl)).step
  | heartbeat rq => exact (keeps_request h (fun p n _ => p.keeps_heartbeat n)).step
  | heartbeatTimerExpiry => exact (Part.keeps_act Part.keeps_heartbeatExpiry h).step
  | staleTimerExpiry => exact (Part.keeps_act Part.keeps_staleExpiry h).step
  | assign rq => exact (keeps_request h (fun p a _ => p.keeps_assign rq.link a)).step
  | ownershipRead rq => exact (keeps_request h (fun p _ _ => Part.Keeps.refl p)).step
  | timeRead rq => exact (keeps_request h (fun p _ _ => Part.Keeps.refl p)).step
  | timeSet rq => exact (keeps_request h (fun p a _ => p.keeps_timeSet rq.link a)).step
  | timebaseSelect rq => exact (keeps_request h (fun p _ _ => p.keeps_timebaseSelect rq.link rq.tag)).step
  | timebaseSelectEdge => exact (Part.keeps_act Part.keeps_oscillatorEdge h).step
  | oscillatorGap => exact (Part.keeps_act Part.keeps_oscillatorGap h).step
  | referenceTelegram bytes => exact (Part.keeps_act (fun p => p.keeps_telegram bytes) h).step
  | referenceTimeout => exact (Part.keeps_act Part.keeps_referenceTimeout h).step
  | holdoverExpiry => exact (Part.keeps_act Part.keeps_holdoverExpiry h).step
  | stationSecond => exact (Part.keeps_act Part.keeps_stationSecond h).step
  | servicePut rq => exact (keeps_request h (fun p _ ha => p.keeps_servicePut (readServicePut_platform ha))).step
  | serviceUpdate rq => exact (keeps_request h (fun p u _ => p.keeps_serviceUpdate rq.link u)).step
  | serviceRemove rq => exact (keeps_request h (fun p ids _ => p.keeps_serviceRemove ids)).step
  | serviceRead rq => exact (keeps_request h (fun p id _ => p.keeps_serviceRead id)).step
  | tableRead rq => exact (keeps_request h (fun p _ _ => p.keeps_readOnly _ _)).step
  | nameLoad rq => exact (keeps_request h (fun p a _ => p.keeps_nameLoad a)).step
  | changeMarkExpiry id => exact (Part.keeps_act (fun p => p.keeps_markExpiry id) h).step
  | noticePost rq => exact (keeps_request h (fun p a _ => p.keeps_noticePost rq.link a)).step
  | noticeWithdraw rq => exact (keeps_request h (fun p id _ => p.keeps_noticeWithdraw rq.link id)).step
  | noticeList rq => exact (keeps_request h (fun p _ _ => p.keeps_readOnly _ _)).step
  | noticeExpiry id => exact (Part.keeps_act (fun p => p.keeps_noticeExpiry id) h).step
  | rotationDwellEnd => exact (Part.keeps_act Part.keeps_rotationDwellEnd h).step
  | bannerSet rq => exact (keeps_request h (fun p a _ => p.keeps_bannerSet rq.link a)).step
  | bannerShadowExpiry l => exact (Part.keeps_act (fun p => p.keeps_shadowExpiry l) h).step
  | wallRead rq => exact (keeps_request h (fun p _ _ => p.keeps_readOnly _ _)).step
  | brightnessSet rq => exact (keeps_request h (fun p n _ => p.keeps_brightnessSet rq.link n)).step
  | wallStatus rq => exact (keeps_request h (fun p _ _ => Part.Keeps.refl p)).step
  | panelSparePin rq => exact (keeps_requestIf h (fun p a => p.keeps_panelSpare rq.link a)).step
  | panelSpareRelease rq => exact (keeps_requestIf h (fun p a => p.keeps_panelSpare rq.link a)).step
  | panelSpareAutomatic rq => exact (keeps_requestIf h (fun p a => p.keeps_panelSpare rq.link a)).step
  | pollCycleStart => exact (Part.keeps_act Part.keeps_startCycle h).step
  | panelReply r => exact (Part.keeps_act (fun p => p.keeps_panelReply r) h).step
  | panelReplyMiss => exact (Part.keeps_act Part.keeps_panelMiss h).step
  | wallTestStart rq => exact (keeps_requestIf h (fun p a => p.keeps_wallTest rq.link a)).step
  | linkTestBegin => exact (Part.keeps_act Part.keeps_linkTestBegin h).step
  | wallTestStop rq => exact (keeps_requestIf h (fun p a => p.keeps_wallTest rq.link a)).step
  | wallTestInsertError rq => exact (keeps_requestIf h (fun p a => p.keeps_wallTest rq.link a)).step
  | testPatternBitTransmitted => exact (Part.keeps_act Part.keeps_patternBit h).step
  | detectorSeeded bits => exact (Part.keeps_act (fun p => p.keeps_detectorSeed bits) h).step
  | detectorWindow bits => exact (Part.keeps_act (fun p => p.keeps_detectorWindow bits) h).step
  | linkTestDurationEnd => exact (Part.keeps_act Part.keeps_testDurationEnd h).step
  | cuePost rq => exact (keeps_request h (fun p _ ha => p.keeps_cuePost rq.link (readCuePost_zones ha))).step
  | cueCancel rq => exact (keeps_request h (fun p id _ => p.keeps_cueCancel rq.link id)).step
  | cueStatus rq => exact (keeps_request h (fun p id _ => p.keeps_cueStatus id)).step
  | cueAgeOut id => exact (Part.keeps_act (fun p => p.keeps_cueAgeOut id) h).step
  | cuePortAccept id => exact (Part.keeps_act (fun p => p.keeps_hearAnswer id fun q => q.keeps_cueAccept id) h).step
  | cuePortReject id b => exact (Part.keeps_act (fun p => p.keeps_hearAnswer id fun q => q.keeps_cueReject id b) h).step
  | cuePortEnded id o => exact (Part.keeps_act (fun p => p.keeps_hearAnswer id fun q => q.keeps_cueEnded id o) h).step
  | cuePortProbeReply =>
    refine (Part.keeps_act (fun p => Part.Keeps.trans ?_ (Part.keeps_hear _ Part.keeps_probeReply)) h).step
    exact Part.keeps_ite _ (fun _ => p.keeps_probeWaitExpiry) fun _ => .refl p
  | cuePortZoneState z r => exact (Part.keeps_act (fun p => p.keeps_hear fun q => q.keeps_zoneState z r) h).step
  | cuePortFrameDiscarded w => exact (Part.keeps_act (fun p => p.keeps_cueDiscard w) h).step
  | probeTimer => exact (Part.keeps_act Part.keeps_probe h).step
  | acceptWaitExpiry id => exact (Part.keeps_act (fun p => p.keeps_acceptWaitExpiry id) h).step
  | endedWaitExpiry id => exact (Part.keeps_act (fun p => p.keeps_endedWaitExpiry id) h).step
  | stopWaitExpiry id => exact (Part.keeps_act (fun p => p.keeps_stopWaitExpiry id) h).step
  | probeWaitExpiry => exact (Part.keeps_act Part.keeps_probeWaitExpiry h).step
  | reservedIdRelease id => exact (Part.keeps_act (fun p => p.keeps_reservedRelease id) h).step
  | inputCueRepeat i => exact (Part.keeps_act (fun p => p.keeps_repeatDue i) h).step
  | clockLineStatus rq => exact (keeps_request h (fun p _ _ => Part.Keeps.refl p)).step
  | clockLineSet rq => exact (keeps_request h (fun p a _ => p.keeps_clockLineSet rq.link a)).step
  | clockLineRetry rq => exact (keeps_request h (fun p n _ => p.keeps_clockLineRetry rq.link n)).step
  | parkClocks rq => exact (keeps_request h (fun p _ _ => p.keeps_parkClocks rq.link)).step
  | impulseOpenCheck i b => exact (Part.keeps_act (fun p => p.keeps_impulseOpenCheck i b) h).step
  | impulseOverloadTrip i => exact (Part.keeps_act (fun p => p.keeps_impulseOverload i) h).step
  | impulseDriveEnd i => exact (Part.keeps_act (fun p => p.keeps_impulseDriveEnd i) h).step
  | impulseGapEnd i => exact (Part.keeps_act (fun p => p.keeps_impulseGapEnd i) h).step
  | clockRetryTimerExpiry i => exact (Part.keeps_act (fun p => p.keeps_clockRetryExpiry i) h).step
  | inputLevelChange i b => exact (keeps_inputLevelChange h).step
  | qualificationTimerExpiry i => exact (Part.keeps_act (fun p => p.keeps_qualificationExpiry i) h).step
  | inputStatus rq => exact (keeps_request h (fun p _ _ => Part.Keeps.refl p)).step
  | settingsRead rq => exact (keeps_request h (fun p _ _ => p.keeps_readOnly _ _)).step
  | settingsWrite rq => exact (keeps_request h (fun p a _ => p.keeps_settingsWrite a)).step
  | settingsSave rq => exact (keeps_request h (fun p r _ => p.keeps_settingsSave rq.tag r)).step
  | storeWriteComplete => exact (Part.keeps_act Part.keeps_writeComplete h).step
  | settingsCheck rq => exact (keeps_request h (fun p _ _ => p.keeps_settingsCheck rq.tag)).step
  | settingsFreeze rq => exact (keeps_request h (fun p _ _ => p.keeps_settingsFreeze)).step

theorem Part.keeps_tick (p : Part) : p.Keeps p.tick := by
  have hsent : ∀ q : Part, q.Keeps (q.modCues fun c => { c with tx := c.tx.drop 1 }) := fun q => q.keeps_modCues_same rfl rfl rfl
  exact (p.keeps_advanceTo _).trans (hsent _)

/-- Every step keeps every invariant. -/
theorem stepKeeps_step {s t : State} (h : step s = .next t) : s.part.StepKeeps t.part := by
  unfold step at h
  split at h
  · have hkeeps := stepKeeps_exec _ h
    exact hkeeps
  · unfold idle at h
    split at h
    · split at h
      · exact stepKeeps_exec _ h
      · injection h with h
        rw [← h]
        exact s.part.keeps_tick.step
    · injection h with h
      rw [← h]
      exact (Part.Keeps.refl _).step

/-- Settles O56: placement, deletion and sorting keep the order, and ASSIGN, SERVICE_PUT and SERVICE_UPDATE the law of copies. -/
theorem stepKeepsTableOrderAndCopies : Obligations.StepKeepsTableOrderAndCopies :=
  fun _ _ htable hcopies h => (stepKeeps_step h).table ⟨htable, hcopies⟩

/-- Settles O57: a record is added within its quota and under a free id, and references only where a zone has room. -/
theorem stepKeepsCueQuotas : Obligations.StepKeepsCueQuotas :=
  fun _ _ hok h => ⟨(stepKeeps_step h).cues hok, (stepKeeps_step h).ids hok⟩

/-- Settles O58. -/
theorem stepKeepsNoticeListAndImage : Obligations.StepKeepsNoticeListAndImage :=
  fun _ _ h => ⟨(stepKeeps_step h).notices, (stepKeeps_step h).image, (stepKeeps_step h).second⟩

/-- Settles O59: loads and writes clamp, and the spare's duty is set only where the law allows it. -/
theorem stepKeepsSettingsInRangeAndSpareLaw : Obligations.StepKeepsSettingsInRangeAndSpareLaw :=
  fun _ _ hset hspare h => ⟨(stepKeeps_step h).settings hset, (stepKeeps_step h).spare hset hspare⟩

end Sys2Proof.Machine
end

section
/-! The loss of power, frames received and notice frames sent, and the line of a link as time passes. -/

namespace Sys2Proof.Machine

/-- A command with its effect on a part with power. -/
theorem leaves_act {c : Instr} {s : State} {p : Part} (f : Part → Part) (hc : exec c s = act f s) (hp : s.part.powered = true)
    (h : f s.part = p) : Leaves c s p := by
  rw [Leaves, hc, act_powered f s hp, h]

/-! ## The loss of power (R203) -/

theorem Part.tearWrite_writes (p : Part) : p.tearWrite.store.writes = [] := by
  unfold Part.tearWrite
  split
  · assumption
  · rfl

theorem Part.tearWrite_of_none {p : Part} (h : p.store.writes = []) : p.tearWrite = p := by
  rw [Part.tearWrite, h]

/-- A store write cut off touches its own row alone. -/
theorem Part.tearWrite_storedRow_other {p : Part} {w : StoreWrite} {l : List StoreWrite} (h : p.store.writes = w :: l) {r : Nat}
    (hr : r ≠ w.row) : p.tearWrite.store.storedRow r = p.store.storedRow r := by
  rw [Part.tearWrite, h]
  exact updateAt_getD_other p.store.stored w.row r _ noStoredRow (Ne.symm hr)

/-- A store write cut off writes the stored rows, the writes and the free value drawn, and nothing else. -/
theorem Part.tearWrite_frame (p : Part) : p.tearWrite =
    { p with store := { p.store with stored := p.tearWrite.store.stored, writes := p.tearWrite.store.writes },
             free := p.tearWrite.free } := by
  unfold Part.tearWrite
  split <;> rfl

/-- One line of a list of lines that are all changed alike. -/
theorem Clocks.line_map (c : Clocks) (f : ClockLine → ClockLine) (i : Nat) :
    ({ c with lines := c.lines.map f } : Clocks).line i = if i < c.lines.length then f (c.line i) else c.line i := by
  unfold Clocks.line
  simp only [List.getD_eq_getElem?_getD, List.getElem?_map]
  split
  · next h => rw [List.getElem?_eq_getElem h]; rfl
  · next h => rw [List.getElem?_eq_none (Nat.not_lt.mp h)]; rfl

theorem Clocks.line_of_length_le {c : Clocks} {i : Nat} (h : c.lines.length ≤ i) : c.line i = resetClockLine := by
  rw [Clocks.line, List.getD_eq_getElem?_getD, List.getElem?_eq_none h]
  rfl

/-- A clock line after the loss of power: no impulse and no retry. -/
theorem Part.losePower_line (p : Part) (i : Nat) : p.losePower.clocks.line i =
    if i < p.clocks.lines.length then
      { p.clocks.line i with impulse := none, retryImpulse := false, retryAt := none }
    else p.clocks.line i := by
  have h : p.losePower.clocks.line i =
      ({ p.tearWrite.clocks with lines := p.tearWrite.clocks.lines.map fun k =>
          { k with impulse := none, retryImpulse := false, retryAt := none } } : Clocks).line i := rfl
  rw [h, Clocks.line_map, p.tearWrite_frame]

theorem Part.losePower_port (p : Part) (l : Link) : p.losePower.port l = (p.port l).dark := by
  have h : p.losePower.port l = (p.tearWrite.port l).dark := by cases l <;> rfl
  rw [h, p.tearWrite_frame]
  cases l <;> rfl

/-- Settles O11: what `losePower` writes, field by field. -/
theorem powerLossEndsActivity : Obligations.PowerLossEndsActivity := by
  intro s hp
  have hstore : s.part.losePower.store = s.part.tearWrite.store := rfl
  have hframe := s.part.tearWrite_frame
  refine ⟨s.part.losePower, act_powered _ s hp, rfl, s.part.tearWrite_writes, fun hnone => ?none, fun w l hw r hr => ?other,
    congrArg (·.store.working) hframe, fun i => ?line, rfl, rfl, rfl, rfl, fun l => ?port, congrArg (·.time) hframe,
    congrArg (·.table) hframe, congrArg (·.own) hframe, congrArg (·.notices) hframe, congrArg (·.image) hframe,
    congrArg (·.inputs) hframe, congrArg (·.feed) hframe, congrArg (·.elapsed) hframe⟩
  case none => rw [hstore, Part.tearWrite_of_none hnone]
  case other => rw [hstore, Part.tearWrite_storedRow_other hw hr]
  case line =>
    rw [Part.losePower_line]
    split
    · exact ⟨rfl, rfl, rfl⟩
    · next h => rw [Clocks.line_of_length_le (Nat.not_lt.mp h)]; exact ⟨rfl, rfl, rfl⟩
  case port =>
    rw [Part.losePower_port]
    exact ⟨rfl, rfl, rfl, rfl⟩

/-! ## Requests received (R186) -/

theorem Part.receive_of_place {p : Part} {l : Link} (f : RequestFrame) (h : (p.port l).buffer.length < 4) :
    p.receive l f = p.modPort l fun q => { q with buffer := q.buffer ++ [f], inFrame := false } := if_pos h

/-- Whether a port gathers a frame is not in its SUMMARY. -/
theorem Part.summary_modPort_inFrame (p : Part) (l : Link) (b : Bool) :
    (p.modPort l fun q => { q with inFrame := b }).summary l = p.summary l := by
  cases l <;> rfl

/-- A request with no place is answered BUSY at once. -/
theorem Part.receive_of_full {p : Part} {l : Link} (f : RequestFrame) (h : 4 ≤ (p.port l).buffer.length) :
    p.receive l f = p.modPort l fun _ =>
      ({ p.port l with inFrame := false,
                       tx := (p.port l).tx ++ [.reply (replyKind f.kind) f.tag (p.summary l) Result.busy.code []] } : Port).begin
        p.elapsed := by
  rw [Part.receive, if_neg (Nat.not_lt.mpr h), Part.compose, Part.send, Part.summary_modPort_inFrame]
  cases l <;> rfl

/-! ## Notice frames (R186, R190) -/

/-- The SUMMARY of a link reads nothing of its line. -/
theorem Part.summary_modPort_line (p : Part) (l : Link) (tx : List OutFrame) (e : Option Nat) (due : Bool) :
    (p.modPort l fun _ => { p.port l with tx := tx, lineEnd := e, noticeDue := due }).summary l = p.summary l := by
  cases l <;> rfl

/-- A port whose line is replaced, carried on from there. -/
theorem Part.advanceTo_port_line (p : Part) (t : Nat) (l : Link) (tx : List OutFrame) (e : Option Nat) (due : Bool) :
    ((p.modPort l fun _ => { p.port l with tx := tx, lineEnd := e, noticeDue := due }).advanceTo t).port l =
      ({ p.port l with tx := tx, lineEnd := e, noticeDue := due } : Port).carry (p.summary l) p.elapsed (max p.elapsed t) := by
  rw [Part.advanceTo_port, Part.summary_modPort_line, Part.modPort_port_same, Part.modPort_elapsed]

/-- A free line with a notice frame that waits stays at the very instant. -/
theorem Port.carry_at (q : Port) (m : Byte) (n : Nat) (he : q.lineEnd = none) : q.carry m n n = q := by
  unfold Port.carry Port.flow
  rw [he]
  simp only [lineAt, Option.getD_none, lt_self_iff_false, decide_false, Bool.and_false, Bool.false_eq_true, if_false]
  rw [← he]

/-- No notice frame waits on a line that has been carried beyond the instant it was free. -/
theorem Port.carry_noticeDue_of_lt (q : Port) (m : Byte) (s n : Nat) (h : q.lineEnd.getD s < n) :
    (q.carry m s n).noticeDue = false := by
  unfold Port.carry
  cases hd : q.noticeDue with
  | false => rw [Bool.false_and, if_neg Bool.false_ne_true]; exact hd
  | true => rw [Bool.true_and, if_pos (decide_eq_true h)]; rfl

/-- The port in which a notice frame waits, carried to the instant its line is free. -/
theorem Port.carry_to_free (q : Port) (m : Byte) (now : Nat) (hd : q.noticeDue = true) (h : now ≤ q.lineEnd.getD now) :
    q.carry m now (max now (q.lineEnd.getD now)) =
      { q with tx := if q.lineEnd.isSome then q.tx.drop 1 else q.tx, lineEnd := none } := by
  rw [Nat.max_eq_right h]
  cases he : q.lineEnd with
  | none => rw [Option.getD_none, Port.carry_at q m now he, if_neg (by simp), ← he]
  | some e => rw [Option.getD_some, Port.carry_held q m now e hd he]; rfl

/-- A notice frame that waits begins at the instant the line is free, if that is still to come. -/
theorem Part.sendNotice_ahead {p : Part} {l : Link} (hd : (p.port l).noticeDue = true)
    (h : p.elapsed ≤ (p.port l).lineEnd.getD p.elapsed) :
    p.sendNotice l = (p.advanceTo ((p.port l).lineEnd.getD p.elapsed)).modPort l fun _ =>
      ({ p.port l with
        tx := if (p.port l).lineEnd.isSome then (p.port l).tx.drop 1 else (p.port l).tx, lineEnd := none } : Port).beginNotice
        ((p.advanceTo ((p.port l).lineEnd.getD p.elapsed)).summary l) ((p.port l).lineEnd.getD p.elapsed) := by
  have hport := (p.advanceTo_port ((p.port l).lineEnd.getD p.elapsed) l).trans
    (Port.carry_to_free (p.port l) (p.summary l) p.elapsed hd h)
  have hdue : ((p.advanceTo ((p.port l).lineEnd.getD p.elapsed)).port l).noticeDue = true := by rw [hport]; exact hd
  rw [Part.sendNotice, if_pos hd]
  dsimp only
  rw [if_pos hdue, Part.advanceTo_elapsed, Nat.max_eq_right h]
  exact Part.modPort_congr _ l (by rw [hport])

/-- A notice frame that elapsed time has passed has begun as its line was carried. -/
theorem Part.sendNotice_passed {p : Part} {l : Link} (hd : (p.port l).noticeDue = true)
    (h : (p.port l).lineEnd.getD p.elapsed < p.elapsed) :
    p.sendNotice l = p.advanceTo ((p.port l).lineEnd.getD p.elapsed) := by
  have hdue : ((p.advanceTo ((p.port l).lineEnd.getD p.elapsed)).port l).noticeDue = false := by
    rw [Part.advanceTo_port]
    exact Port.carry_noticeDue_of_lt _ _ _ _ (lt_of_lt_of_le h (le_max_left _ _))
  rw [Part.sendNotice, if_pos hd]
  dsimp only
  rw [if_neg (by rw [hdue]; exact Bool.false_ne_true)]

/-- Settles O12: a request received by its two cases, a notice frame by whether its instant has passed, and a line carried by
the rules of `Port.carry`. -/
theorem framesReceivedAndNoticeFrameSent : Obligations.FramesReceivedAndNoticeFrameSent := by
  refine ⟨fun s l f hp => ⟨fun hplace => ?place, fun hfull => ?full⟩, fun s l hp hd => ⟨fun h => ?ahead, fun h => ?passed⟩,
    fun p t => ⟨rfl, fun l => ?line⟩⟩
  case place => exact leaves_act (·.receive l f) rfl hp (Part.receive_of_place f hplace)
  case full =>
    refine ⟨_, leaves_act (·.receive l f) rfl hp (Part.receive_of_full f hfull), Port.begin_buffer _ _, ?_,
      fun hbusy => Port.begin_lineEnd_of_busy _ _ hbusy, ?_⟩
    · rw [Port.begin_frame]; rfl
    · rw [Port.begin_frame]
  case ahead => exact leaves_act (·.sendNotice l) rfl hp (Part.sendNotice_ahead hd h)
  case passed => exact leaves_act (·.sendNotice l) rfl hp (Part.sendNotice_passed hd h)
  case line =>
    have hport := p.advanceTo_port t l
    refine ⟨?frame, fun e he hlt => ?before, fun he hd => ?free, fun e f he hle hd htx => ?last,
      fun e f g rest he hle hd htx => ?next, fun he hd => ?held, fun he hd hnow => ?still, fun hd hlt => ?notice⟩
    case frame => rw [hport]; exact Port.carry_frame _ _ _ _
    case before => rw [hport, Port.carry_before _ _ _ _ e he hlt]
    case free => rw [hport, Port.carry_free _ _ _ _ hd he]
    case last => rw [hport, Port.carry_last _ _ _ _ e f hd he htx hle]
    case next =>
      rw [hport, Port.carry_next _ _ _ _ e f g rest hd he htx hle]
      exact (p.advanceTo_port_line t l _ _ _).symm
    case held => rw [hport, Port.carry_held _ _ _ _ hd he]
    case still => rw [hport, hnow, Port.carry_at _ _ _ he]
    case notice =>
      rw [hport, Port.carry_notice _ _ _ _ hd hlt]
      exact (p.advanceTo_port_line t l _ _ _).symm

end Sys2Proof.Machine
end

section
/-! The checks that come before a request's own rule: what each reader takes, and which reader each kind has. -/

namespace Sys2Proof.Machine

/-! ## What the readers take -/

theorem readEmpty_isSome (b : List Byte) : (readEmpty b).isSome = true ↔ b.length = 0 := by
  cases b <;> simp [readEmpty]

theorem readFields_isSome (sizes : List Nat) (b : List Byte) : (readFields sizes b).isSome = true ↔ b.length = sizes.sum := by
  induction sizes generalizing b with
  | nil => cases b <;> simp [readFields]
  | cons n sizes ih =>
    rw [readFields, readBe]
    by_cases h : n ≤ b.length
    · simp only [if_pos h, Option.isSome_map, ih, List.length_drop, List.sum_cons]
      omega
    · simp only [if_neg h, Option.isSome_none, Bool.false_eq_true, List.sum_cons, false_iff]
      omega

theorem readFields_length {sizes : List Nat} {b : List Byte} {vs : List Nat} (h : readFields sizes b = some vs) :
    vs.length = sizes.length := by
  induction sizes generalizing b vs with
  | nil =>
    cases b with
    | nil => cases h; rfl
    | cons x b => cases h
  | cons n sizes ih =>
    rw [readFields, readBe] at h
    split at h
    · cases h
    · obtain ⟨ws, hws, rfl⟩ := Option.map_eq_some_iff.mp h
      rw [List.length_cons, ih hws, List.length_cons]

/-- A body of one number is read when it has the number's bytes. -/
theorem readOne_isSome (n : Nat) (b : List Byte) : (readOne n b).isSome = true ↔ b.length = n := by
  have hsome := readFields_isSome [n] b
  rw [List.sum_cons, List.sum_nil, Nat.add_zero] at hsome
  rw [← hsome, readOne]
  cases h : readFields [n] b with
  | none => rfl
  | some vs =>
    obtain ⟨v, rfl⟩ := List.length_eq_one_iff.mp (readFields_length h)
    rfl

theorem readTwo_isSome (m n : Nat) (b : List Byte) : (readTwo m n b).isSome = true ↔ b.length = m + n := by
  have hsome := readFields_isSome [m, n] b
  rw [List.sum_cons, List.sum_cons, List.sum_nil, Nat.add_zero] at hsome
  rw [← hsome, readTwo]
  cases h : readFields [m, n] b with
  | none => rfl
  | some vs =>
    obtain ⟨v, w, rfl⟩ := List.length_eq_two.mp (readFields_length h)
    rfl

theorem readWallTest_isSome (b : List Byte) : (readWallTest b).isSome = true ↔ b.length = 3 := by
  show (readWallTest b).isSome = true ↔ b.length = [1, 1, 1].sum
  rw [← readFields_isSome [1, 1, 1] b, readWallTest]
  cases h : readFields [1, 1, 1] b with
  | none => rfl
  | some vs =>
    obtain ⟨u, v, w, rfl⟩ := List.length_eq_three.mp (readFields_length h)
    rfl

theorem readClockLineSet_isSome (b : List Byte) : (readClockLineSet b).isSome = true ↔ b.length = 4 := by
  show (readClockLineSet b).isSome = true ↔ b.length = [1, 2, 1].sum
  rw [← readFields_isSome [1, 2, 1] b, readClockLineSet]
  cases h : readFields [1, 2, 1] b with
  | none => rfl
  | some vs =>
    obtain ⟨u, v, w, rfl⟩ := List.length_eq_three.mp (readFields_length h)
    rfl

theorem exists_five_of_length {l : List Nat} (h : l.length = 5) : ∃ a b c d e, l = [a, b, c, d, e] := by
  match l, h with
  | [a, b, c, d, e], _ => exact ⟨a, b, c, d, e, rfl⟩

theorem readTimeSet_isSome (b : List Byte) : (readTimeSet b).isSome = true ↔ b.length = 9 := by
  show (readTimeSet b).isSome = true ↔ b.length = [2, 1, 1, 4, 1].sum
  rw [← readFields_isSome [2, 1, 1, 4, 1] b, readTimeSet]
  cases h : readFields [2, 1, 1, 4, 1] b with
  | none => rfl
  | some vs =>
    obtain ⟨y, m, d, s, f, rfl⟩ := exists_five_of_length (readFields_length h)
    rfl

theorem readServiceUpdate_isSome (b : List Byte) : (readServiceUpdate b).isSome = true ↔ b.length = 9 := by
  show (readServiceUpdate b).isSome = true ↔ b.length = [2, 1, 1, 4, 1].sum
  rw [← readFields_isSome [2, 1, 1, 4, 1] b, readServiceUpdate]
  cases h : readFields [2, 1, 1, 4, 1] b with
  | none => rfl
  | some vs =>
    obtain ⟨i, m, pl, e, st, rfl⟩ := exists_five_of_length (readFields_length h)
    rfl

/-- A number at the head of a body, and what is read after it. -/
theorem readBe_bind_isSome {β : Type} (n : Nat) (b : List Byte) (f : Nat × List Byte → Option β) :
    ((readBe n b).bind f).isSome = true ↔ n ≤ b.length ∧ (f (ofBe (b.take n), b.drop n)).isSome = true := by
  rw [readBe]
  split
  · next h => simp [h]
  · next h => simp [h]

theorem bind_some_isSome {α β : Type} (x : Option α) (f : α → β) : (x.bind fun a => some (f a)).isSome = x.isSome := by
  cases x <;> rfl

theorem ofBe_take_one (b : List Byte) : ofBe (b.take 1) = (b.getD 0 0).toNat := by
  cases b <;> simp [ofBe]

theorem readText_eq (b : List Byte) : readText b = if 1 + (b.getD 0 0).toNat ≤ b.length then
    some ((b.drop 1).take (b.getD 0 0).toNat, b.drop (1 + (b.getD 0 0).toNat)) else none := by
  cases b with
  | nil => rfl
  | cons x b => simp [readText, Nat.add_comm 1]

theorem readText_bind_isSome {β : Type} (b : List Byte) (f : Text × List Byte → Option β) :
    ((readText b).bind f).isSome = true ↔ 1 + (b.getD 0 0).toNat ≤ b.length ∧
      (f ((b.drop 1).take (b.getD 0 0).toNat, b.drop (1 + (b.getD 0 0).toNat))).isSome = true := by
  rw [readText_eq]
  split
  · next h => simp only [h, Option.bind_some, true_and]
  · next h => simp only [h, Option.bind_none, Option.isSome_none, Bool.false_eq_true, false_and]

theorem getD_drop (b : List Byte) (i j : Nat) : (b.drop i).getD j 0 = b.getD (i + j) 0 := by
  simp [List.getD_eq_getElem?_getD]

/-- Numbers one after another are read when nothing is over. -/
theorem readAll_readBe_isSome (m n : Nat) (b : List Byte) : (readAll (readBe m) n b).isSome = true ↔ b.length = m * n := by
  induction n generalizing b with
  | zero => cases b <;> simp [readAll]
  | succ n ih =>
    rw [readAll, readBe]
    by_cases h : m ≤ b.length
    · simp only [if_pos h, Option.isSome_map, ih, List.length_drop, Nat.mul_succ]
      omega
    · simp only [if_neg h, Option.isSome_none, Bool.false_eq_true, Nat.mul_succ, false_iff]
      omega

theorem readServiceRemove_isSome (b : List Byte) : (readServiceRemove b).isSome = true ↔
    1 ≤ b.length ∧ b.length = 1 + 2 * (b.getD 0 0).toNat := by
  unfold readServiceRemove
  rw [Option.bind_eq_bind, readBe_bind_isSome]
  dsimp only
  rw [readAll_readBe_isSome, ofBe_take_one, List.length_drop]
  omega

/-- A body of a byte, four bytes and a text. -/
theorem textBody_isSome {β : Type} (b : List Byte) (f : Nat → Nat → Text → β) :
    ((readBe 1 b).bind fun x => (readBe 4 x.2).bind fun y => (readText y.2).bind fun z =>
        if z.2.isEmpty then some (f x.1 y.1 z.1) else none).isSome = true ↔
      6 ≤ b.length ∧ b.length = 6 + (b.getD 5 0).toNat := by
  rw [readBe_bind_isSome, readBe_bind_isSome, readText_bind_isSome]
  simp only [List.drop_drop, getD_drop, List.length_drop, Nat.reduceAdd, apply_ite Option.isSome, Option.isSome_some,
    Option.isSome_none, List.isEmpty_iff_length_eq_zero, ite_eq_left_iff, Bool.false_eq_true, imp_false, not_not]
  omega

theorem readNoticePost_isSome (b : List Byte) : (readNoticePost b).isSome = true ↔
    6 ≤ b.length ∧ b.length = 6 + (b.getD 5 0).toNat :=
  textBody_isSome b fun pr e t => (pr, absentIfOnes e, t)

theorem readBannerSet_isSome (b : List Byte) : (readBannerSet b).isSome = true ↔
    6 ≤ b.length ∧ b.length = 6 + (b.getD 5 0).toNat :=
  textBody_isSome b fun fl e t => (fl % 2 == 1, absentIfOnes e, t)

theorem readCuePost_isSome (b : List Byte) : (readCuePost b).isSome = true ↔
    6 ≤ b.length ∧ b.length = 6 + 2 * (b.getD 5 0).toNat := by
  unfold readCuePost
  simp only [Option.bind_eq_bind]
  iterate 5
    rw [readBe_bind_isSome]
    dsimp only
  rw [bind_some_isSome, readAll_readBe_isSome]
  simp only [List.drop_drop, List.length_drop, Nat.reduceAdd, ofBe_take_one, getD_drop]
  omega

theorem readSettingsWrite_isSome (b : List Byte) : (readSettingsWrite b).isSome = true ↔ 3 ≤ b.length ∧ b.length ≤ 66 := by
  match b with
  | [] => simp [readSettingsWrite]
  | [_] => simp [readSettingsWrite]
  | r :: o :: bytes =>
    simp only [readSettingsWrite, apply_ite Option.isSome, Option.isSome_some, Option.isSome_none, ite_eq_left_iff,
      Bool.false_eq_true, imp_false, not_not, Bool.and_eq_true, decide_eq_true_eq, List.length_cons]
    omega

/-- A text as it is read: its length byte and its characters. -/
theorem readText_some {b rest : List Byte} {t : Text} (h : readText b = some (t, rest)) :
    b = (BitVec.ofNat 8 t.length :: t) ++ rest := by
  cases b with
  | nil => cases h
  | cons x b =>
    rw [readText] at h
    split at h
    · next hle =>
      obtain ⟨rfl, rfl⟩ := Prod.mk.inj (Option.some.inj h)
      rw [List.length_take_of_le hle]
      simp
    · cases h

/-- Items one after another: as many as asked for, and the body is theirs end to end. -/
theorem readAll_some {α : Type} {item : List Byte → Option (α × List Byte)} {n : Nat} {b : List Byte} {as : List α}
    (h : readAll item n b = some as) : as.length = n ∧
      ∀ bytes : α → List Byte, (∀ l a rest, item l = some (a, rest) → l = bytes a ++ rest) → b = as.flatMap bytes := by
  induction n generalizing b as with
  | zero =>
    cases b with
    | nil => cases h; exact ⟨rfl, fun _ _ => rfl⟩
    | cons x b => cases h
  | succ n ih =>
    rw [readAll] at h
    split at h
    · cases h
    · next a rest hitem =>
      obtain ⟨l, hl, rfl⟩ := Option.map_eq_some_iff.mp h
      obtain ⟨hlen, hbytes⟩ := ih hl
      refine ⟨congrArg (· + 1) hlen, fun bytes hone => ?_⟩
      rw [hone b a rest hitem, hbytes bytes hone, List.flatMap_cons]

theorem readBe_some {n v : Nat} {b rest : List Byte} (h : readBe n b = some (v, rest)) :
    n ≤ b.length ∧ v = ofBe (b.take n) ∧ rest = b.drop n := by
  rw [readBe] at h
  split at h
  · next hle =>
    obtain ⟨rfl, rfl⟩ := Prod.mk.inj (Option.some.inj h)
    exact ⟨hle, rfl, rfl⟩
  · cases h

/-- The names of a NAME_LOAD body, with the index and the count before them. -/
theorem readNameLoad_some {b : List Byte} {i : Nat} {names : List Text} (h : readNameLoad b = some (i, names)) :
    i = (b.getD 0 0).toNat ∧ names.length = (b.getD 1 0).toNat ∧
      b = b.take 2 ++ names.flatMap fun n => BitVec.ofNat 8 n.length :: n := by
  unfold readNameLoad at h
  obtain ⟨⟨i', l⟩, hi, h⟩ := Option.bind_eq_some_iff.mp h
  obtain ⟨⟨n, l'⟩, hn, h⟩ := Option.bind_eq_some_iff.mp h
  obtain ⟨all, hall, h⟩ := Option.bind_eq_some_iff.mp h
  obtain ⟨rfl, rfl⟩ := Prod.mk.inj (Option.some.inj h)
  obtain ⟨_, rfl, rfl⟩ := readBe_some hi
  obtain ⟨_, rfl, rfl⟩ := readBe_some hn
  obtain ⟨hlen, hbytes⟩ := readAll_some hall
  have hrest := hbytes (fun t => BitVec.ofNat 8 t.length :: t) fun l a rest => readText_some
  rw [ofBe_take_one, getD_drop] at hlen
  refine ⟨ofBe_take_one b, hlen, ?_⟩
  rw [← hrest, List.drop_drop, List.take_append_drop]

/-- The bytes of one record of a SERVICE_PUT body. -/
theorem readPutRecord_length {l rest : List Byte} {r : PutRecord} (h : readPutRecord l = some (r, rest)) :
    l.length = 16 + r.label.length + r.calls.length + rest.length := by
  unfold readPutRecord at h
  simp only [Option.bind_eq_bind, Option.bind_eq_some_iff] at h
  obtain ⟨⟨_, l1⟩, h1, ⟨_, l2⟩, h2, ⟨_, l3⟩, h3, ⟨_, l4⟩, h4, ⟨_, l5⟩, h5, ⟨_, l6⟩, h6, ⟨_, l7⟩, h7, ⟨_, l8⟩, h8,
    ⟨n, l9⟩, h9, h⟩ := h
  obtain ⟨hb1, -, rfl⟩ := readBe_some h1
  obtain ⟨hb2, -, rfl⟩ := readBe_some h2
  obtain ⟨hb3, -, rfl⟩ := readBe_some h3
  obtain ⟨hb4, -, rfl⟩ := readBe_some h4
  obtain ⟨hb5, -, rfl⟩ := readBe_some h5
  obtain ⟨hb6, -, rfl⟩ := readBe_some h6
  obtain ⟨hb7, -, rfl⟩ := readBe_some h7
  have h8 := congrArg List.length (readText_some h8)
  obtain ⟨hb9, -, rfl⟩ := readBe_some h9
  simp only [List.length_drop, List.length_append, List.length_cons] at *
  split at h
  · next hn =>
    obtain ⟨rfl, rfl⟩ := Prod.mk.inj (Option.some.inj h)
    simp only [List.length_map, List.length_take, List.length_drop]
    omega
  · cases h

/-- Items one after another take the bytes of each. -/
theorem readAll_bytes {α : Type} {item : List Byte → Option (α × List Byte)} {size : α → Nat}
    (hone : ∀ l a rest, item l = some (a, rest) → l.length = size a + rest.length) {n : Nat} {b : List Byte} {as : List α}
    (h : readAll item n b = some as) : b.length = (as.map size).sum := by
  induction n generalizing b as with
  | zero =>
    cases b with
    | nil => cases h; rfl
    | cons x b => cases h
  | succ n ih =>
    rw [readAll] at h
    split at h
    · cases h
    · next a rest hitem =>
      obtain ⟨l, hl, rfl⟩ := Option.map_eq_some_iff.mp h
      rw [hone b a rest hitem, ih hl, List.map_cons, List.sum_cons]

theorem readServicePut_some {b : List Byte} {rs : List PutRecord} (h : readServicePut b = some rs) :
    rs.length = (b.getD 0 0).toNat ∧ b.length = 1 + (rs.map fun r => 16 + r.label.length + r.calls.length).sum := by
  unfold readServicePut at h
  obtain ⟨⟨n, l⟩, hn, hall⟩ := Option.bind_eq_some_iff.mp h
  obtain ⟨hb, rfl, rfl⟩ := readBe_some hn
  have hsum := readAll_bytes (fun l a rest => readPutRecord_length) hall
  rw [List.length_drop] at hsum
  exact ⟨ofBe_take_one b ▸ (readAll_some hall).1, by omega⟩

end Sys2Proof.Machine
end

section
/-! The checks that come before a request's own rule (R187): each kind of request, with the reader of its body. -/

namespace Sys2Proof.Machine

/-- The command `c` runs a request of kind `kind` whose body is read when `readable` holds. -/
def RunsRequest (c : Instr) (kind : Nat) (rq : Req) (readable : Prop) : Prop :=
  ∃ (α : Type) (read : List Byte → Option α) (handler : Link → α → Part → Answer),
    (∀ s, exec c s = act (runRequest kind read handler rq) s) ∧ ((read rq.body).isSome = true ↔ readable)

/-- A request whose length is wrong is refused before anything else. -/
theorem answers_badLength {α : Type} {c : Instr} {kind : Nat} {read : List Byte → Option α} {handler : Link → α → Part → Answer}
    {rq : Req} {s : State} (hc : exec c s = act (runRequest kind read handler rq) s) (hp : s.part.powered = true)
    (he : s.part.canExecute rq.link (requestFrame rq kind) = true) (hr : read rq.body = none) :
    Answers c s kind rq s.part .badLength [] := by
  rw [requestFrame] at he
  rw [Answers, hc, act_powered _ s hp, answered, ← kind_add, runRequest, if_pos he, hr]
  rfl

/-- A request of the Information link that comes on the other one is refused next. -/
theorem answers_notPermitted {α : Type} {c : Instr} {kind : Nat} {read : List Byte → Option α}
    {handler : Link → α → Part → Answer} {rq : Req} {s : State} (hc : exec c s = act (runRequest kind read handler rq) s)
    (hp : s.part.powered = true) (he : s.part.canExecute rq.link (requestFrame rq kind) = true)
    (hr : (read rq.body).isSome = true) (hl : rq.link = .control) (hk : kind ∈ informationKinds) :
    Answers c s kind rq s.part .notPermitted [] := by
  obtain ⟨a, ha⟩ := Option.isSome_iff_exists.mp hr
  have hbarred : (rq.link == Link.control && informationKinds.contains kind) = true := by simp [hl, hk]
  rw [requestFrame] at he
  rw [Answers, hc, act_powered _ s hp, answered, ← kind_add, runRequest, if_pos he, ha]
  dsimp only
  rw [if_pos hbarred]
  rfl

/-- The two checks that come first, of a request that can be executed. -/
theorem RunsRequest.checks {c : Instr} {kind : Nat} {rq : Req} {readable : Prop} (h : RunsRequest c kind rq readable) {s : State}
    (hp : s.part.powered = true) (he : s.part.canExecute rq.link (requestFrame rq kind) = true) :
    (¬readable → Answers c s kind rq s.part .badLength []) ∧
      (readable → rq.link = .control → kind ∈ informationKinds → Answers c s kind rq s.part .notPermitted []) := by
  obtain ⟨α, read, handler, hc, hread⟩ := h
  refine ⟨fun hnot => answers_badLength (hc s) hp he ?_, fun hok hl hk => answers_notPermitted (hc s) hp he (hread.mpr hok) hl hk⟩
  exact Option.not_isSome_iff_eq_none.mp fun hsome => hnot (hread.mp hsome)

/-- The three rows of PANEL_SPARE run one rule. -/
theorem exec_spareCommand (rq : Req) (s : State) :
    exec (spareCommand rq) s = act (runRequest 0x23 (readTwo 1 1) panelSpare rq) s := by
  unfold spareCommand
  split
  · next h => show execPanelSpareRelease rq s = _; simp only [execPanelSpareRelease, h, if_true]
  · next h1 =>
    split
    · next h => show execPanelSpareAutomatic rq s = _; simp only [execPanelSpareAutomatic, h, if_true]
    · next h2 =>
      have hpin : isSparePin rq.body = true := by simp [isSparePin, h1, h2]
      show execPanelSparePin rq s = _
      simp only [execPanelSparePin, hpin, if_true]

/-- The three rows of WALL_TEST run one rule. -/
theorem exec_testCommandOf (rq : Req) (s : State) :
    exec (testCommandOf rq) s = act (runRequest 0x24 readWallTest wallTest rq) s := by
  unfold testCommandOf
  split
  · next h => show execWallTestStop rq s = _; simp only [execWallTestStop, h, if_true]
  · next h1 =>
    split
    · next h => show execWallTestInsertError rq s = _; simp only [execWallTestInsertError, h, if_true]
    · next h2 =>
      have hstart : isTestStart rq.body = true := by simp [isTestStart, h1, h2]
      show execWallTestStart rq s = _
      simp only [execWallTestStart, hstart, if_true]

theorem runsRequest_spare (rq : Req) : RunsRequest (spareCommand rq) 0x23 rq (rq.body.length = 2) :=
  ⟨_, readTwo 1 1, panelSpare, exec_spareCommand rq, readTwo_isSome 1 1 rq.body⟩

theorem runsRequest_test (rq : Req) : RunsRequest (testCommandOf rq) 0x24 rq (rq.body.length = 3) :=
  ⟨_, readWallTest, wallTest, exec_testCommandOf rq, readWallTest_isSome rq.body⟩

theorem mem_of_toNat_mem {k : Byte} {l : List Byte} (h : k.toNat ∈ l.map BitVec.toNat) : k ∈ l :=
  (List.mem_map_of_injective fun _ _ => BitVec.eq_of_toNat_eq).mp h

theorem runsRequest_empty {l : Link} {f : RequestFrame} 
    (h : f.kind ∈ [0x01, 0x05, 0x07, 0x08, 0x0A, 0x21, 0x30, 0x33, 0x38, 0x43, 0x44]) :
    RunsRequest (commandOf l f) f.kind.toNat { link := l, tag := f.tag, body := f.body } (f.body.length = 0) := by
  obtain ⟨kind, tag, body⟩ := f
  simp only [List.mem_cons, List.not_mem_nil, or_false] at h
  rcases h with rfl | rfl | rfl | rfl | rfl | rfl | rfl | rfl | rfl | rfl | rfl <;>
    exact ⟨_, readEmpty, _, fun _ => rfl, readEmpty_isSome body⟩

theorem runsRequest_byte {l : Link} {f : RequestFrame} (h : f.kind ∈ [0x04, 0x19, 0x22, 0x32, 0x42]) :
    RunsRequest (commandOf l f) f.kind.toNat { link := l, tag := f.tag, body := f.body } (f.body.length = 1) := by
  obtain ⟨kind, tag, body⟩ := f
  simp only [List.mem_cons, List.not_mem_nil, or_false] at h
  rcases h with rfl | rfl | rfl | rfl | rfl <;> exact ⟨_, readOne 1, _, fun _ => rfl, readOne_isSome 1 body⟩

theorem runsRequest_twoBytes {l : Link} {f : RequestFrame} (h : f.kind ∈ [0x06, 0x14, 0x1A, 0x20, 0x40]) :
    RunsRequest (commandOf l f) f.kind.toNat { link := l, tag := f.tag, body := f.body } (f.body.length = 2) := by
  obtain ⟨kind, tag, body⟩ := f
  simp only [List.mem_cons, List.not_mem_nil, or_false] at h
  rcases h with rfl | rfl | rfl | rfl | rfl <;> exact ⟨_, readTwo 1 1, _, fun _ => rfl, readTwo_isSome 1 1 body⟩

theorem runsRequest_word {l : Link} {f : RequestFrame} (h : f.kind ∈ [0x13, 0x29, 0x2A]) :
    RunsRequest (commandOf l f) f.kind.toNat { link := l, tag := f.tag, body := f.body } (f.body.length = 2) := by
  obtain ⟨kind, tag, body⟩ := f
  simp only [List.mem_cons, List.not_mem_nil, or_false] at h
  rcases h with rfl | rfl | rfl <;> exact ⟨_, readOne 2, _, fun _ => rfl, readOne_isSome 2 body⟩

theorem runsRequest_set {l : Link} {f : RequestFrame} (h : f.kind ∈ [0x02, 0x03]) :
    RunsRequest (commandOf l f) f.kind.toNat { link := l, tag := f.tag, body := f.body } (f.body.length = 4) := by
  obtain ⟨kind, tag, body⟩ := f
  simp only [List.mem_cons, List.not_mem_nil, or_false] at h
  rcases h with rfl | rfl <;> exact ⟨_, readOne 4, _, fun _ => rfl, readOne_isSome 4 body⟩

/-- A request frame of one kind, its command and its checks. -/
theorem runsRequest_of_kind {l : Link} {f : RequestFrame} {k : Byte} {readable : Prop} (h : f.kind = k)
    (hrun : RunsRequest (commandOf l { f with kind := k }) k.toNat { link := l, tag := f.tag, body := f.body } readable) :
    RunsRequest (commandOf l f) f.kind.toNat { link := l, tag := f.tag, body := f.body } readable := by
  subst h
  exact hrun

/-- The kinds whose body has one length. -/
theorem runsRequest_fixedLength {l : Link} {f : RequestFrame} {n : Nat} (h : fixedLength f.kind.toNat = some n) :
    RunsRequest (commandOf l f) f.kind.toNat { link := l, tag := f.tag, body := f.body } (f.body.length = n) := by
  have hkind (k : Byte) (hk : f.kind.toNat = k.toNat) : f.kind = k := BitVec.eq_of_toNat_eq hk
  unfold fixedLength at h
  split at h
  next hk =>
    obtain rfl := Option.some.inj h
    exact runsRequest_empty (mem_of_toNat_mem (List.contains_iff_mem.mp hk))
  split at h
  next hk =>
    obtain rfl := Option.some.inj h
    exact runsRequest_byte (mem_of_toNat_mem (List.contains_iff_mem.mp hk))
  split at h
  next hk =>
    obtain rfl := Option.some.inj h
    simp only [List.contains_iff_mem, List.mem_cons, List.not_mem_nil, or_false] at hk
    by_cases hspare : f.kind.toNat = 0x23
    · exact runsRequest_of_kind (hkind 0x23 hspare) (runsRequest_spare _)
    by_cases hword : f.kind.toNat ∈ [0x13, 0x29, 0x2A]
    · exact runsRequest_word (mem_of_toNat_mem (l := [0x13, 0x29, 0x2A]) hword)
    · simp only [List.mem_cons, List.not_mem_nil, or_false] at hword
      exact runsRequest_twoBytes (mem_of_toNat_mem (l := [0x06, 0x14, 0x1A, 0x20, 0x40]) <| by simp; omega)
  split at h
  next hk =>
    obtain rfl := Option.some.inj h
    exact runsRequest_of_kind (hkind 0x24 hk) (runsRequest_test _)
  split at h
  next hk =>
    obtain rfl := Option.some.inj h
    simp only [List.contains_iff_mem, List.mem_cons, List.not_mem_nil, or_false] at hk
    by_cases hline : f.kind.toNat = 0x31
    · exact runsRequest_of_kind (hkind 0x31 hline) ⟨_, readClockLineSet, _, fun _ => rfl, readClockLineSet_isSome _⟩
    · exact runsRequest_set (mem_of_toNat_mem (l := [0x02, 0x03]) <| by simp; omega)
  split at h
  next hk =>
    obtain rfl := Option.some.inj h
    simp only [List.contains_iff_mem, List.mem_cons, List.not_mem_nil, or_false] at hk
    rcases hk with hk | hk
    · exact runsRequest_of_kind (hkind 0x09 hk) ⟨_, readTimeSet, _, fun _ => rfl, readTimeSet_isSome _⟩
    · exact runsRequest_of_kind (hkind 0x11 hk) ⟨_, readServiceUpdate, _, fun _ => rfl, readServiceUpdate_isSome _⟩
  next => cases h

theorem commandLow_eq_none {k : Nat} (rq : Req) (h : k ∉ requestKinds) : commandLow k rq = none := by
  unfold commandLow
  split
  case h_11 => rfl
  all_goals exact absurd (by decide) h

theorem commandMiddle_eq_none {k : Nat} (rq : Req) (h : k ∉ requestKinds) : commandMiddle k rq = none := by
  unfold commandMiddle
  split
  case h_16 => rfl
  all_goals exact absurd (by decide) h

theorem commandHigh_eq_none {k : Nat} (rq : Req) (h : k ∉ requestKinds) : commandHigh k rq = none := by
  unfold commandHigh
  split
  case h_14 => rfl
  all_goals exact absurd (by decide) h

/-- A frame of a kind that names no request. -/
theorem commandOf_unknown {l : Link} {f : RequestFrame} (h : knownKind f.kind = false) : commandOf l f = .unknownKindRequest l f := by
  have hnot : f.kind.toNat ∉ requestKinds := by simpa [knownKind] using h
  rw [commandOf, commandLow_eq_none _ hnot, commandMiddle_eq_none _ hnot, commandHigh_eq_none _ hnot]
  rfl

theorem leaves_unknownKindRequest {s : State} {l : Link} {f : RequestFrame} (hp : s.part.powered = true)
    (he : s.part.canExecute l f = true) (h : knownKind f.kind = false) :
    Leaves (.unknownKindRequest l f) s
      (answered s s.part 0x7F { link := l, tag := f.tag, body := f.body } .unknownKind []).part := by
  refine leaves_act (·.unknownKind l f) rfl hp ?_
  rw [Part.unknownKind, if_neg (by rw [h]; exact Bool.false_ne_true), if_pos he]
  rfl

/-- Settles O16: each kind with the reader of its body, and what each reader takes. -/
theorem requestChecksComeFirst : Obligations.RequestChecksComeFirst := by
  refine ⟨fun s l f hp he => ?kinds, fun b => ⟨readServiceRemove_isSome b, readNoticePost_isSome b, readBannerSet_isSome b,
    readCuePost_isSome b, readSettingsWrite_isSome b, fun rs => readServicePut_some, fun i names => readNameLoad_some⟩⟩
  case kinds =>
    have hframe : requestFrame { link := l, tag := f.tag, body := f.body } f.kind.toNat = f := by
      simp [requestFrame]
    have hchecks {readable : Prop} (hrun : RunsRequest (commandOf l f) f.kind.toNat { link := l, tag := f.tag, body := f.body } readable) :=
      hrun.checks (s := s) hp (by rw [hframe]; exact he)
    refine ⟨fun h => ⟨commandOf_unknown h, leaves_unknownKindRequest hp he h⟩, fun n hn => hchecks (runsRequest_fixedLength hn),
      fun h => hchecks (runsRequest_of_kind h ?_), fun h => hchecks (runsRequest_of_kind h ?_),
      fun h => hchecks (runsRequest_of_kind h ?_), fun h => hchecks (runsRequest_of_kind h ?_),
      fun h => hchecks (runsRequest_of_kind h ?_), fun h => hchecks (runsRequest_of_kind h ?_),
      fun h => hchecks (runsRequest_of_kind h ?_)⟩
    · exact ⟨_, readServicePut, _, fun _ => rfl, Iff.rfl⟩
    · exact ⟨_, readServiceRemove, _, fun _ => rfl, Iff.rfl⟩
    · exact ⟨_, readNameLoad, _, fun _ => rfl, Iff.rfl⟩
    · exact ⟨_, readNoticePost, _, fun _ => rfl, Iff.rfl⟩
    · exact ⟨_, readBannerSet, _, fun _ => rfl, Iff.rfl⟩
    · exact ⟨_, readCuePost, _, fun _ => rfl, Iff.rfl⟩
    · exact ⟨_, readSettingsWrite, _, fun _ => rfl, Iff.rfl⟩

end Sys2Proof.Machine
end

section
/-! Requests that read the part: they answer and change nothing. -/

namespace Sys2Proof.Machine

/-! ## Bodies of one and two bytes -/

theorem readOne_byte (b : Byte) : readOne 1 [b] = some b.toNat := by
  simp [readOne, readFields, readBe, ofBe]

theorem readTwo_bytes (k n : Byte) : readTwo 1 1 [k, n] = some (k.toNat, n.toNat) := by
  simp [readTwo, readFields, readBe, ofBe]

theorem readOne_word {id : Nat} (h : id < 65536) : readOne 2 (be 2 id) = some id := readOne_be h

theorem byte_eq_zero_iff (k : Byte) : k = 0 ↔ k.toNat = 0 :=
  ⟨fun h => h ▸ rfl, fun h => BitVec.eq_of_toNat_eq h⟩

theorem be_one (n : Nat) : be 1 n = [BitVec.ofNat 8 n] := by
  simp [be]

theorem flatMap_be_one {α : Type} (l : List α) (f : α → Nat) :
    (l.flatMap fun a => be 1 (f a)) = l.map fun a => BitVec.ofNat 8 (f a) := by
  induction l with
  | nil => rfl
  | cons a l ih => rw [List.flatMap_cons, ih, be_one]; rfl

/-! ## Reads -/

/-- The Control copies, and those without a platform. -/
theorem ownershipRead_eq (l : Link) (p : Part) : ownershipRead l p = .reply p .ok
    (p.own.platforms.map (fun l => BitVec.ofNat 8 (linkCode l)) ++ p.own.zones.map (fun m => BitVec.ofNat 8 (zoneModeCode m))
      ++ [p.own.banner, p.own.time, p.own.clockLines, p.own.wall].map (fun l => BitVec.ofNat 8 (linkCode l))
      ++ [feedCode p.feed.state] ++ be 1 (p.table.records.filter fun r => r.ctl.isSome).length
      ++ be 1 (p.table.records.filter fun r => r.ctl.any fun c => c.platform.isNone).length
      ++ p.shadowBytes (p.own.bannerOf l) ++ be 1 (p.own.brightOf l)) := by
  have habsent (r : Record) : (r.running.platform.isNone && r.ctl.isSome) = r.ctl.any fun c => c.platform.isNone := by
    unfold Record.running
    cases r.ctl <;> simp
  simp only [ownershipRead, readOk, flatMap_be_one, List.filter_filter, habsent]

theorem wallStatus_eq (p : Part) : wallStatus p = .reply p .ok
    (be 1 p.chain.positions ++ be 4 p.image.generation ++ be 1 p.globalLevel
      ++ (numbersFrom 1 12).flatMap (fun n => if p.chain.inUse n then 1 :: p.positionBytes n else 0 :: zeros 19)
      ++ [flagByte p.chain.fitted] ++ p.chain.spareStateBytes ++ spareModeBytes p.chain.mode
      ++ (if p.chain.fitted then 1 :: p.panelBytes (p.chain.panel 13) else 0 :: zeros 11) ++ p.testBytes) := by
  have hposition (n : Nat) : optBytes 19 p.positionBytes (if p.chain.inUse n then some n else none) =
      if p.chain.inUse n then 1 :: p.positionBytes n else 0 :: zeros 19 := by
    split <;> rfl
  have hspare : optBytes 11 p.panelBytes (if p.chain.fitted then some (p.chain.panel 13) else none) =
      if p.chain.fitted then 1 :: p.panelBytes (p.chain.panel 13) else 0 :: zeros 11 := by
    split <;> rfl
  simp only [wallStatus, readOk, hposition, hspare]

/-- A SERVICE_READ, by whether the record is held. -/
theorem serviceRead_none {p : Part} {id : Nat} (h : p.record? id = none) : serviceRead id p = .reply p .notFound [] := by
  rw [serviceRead, h]
  rfl

theorem serviceRead_some {p : Part} {id : Nat} {r : Record} (h : p.record? id = some r) :
    serviceRead id p = .reply p .ok (p.recordBytes r) := by
  rw [serviceRead, h]
  rfl

theorem cueStatus_zero (p : Part) : cueStatus 0 p = .reply p .ok p.cueSummary := rfl

theorem cueStatus_none {p : Part} {id : Nat} (hid : id ≠ 0) (h : p.cues.cue? id = none) :
    cueStatus id p = .reply p .notFound [] := by
  rw [cueStatus, if_neg (by simpa using hid), h]
  rfl

theorem cueStatus_some {p : Part} {id : Nat} {c : Cue} (hid : id ≠ 0) (h : p.cues.cue? id = some c) :
    cueStatus id p = .reply p .ok (p.cueBytes c) := by
  rw [cueStatus, if_neg (by simpa using hid), h]
  rfl

theorem settingsRead_copy (p : Part) (r : Nat) (copy : Byte) (hr : r ≤ 10) (hc : copy.toNat ≤ 1) :
    settingsRead (r, copy.toNat) p = .reply p .ok
      ((if copy = 0 then p.row r else (p.store.storedRow r).bytes) ++ [(p.store.storedRow r).check,
          flagByte (crc8 (p.store.storedRow r).bytes == (p.store.storedRow r).check), flagByte (p.store.storedRow r).failed]
        ++ be 2 (p.store.storedRow r).saves) := by
  rw [settingsRead, if_neg (by simp; omega)]
  simp only [readOk, StoredRow.passes, beq_iff_eq, byte_eq_zero_iff]

/-- Settles O40: each read by its own rule. -/
theorem readsAnswerAndChangeNothing : Obligations.ReadsAnswerAndChangeNothing := by
  intro s rq
  have hempty {b : List Byte} (h : b = []) : readEmpty b = some () := by rw [h]; rfl
  refine ⟨fun he hb => ?identify, fun he hb => ?ownership, fun he hb => ?time, fun id he hb hid => ⟨fun h => ?none, fun r h => ?some⟩,
    fun k n he hb => ⟨fun h => ?tableBad, fun hk hn hn' => ?table⟩,
    fun k n he hb => ⟨fun h => ?noticesBad, fun hk hk' hn hn' => ?notices⟩,
    fun k n he hb => ⟨fun h => ?wallBad, fun hk hn hn' hkn => ?wall⟩, fun he hb => ?status,
    fun id he hb hid => ⟨fun h => ?summary, fun h h' => ?noCue, fun c h h' => ?cue⟩, fun he hb => ?clocks, fun he hb => ?inputs,
    fun r copy he hb => ⟨fun h => ?settingsBad, fun hr hc => ?settings⟩⟩
  case identify => exact answers_of_reply rfl he (hempty hb) rfl
  case ownership => exact answers_of_reply rfl he (hempty hb) (ownershipRead_eq rq.link s.part)
  case time => exact answers_of_reply rfl he (hempty hb) rfl
  case none => exact answers_of_reply rfl he (hb ▸ readOne_word hid) (serviceRead_none h)
  case some => exact answers_of_reply rfl he (hb ▸ readOne_word hid) (serviceRead_some h)
  case tableBad =>
    rw [byte_eq_zero_iff, byte_eq_zero_iff] at h
    exact answers_of_reply rfl he (hb ▸ readTwo_bytes k n) (if_pos (by simp; omega))
  case table =>
    rw [Ne, byte_eq_zero_iff] at hk hn
    exact answers_of_reply rfl he (hb ▸ readTwo_bytes k n) (by rw [tableRead, if_neg (by simp; omega)]; rfl)
  case noticesBad =>
    rw [byte_eq_zero_iff, byte_eq_zero_iff] at h
    exact answers_of_reply rfl he (hb ▸ readTwo_bytes k n) (if_pos (by simp; omega))
  case notices =>
    rw [Ne, byte_eq_zero_iff] at hk hn
    exact answers_of_reply rfl he (hb ▸ readTwo_bytes k n) (by rw [noticeList, if_neg (by simp; omega)]; rfl)
  case wallBad =>
    rw [byte_eq_zero_iff, byte_eq_zero_iff] at h
    exact answers_of_reply rfl he (hb ▸ readTwo_bytes k n) (if_pos (by simp; omega))
  case wall =>
    rw [Ne, byte_eq_zero_iff] at hk hn
    exact answers_of_reply rfl he (hb ▸ readTwo_bytes k n) (by rw [wallRead, if_neg (by simp; omega)]; rfl)
  case status => exact answers_of_reply rfl he (hempty hb) (wallStatus_eq s.part)
  case summary =>
    subst h
    exact answers_of_reply rfl he (hb ▸ readOne_word hid) (cueStatus_zero s.part)
  case noCue => exact answers_of_reply rfl he (hb ▸ readOne_word hid) (cueStatus_none h h')
  case cue => exact answers_of_reply rfl he (hb ▸ readOne_word hid) (cueStatus_some h h')
  case clocks => exact answers_of_reply rfl he (hempty hb) (by simp [clockLineStatus, readOk, List.range_succ])
  case inputs => exact answers_of_reply rfl he (hempty hb) (by simp [inputStatus, readOk, List.range_succ])
  case settingsBad => exact answers_of_reply rfl he (hb ▸ readTwo_bytes r copy) (if_pos (by simp; omega))
  case settings => exact answers_of_reply rfl he (hb ▸ readTwo_bytes r copy) (settingsRead_copy s.part r.toNat copy hr hc)

end Sys2Proof.Machine
end

section
/-! Parts that differ in the marks of their event alone: the operations keep them so, and the end of an event forgets the marks. -/

namespace Sys2Proof.Machine

/-- The two parts differ at most in the marks of the event under way. -/
def Part.Like (p q : Part) : Prop := ∃ e, p = q.withEv e

theorem Part.Like.refl (p : Part) : p.Like p := ⟨p.ev, rfl⟩

theorem Part.Like.trans {p q r : Part} (h : p.Like q) (h' : q.Like r) : p.Like r := by
  obtain ⟨e, rfl⟩ := h
  obtain ⟨e', rfl⟩ := h'
  exact ⟨e, rfl⟩

theorem Part.Like.symm {p q : Part} (h : p.Like q) : q.Like p := by
  obtain ⟨e, rfl⟩ := h
  exact ⟨q.ev, rfl⟩

/-- The end of an event is the same for both. -/
theorem Part.Like.ended {p q : Part} (h : p.Like q) (told : Bool) : p.ended told = q.ended told := by
  obtain ⟨e, rfl⟩ := h
  rfl

/-- The end of an event, for a part that differs in its marks. -/
theorem Part.Like.finish {p q : Part} (h : p.Like q) {told : Bool} (ht : p.ev.wallTold = told) : p.finish = q.ended told := by
  rw [Part.finish_eq_ended, ht, h.ended]

theorem Part.like_begin (p : Part) : p.begin.Like p := ⟨_, rfl⟩
theorem Part.like_tellWall (p : Part) : p.tellWall.Like p := ⟨_, rfl⟩
theorem Part.like_withEv (p : Part) (e : Event) : (p.withEv e).Like p := ⟨e, rfl⟩

/-! ## Operations that write other fields -/

/-- An operation that reads no mark of the event keeps two parts alike. -/
def EventBlind (f : Part → Part) : Prop := ∀ p q : Part, p.Like q → (f p).Like (f q)

theorem EventBlind.of_withEv {f : Part → Part} (h : ∀ (p : Part) (e : Event), f (p.withEv e) = (f p).withEv e) : EventBlind f := by
  rintro p q ⟨e, rfl⟩
  exact ⟨e, h q e⟩

theorem EventBlind.comp {f g : Part → Part} (hg : EventBlind g) (hf : EventBlind f) : EventBlind fun p => g (f p) :=
  fun p q h => hg _ _ (hf p q h)

theorem eventBlind_tellWall : EventBlind Part.tellWall := fun p q h =>
  (p.like_tellWall.trans h).trans q.like_tellWall.symm

theorem eventBlind_latchNat (k : EventKind) (n : Nat) : EventBlind (·.latchNat k n) := EventBlind.of_withEv fun _ _ => rfl

theorem Part.rotateFrom_withEv (p : Part) (e : Event) (n : Notice) : (p.withEv e).rotateFrom n = (p.rotateFrom n).withEv e := by
  unfold Part.rotateFrom
  have h : (p.withEv e).notices = p.notices := rfl
  rw [h]
  cases (p.notices.eligible.find? fun m => keyBefore n m) <|> p.notices.eligible.head? <;> rfl

theorem eventBlind_dropNotice (n : Notice) : EventBlind (·.dropNotice n) := by
  rintro p q ⟨e, rfl⟩
  unfold Part.dropNotice
  dsimp only [Part.withEv]
  cases q.notices.shown with
  | none => exact ⟨e, rfl⟩
  | some s =>
    dsimp only
    split
    · refine ⟨{ e with wallTold := true }, ?_⟩
      exact congrArg Part.tellWall
        (Part.rotateFrom_withEv { q with notices := { q.notices with notices := q.notices.notices.filter fun m => m.id != n.id } } e n)
    · exact ⟨e, rfl⟩

theorem eventBlind_withdrawNotice (k : NoticeKind) (s : Option Nat) : EventBlind (·.withdrawNotice k s) := by
  rintro p q ⟨e, rfl⟩
  unfold Part.withdrawNotice
  dsimp only [Part.withEv]
  cases q.notices.auto? k s with
  | none => exact ⟨e, rfl⟩
  | some n => exact eventBlind_dropNotice n _ _ ⟨e, rfl⟩

end Sys2Proof.Machine
end

section
/-! HEARTBEAT, SERVICE_UPDATE and the boarding lock, SERVICE_PUT of one record, SERVICE_REMOVE, NAME_LOAD, and the banner and
brightness shadows. -/

namespace Sys2Proof.Machine

/-! ## HEARTBEAT (R193) -/

theorem Part.withdrawNotice_modFeed (p : Part) (f : Feed → Feed) (k : NoticeKind) (s : Option Nat) :
    (p.modFeed f).withdrawNotice k s = (p.withdrawNotice k s).modFeed f := by
  unfold Part.withdrawNotice Part.dropNotice Part.rotateFrom
  dsimp only [Part.modFeed]
  cases p.notices.auto? k s with
  | none => rfl
  | some n =>
    dsimp only
    cases p.notices.shown with
    | none => rfl
    | some t =>
      dsimp only
      split
      · split <;> rfl
      · rfl

/-- The toggle and the timer of a heartbeat that is taken. -/
def Part.heartbeatTimed (p : Part) (toggle : Nat) : Part :=
  p.modFeed fun f => { f with lastToggle := some toggle, heartbeatAt := some (p.elapsed + p.heartbeatPeriod) }

theorem Part.takeHeartbeat_live {p : Part} (toggle : Nat) (h : p.feed.state = .live) :
    p.takeHeartbeat toggle = p.heartbeatTimed toggle := by
  unfold Part.takeHeartbeat
  dsimp only
  split
  · rfl
  · next hs => exact absurd (h.symm.trans hs) (by decide)
  · next hs => exact absurd (h.symm.trans hs) (by decide)

theorem Part.takeHeartbeat_stale {p : Part} (toggle : Nat) (h : p.feed.state = .stale) :
    p.takeHeartbeat toggle = ((p.heartbeatTimed toggle).withdrawNotice .stale none).feedRestored 1 := by
  unfold Part.takeHeartbeat
  dsimp only
  split
  · next hs => exact absurd (h.symm.trans hs) (by decide)
  · rfl
  · next hs => exact absurd (h.symm.trans hs) (by decide)

theorem Part.takeHeartbeat_lost {p : Part} (toggle : Nat) (h : p.feed.state = .lost) :
    p.takeHeartbeat toggle = (p.heartbeatTimed toggle).feedRestored 2 := by
  unfold Part.takeHeartbeat
  dsimp only
  split
  · next hs => exact absurd (h.symm.trans hs) (by decide)
  · next hs => exact absurd (h.symm.trans hs) (by decide)
  · rfl

theorem heartbeat_invalid {p : Part} {toggle : Nat} (h : 1 < toggle) : heartbeat toggle p = .reply p .invalidField [] := if_pos h

theorem heartbeat_same {p : Part} {toggle : Nat} (h : toggle ≤ 1) (hlast : p.feed.lastToggle = some toggle) :
    heartbeat toggle p = .reply p .sequence p.feed.body := by
  rw [heartbeat, if_neg (Nat.not_lt.mpr h), if_pos (by simpa using hlast)]

theorem heartbeat_taken {p : Part} {toggle : Nat} (h : toggle ≤ 1) (hlast : p.feed.lastToggle ≠ some toggle) :
    heartbeat toggle p = .reply (p.begin.takeHeartbeat toggle).finish .ok (p.begin.takeHeartbeat toggle).finish.feed.body := by
  rw [heartbeat, if_neg (Nat.not_lt.mpr h), if_neg (by simpa using hlast)]

/-- The answer to a heartbeat that is taken, the event being over. -/
theorem answers_heartbeat_taken {s : State} {rq : Req} {toggle : Byte} (he : Executes s 0x04 rq) (hb : rq.body = [toggle])
    (ht : toggle.toNat ≤ 1) (hlast : s.part.feed.lastToggle ≠ some toggle.toNat) {q : Part} {told : Bool}
    (hlike : (s.part.begin.takeHeartbeat toggle.toNat).Like q)
    (htold : (s.part.begin.takeHeartbeat toggle.toNat).ev.wallTold = told) (hlive : q.feed.state = .live)
    (htoggle : q.feed.lastToggle = some toggle.toNat) :
    Answers (.heartbeat rq) s 0x04 rq (q.ended told) .ok [0, 1, toggle] := by
  have hfinish := hlike.finish htold
  have hfeed : (q.ended told).feed = q.feed := Part.finish_feed _
  have hbody : (q.ended told).feed.body = [0, 1, toggle] := by
    rw [hfeed, Feed.body, hlive, htoggle]
    show 0 :: 1 :: be 1 toggle.toNat = _
    rw [be_one, BitVec.ofNat_toNat, BitVec.setWidth_eq]
  have hanswer := heartbeat_taken ht hlast
  rw [hfinish, hbody] at hanswer
  exact answers_of_reply rfl he (hb ▸ readOne_byte toggle) hanswer

/-- Settles O19: the two refusals, and a heartbeat taken in each of the three feed states. -/
theorem heartbeatTakenOrOutOfSequence : Obligations.HeartbeatTakenOrOutOfSequence := by
  intro s rq toggle he hb
  refine ⟨fun h => ?invalid, fun h hlast => ?same, fun h hlast => ⟨fun hstate => ?live, fun hstate => ?stale, fun hstate => ?lost⟩⟩
  case invalid => exact answers_of_reply rfl he (hb ▸ readOne_byte toggle) (heartbeat_invalid h)
  case same =>
    refine answers_of_reply rfl he (hb ▸ readOne_byte toggle) ((heartbeat_same h hlast).trans ?_)
    rw [Feed.body, hlast]
    show Answer.reply _ _ (_ :: 1 :: be 1 toggle.toNat) = _
    rw [be_one, BitVec.ofNat_toNat, BitVec.setWidth_eq]
  case live =>
    refine answers_heartbeat_taken he hb h hlast (told := false) ⟨s.part.begin.ev, ?_⟩ ?_ rfl rfl
    · rw [Part.takeHeartbeat_live (p := s.part.begin) _ hstate, ← hstate]
      rfl
    · rw [Part.takeHeartbeat_live (p := s.part.begin) _ hstate]
      rfl
  case stale =>
    refine answers_heartbeat_taken he hb h hlast (told := true) ?_ ?_ ?_ ?_
    · rw [Part.takeHeartbeat_stale (p := s.part.begin) _ hstate, Part.feedRestored, ← Part.withdrawNotice_modFeed]
      refine eventBlind_latchNat _ _ _ _ ((Part.like_tellWall _).trans (eventBlind_withdrawNotice _ _ _ _ ?_))
      exact ⟨s.part.begin.ev, rfl⟩
    · rw [Part.takeHeartbeat_stale (p := s.part.begin) _ hstate]
      rfl
    · exact (congrArg Feed.state (Part.withdrawNotice_feed _ .stale none)).trans rfl
    · exact (congrArg Feed.lastToggle (Part.withdrawNotice_feed _ .stale none)).trans rfl
  case lost =>
    refine answers_heartbeat_taken he hb h hlast (told := true) ⟨{ s.part.begin.ev with wallTold := true }, ?_⟩ ?_ rfl rfl
    · rw [Part.takeHeartbeat_lost (p := s.part.begin) _ hstate]
      rfl
    · rw [Part.takeHeartbeat_lost (p := s.part.begin) _ hstate]
      rfl

/-! ## The boarding lock (R85) -/

theorem Record.running_of_none {r : Record} (h : r.ctl = none) : r.running = r.info := by
  simp [Record.running, h]

/-- A move of the platform asked for while the train is boarding or closed. -/
theorem boardingLocked_of_move {u : UpdateBody} {r : Record} (hc : r.ctl = none)
    (hst : r.info.status = .boarding ∨ r.info.status = .closed)
    (hmove : u.platformAction = .set ∧ r.info.platform ≠ some u.platform ∨ u.platformAction = .clear ∧ r.info.platform ≠ none) :
    boardingLocked .information u r = true := by
  have hrunning := Record.running_of_none hc
  unfold boardingLocked
  rw [hrunning, hc]
  rcases hst with hst | hst <;> rcases hmove with ⟨ha, hn⟩ | ⟨ha, hn⟩ <;>
    simp [hst, ha, hn, Option.isSome_iff_ne_none]

/-- Settles O37: the checks before the lock pass, and the lock does not. -/
theorem boardingLockRefuses : Obligations.BoardingLockRefuses := by
  intro s rq u r he hread hr hl hm hc hst hperm hmove
  have hrunning := Record.running_of_none hc
  have hnot : (r.running.status == .departed || r.info.status == .departed) = false := by
    rw [hrunning]
    rcases hst with hst | hst <;> simp [hst]
  have howner : s.part.updateNotOwner .information u r = false := by
    unfold Part.updateNotOwner
    rcases hmove with ⟨ha, _, hown⟩ | ⟨ha, _⟩
    · simp [hown]
    · simp [ha]
  have hlock : boardingLocked .information u r = true :=
    boardingLocked_of_move hc hst (hmove.imp (fun h => ⟨h.1, h.2.1⟩) id)
  refine answers_of_reply rfl he hread ?_
  rw [hl, serviceUpdate, hr]
  dsimp only
  rw [if_neg (by rw [hm]; exact Bool.false_ne_true)]
  dsimp only [Record.copyOf]
  rw [if_neg (by rw [hnot]; exact Bool.false_ne_true), if_neg (by simp [hperm]),
    if_neg (by rw [howner]; exact Bool.false_ne_true), if_pos hlock]
  rfl

/-! ## SERVICE_PUT of one record (R26 to R29) -/

theorem hasTwice_iff (l : List Nat) : hasTwice l = true ↔ ¬l.Nodup := by
  induction l with
  | nil => simp [hasTwice]
  | cons a l ih => simp [hasTwice, ih]; tauto

theorem statusOfCode_departed {n : Nat} {st : Status} (h : statusOfCode n = some st) : st = .departed ↔ n = 3 := by
  match n, h with
  | 0, h | 1, h | 2, h | 3, h | 4, h => cases h; decide
  | _ + 5, h => cases h

/-- The changes of status that R24 permits, one by one. -/
theorem statusPermitted_iff (old st : Status) : statusPermitted old st = true ↔
    (st, old) ∈ [(Status.normal, Status.normal), (.boarding, .normal), (.departed, .normal), (.cancelled, .normal),
      (.normal, .boarding), (.boarding, .boarding), (.closed, .boarding), (.departed, .boarding), (.cancelled, .boarding),
      (.boarding, .closed), (.closed, .closed), (.departed, .closed), (.cancelled, .closed), (.normal, .cancelled),
      (.cancelled, .cancelled)] := by
  cases old <;> cases st <;> decide

theorem PutRecord.malformed_iff (r : PutRecord) : r.malformed = true ↔
    r.id = 0 ∨ 8 < r.label.length ∨ 107999 < r.sched ∨ (∃ e, r.expected = some e ∧ 107999 < e) ∨
      (∃ n, r.platform = some n ∧ 32 < n) ∨ statusOfCode r.status = none ∨ 12 < r.calls.length ∨ ¬r.calls.Nodup ∨
      r.dest ∈ r.calls := by
  simp only [PutRecord.malformed, Bool.or_eq_true, beq_iff_eq, decide_eq_true_eq, Option.any_eq_true, hasTwice_iff,
    Option.isNone_iff_eq_none, List.contains_iff_mem, or_assoc]

/-- What the table bars, for a record held or not. -/
theorem putBarred_iff (old : Option Record) {n : Nat} {st : Status} (h : statusOfCode n = some st) : putBarred old st = true ↔
    old = none ∧ n = 3 ∨ (∃ o, old = some o ∧ (o.running.status = .departed ∨ o.info.status = .departed)) ∨
      ∃ o, old = some o ∧ statusPermitted o.info.status st = false := by
  cases old with
  | none => simp [putBarred, statusOfCode_departed h]
  | some o => simp [putBarred, or_assoc]

theorem Part.putOne_bad {p : Part} {r : PutRecord}
    (h : r.malformed = true ∨ ∃ st, statusOfCode r.status = some st ∧ putBarred (p.record? r.id) st = true) :
    p.putOne r = (p, .invalidField) := by
  unfold Part.putOne
  dsimp only
  split
  · rfl
  · next st hst =>
    refine if_pos ?_
    rcases h with h | ⟨st', hst', h⟩
    · rw [h]; rfl
    · obtain rfl := Option.some.inj (hst.symm.trans hst')
      rw [h, Bool.or_true]

/-- A record that passes the checks of R26. -/
theorem Part.putOne_good {p : Part} {r : PutRecord} {st : Status} (hst : statusOfCode r.status = some st)
    (h : (r.malformed || putBarred (p.record? r.id) st) = false) :
    (p.putNotOwner r (p.record? r.id) = true → p.putOne r = (p, .notOwner)) ∧
    (p.putNotOwner r (p.record? r.id) = false → p.record? r.id = none → 96 ≤ p.table.records.length →
      p.putOne r = (p, .tableFull)) ∧
    (p.putNotOwner r (p.record? r.id) = false → p.record? r.id = none → p.table.records.length < 96 →
      p.putOne r = (p.putCreate r st, .ok)) ∧
    (p.putNotOwner r (p.record? r.id) = false → ∀ o, p.record? r.id = some o →
      p.putOne r = (p.change o (r.replace st o) .put, .ok)) := by
  unfold Part.putOne
  dsimp only
  rw [hst]
  dsimp only
  rw [if_neg (by rw [h]; exact Bool.false_ne_true)]
  refine ⟨fun hown => if_pos hown, fun hown hnone hfull => ?_, fun hown hnone hroom => ?_, fun hown o ho => ?_⟩
  all_goals rw [if_neg (by rw [hown]; exact Bool.false_ne_true)]
  · rw [hnone]
    exact if_pos hfull
  · rw [hnone]
    exact if_neg (Nat.not_le.mpr hroom)
  · rw [ho]

theorem Part.putNotOwner_iff (p : Part) (r : PutRecord) : p.putNotOwner r (p.record? r.id) = true ↔
    ∃ n, r.platform = some n ∧ p.controlOwned n = true ∧ ∀ o, p.record? r.id = some o → o.ctl = none := by
  unfold Part.putNotOwner
  cases p.record? r.id <;> simp [Option.any_eq_true, ← and_assoc]

/-- Settles O33: the refusals of `putOne` in their order. -/
theorem putRefusals : Obligations.PutRefusals := by
  intro p r bad foreign full
  have hbad : bad ↔ r.malformed = true ∨ ∃ st, statusOfCode r.status = some st ∧ putBarred (p.record? r.id) st = true := by
    cases hst : statusOfCode r.status with
    | none => exact ⟨fun _ => .inl (r.malformed_iff.mpr (by simp [hst])), fun _ => by simp [bad, hst]⟩
    | some st =>
      simp only [bad, r.malformed_iff, hst, Option.some.injEq, exists_eq_left', putBarred_iff _ hst, ← Bool.not_eq_true,
        statusPermitted_iff, or_assoc]
      simp
  have hforeign : foreign ↔ p.putNotOwner r (p.record? r.id) = true := (p.putNotOwner_iff r).symm
  refine ⟨fun h => Part.putOne_bad (hbad.mp h), fun hgood hown => ?owner, fun hgood hown hfull => ?full, fun hgood hown hroom => ?ok⟩
  all_goals
    obtain ⟨hmalformed, hbarred⟩ := not_or.mp (hbad.not.mp hgood)
    have hsome : statusOfCode r.status ≠ none := fun h => hmalformed (r.malformed_iff.mpr (by simp [h]))
    obtain ⟨st, hst⟩ := Option.ne_none_iff_exists'.mp hsome
    have hchecks : (r.malformed || putBarred (p.record? r.id) st) = false :=
      Bool.or_eq_false_iff.mpr ⟨Bool.eq_false_iff.mpr hmalformed, Bool.eq_false_iff.mpr fun h => hbarred ⟨st, hst, h⟩⟩
    obtain ⟨howner, hfullCase, hcreate, hchange⟩ := Part.putOne_good hst hchecks
    rw [hforeign] at hown
  case owner => exact howner hown
  case full => exact hfullCase (Bool.eq_false_iff.mpr hown) hfull.1 hfull.2
  case ok =>
    have hown := Bool.eq_false_iff.mpr hown
    cases hold : p.record? r.id with
    | none => rw [hcreate hown hold (Nat.lt_of_not_le fun h => hroom ⟨hold, h⟩)]
    | some o => rw [hchange hown o hold]

end Sys2Proof.Machine
end

section
/-! SERVICE_REMOVE and NAME_LOAD; the banner and brightness shadows. -/

namespace Sys2Proof.Machine

/-! ## Several items of one request (R25, R32) -/

theorem takeEach_length {α : Type} (one : Part → α → Part × Result) (l : List α) (p : Part) :
    (takeEach one l p).2.length = l.length := by
  induction l generalizing p with
  | nil => rfl
  | cons a l ih => exact congrArg (· + 1) (ih (one p a).1)

theorem resultBytes_eq (rs : List Result) : resultBytes rs = be 1 rs.length ++ rs.map Result.code := by
  rw [resultBytes, counted]
  congr 1
  induction rs with
  | nil => rfl
  | cons r rs ih => rw [List.flatMap_cons, ih]; rfl

/-! ## A record deleted (R90, R151) -/

/-- A list holds one automatic notice of each kind and service. -/
theorem NoticeList.ok.auto_unique {l : NoticeList} (h : l.ok) {m n : Notice} (hm : m ∈ l.notices) (hn : n ∈ l.notices)
    (hauto : m.kind ≠ .posted) (hk : m.kind = n.kind) (hs : m.service = n.service) : m = n := by
  obtain ⟨⟨_, _, _, hpairs, _⟩, _⟩ := (NoticeList.ok_iff _).mp h
  have : Std.Symm fun a b : Notice => a.kind ≠ .posted → ¬(a.kind = b.kind ∧ a.service = b.service) :=
    ⟨fun a b hab hb ⟨hk, hs⟩ => hab (hk ▸ hb) ⟨hk.symm, hs.symm⟩⟩
  by_contra hne
  exact hpairs.forall hm hn hne hauto ⟨hk, hs⟩

/-- A withdrawal takes the notice it names out of the list. -/
theorem Part.withdrawNotice_mem {p : Part} (h : p.notices.ok) {k : NoticeKind} (hk : k ≠ .posted) {s : Option Nat} {n : Notice}
    (hn : n ∈ (p.withdrawNotice k s).notices.notices) : n ∈ p.notices.notices ∧ ¬(n.kind = k ∧ n.service = s) := by
  unfold Part.withdrawNotice at hn
  split at hn
  · next m hm =>
    obtain ⟨hmem, hid⟩ := Part.dropNotice_mem hn
    obtain ⟨hm, hmk, hms⟩ := NoticeList.auto?_some hm
    refine ⟨hmem, fun ⟨hnk, hns⟩ => hid ?_⟩
    rw [h.auto_unique hm hmem (hmk ▸ hk) (hmk.trans hnk.symm) (hms.trans hns.symm)]
  · next hnone => exact ⟨hn, NoticeList.auto?_none hnone n hn⟩

theorem Part.withdrawNotice_ok {p : Part} (h : p.notices.ok) (k : NoticeKind) (s : Option Nat) :
    (p.withdrawNotice k s).notices.ok := by
  unfold Part.withdrawNotice
  split
  · exact Part.dropNotice_ok h _
  · exact h

/-- No automatic notice of a deleted record is left. -/
theorem Part.withdrawAll_mem {p : Part} (h : p.notices.ok) {id : Nat} {n : Notice} (hn : n ∈ (p.withdrawAll id).notices.notices)
    (hk : n.kind ∈ [NoticeKind.delay, .unknown, .change, .cancel]) : n.service ≠ some id := by
  have h1 := Part.withdrawNotice_ok h .delay (some id)
  have h2 := Part.withdrawNotice_ok h1 .unknown (some id)
  have h3 := Part.withdrawNotice_ok h2 .change (some id)
  obtain ⟨hn, hcancel⟩ := Part.withdrawNotice_mem h3 (by decide) hn
  obtain ⟨hn, hchange⟩ := Part.withdrawNotice_mem h2 (by decide) hn
  obtain ⟨hn, hunknown⟩ := Part.withdrawNotice_mem h1 (by decide) hn
  obtain ⟨hn, hdelay⟩ := Part.withdrawNotice_mem h (by decide) hn
  intro hs
  simp only [List.mem_cons, List.not_mem_nil, or_false] at hk
  rcases hk with hk | hk | hk | hk
  · exact hdelay ⟨hk, hs⟩
  · exact hunknown ⟨hk, hs⟩
  · exact hchange ⟨hk, hs⟩
  · exact hcancel ⟨hk, hs⟩

/-- No queued record that was picked is left in the pool. -/
theorem Part.removeQueued_mem {p : Part} {sel : Cue → Bool} {c : Cue} (hc : c ∈ (p.removeQueued sel).cues.pool) :
    c ∈ p.cues.pool ∧ (c.isQueued && sel c) = false := by
  have hpool : (p.removeQueued sel).cues.pool = p.cues.pool.filter fun c =>
      !((p.cues.pool.filter fun c => c.isQueued && sel c).map (·.id)).contains c.id := by
    simp only [Part.removeQueued, Part.modCues, CueSched.foldl_free]
  rw [hpool, List.mem_filter] at hc
  obtain ⟨hmem, hout⟩ := hc
  refine ⟨hmem, Bool.eq_false_iff.mpr fun hsel => ?_⟩
  have hpicked : c ∈ p.cues.pool.filter fun c => c.isQueued && sel c := List.mem_filter.mpr ⟨hmem, hsel⟩
  have hin := List.contains_iff_mem.mpr (List.mem_map_of_mem (f := (·.id)) hpicked)
  rw [hin] at hout
  cases hout

theorem Cue.isAutoOf_allTemplates (c : Cue) (id : Nat) :
    c.isAutoOf id allTemplates = (c.origin == .auto && c.service == some id && c.template.isSome) := by
  have hany : (allTemplates.any fun t => c.template == some t) = c.template.isSome := by
    rcases c.template with _ | (_ | _ | _ | _) <;> decide
  rw [Cue.isAutoOf, hany]

theorem Part.deleteRecord_told (p : Part) (id : Nat) : (p.deleteRecord id).ev.wallTold = true := rfl

theorem Part.deleteRecord_table (p : Part) (id : Nat) :
    (p.deleteRecord id).table = { p.table with records := p.table.records.filter (·.id != id) } := by
  have h := congrArg Part.table (Part.removeAuto_beyondCues ((p.mapRecords (·.filter (·.id != id))).withdrawAll id) id allTemplates)
  have h' := congrArg Part.table (Part.withdrawAll_beyondNotices (p.mapRecords (·.filter (·.id != id))) id)
  exact h.trans h'

theorem Part.deleteRecord_port (p : Part) (id : Nat) : (p.deleteRecord id).info = p.info ∧ (p.deleteRecord id).ctl = p.ctl := by
  have h := Part.withdrawAll_beyondNotices (p.mapRecords (·.filter (·.id != id))) id
  exact ⟨(congrArg Part.info h :), (congrArg Part.ctl h :)⟩

theorem Part.deleteRecord_notices (p : Part) (id : Nat) :
    (p.deleteRecord id).notices = ((p.mapRecords (·.filter (·.id != id))).withdrawAll id).notices :=
  (congrArg Part.notices (Part.removeAuto_beyondCues ((p.mapRecords (·.filter (·.id != id))).withdrawAll id) id allTemplates) :)

/-- No queued automatic cue of a deleted record is left. -/
theorem Part.deleteRecord_pool {p : Part} {id : Nat} {c : Cue} (hc : c ∈ (p.deleteRecord id).cues.pool) :
    (c.isQueued && c.origin == .auto && c.service == some id && c.template.isSome) = false := by
  have hout := (Part.removeQueued_mem (p := (p.mapRecords (·.filter (·.id != id))).withdrawAll id)
    (sel := (·.isAutoOf id allTemplates)) hc).2
  rw [Cue.isAutoOf_allTemplates, ← Bool.and_assoc, ← Bool.and_assoc] at hout
  exact hout

/-! ## SERVICE_REMOVE and NAME_LOAD (R32, R35) -/

theorem serviceRemove_bad {p : Part} {ids : List Nat} (h : ids.length = 0 ∨ 16 < ids.length) :
    serviceRemove ids p = .reply p .invalidField [] := if_pos (by simpa using h)

theorem serviceRemove_taken {p : Part} {ids : List Nat} (h : 1 ≤ ids.length) (h' : ids.length ≤ 16) :
    serviceRemove ids p = .reply (takeEach Part.removeOne ids p.begin).1.finish .ok
      (resultBytes (takeEach Part.removeOne ids p.begin).2) := by
  have hgood : ¬(ids.length == 0 || decide (16 < ids.length)) = true := by
    simp only [Bool.or_eq_true, beq_iff_eq, decide_eq_true_eq]
    omega
  rw [serviceRemove, if_neg hgood]

theorem serviceRemove_one (p : Part) (id : Nat) :
    serviceRemove [id] p = .reply (p.begin.removeOne id).1.finish .ok [1, (p.begin.removeOne id).2.code] := by
  have hone : takeEach Part.removeOne [id] p.begin = ((p.begin.removeOne id).1, [(p.begin.removeOne id).2]) := rfl
  rw [serviceRemove_taken (by simp) (by simp), hone, resultBytes_eq, be_one]
  rfl

/-- Settles O38: the ids in order, one id by its three cases, and the names written over. -/
theorem serviceRemoveAndNameLoad : Obligations.ServiceRemoveAndNameLoad := by
  refine ⟨fun s rq ids he hr => ⟨fun h => ?bad, fun h h' => ?taken⟩,
    fun s rq id he hr => ⟨fun h => ?none, fun r h hc => ?held, fun r h hc hok => ?gone⟩,
    fun s rq i names he hr hlen => ⟨fun h => ?badNames, fun h1 h8 h20 hend => ?names⟩⟩
  case bad => exact answers_of_reply rfl he hr (serviceRemove_bad h)
  case taken =>
    have hcount := takeEach_length Part.removeOne ids s.part.begin
    have hbytes := resultBytes_eq (takeEach Part.removeOne ids s.part.begin).2
    rw [hcount] at hbytes
    exact ⟨_, _, answers_of_reply rfl he hr ((serviceRemove_taken h h').trans (by rw [hbytes])), hcount⟩
  case none =>
    refine answers_of_reply rfl he hr ((serviceRemove_one s.part id).trans ?_)
    have hone : s.part.begin.removeOne id = (s.part.begin, .notFound) := by
      have h : s.part.begin.record? id = none := h
      rw [Part.removeOne, h]
    rw [hone, Part.Like.finish s.part.like_begin rfl]
    rfl
  case held =>
    refine answers_of_reply rfl he hr ((serviceRemove_one s.part id).trans ?_)
    have hone : s.part.begin.removeOne id = (s.part.begin, .notOwner) := by
      have h : s.part.begin.record? id = some r := h
      rw [Part.removeOne, h]
      exact if_pos (Option.isSome_iff_ne_none.mpr hc)
    rw [hone, Part.Like.finish s.part.like_begin rfl]
    rfl
  case gone =>
    have hone : s.part.begin.removeOne id = (s.part.begin.deleteRecord id, .ok) := by
      have h : s.part.begin.record? id = some r := h
      rw [Part.removeOne, h]
      exact if_neg (by simp [hc])
    have hanswer := serviceRemove_one s.part id
    rw [hone, Part.finish_eq_ended, Part.deleteRecord_told] at hanswer
    refine ⟨s.part.begin.deleteRecord id, answers_of_reply rfl he hr hanswer, Part.deleteRecord_table _ id, fun n hn hk => ?_,
      List.all_eq_true.mpr fun c hc => ?_, (Part.deleteRecord_port _ id).1, (Part.deleteRecord_port _ id).2,
      Part.deleteRecord_own _ id, Part.deleteRecord_time _ id⟩
    · rw [Part.deleteRecord_notices] at hn
      exact Part.withdrawAll_mem (p := s.part.begin.mapRecords (·.filter (·.id != id))) hok hn hk
    · rw [Part.deleteRecord_pool hc]
      rfl
  case badNames =>
    refine answers_of_reply rfl he hr (if_pos ?_)
    simpa [or_assoc] using h
  case names =>
    have hgood : ¬(names.length == 0 || decide (8 < names.length) || names.any (20 < ·.length) || decide (256 < i + names.length)) := by
      simp only [Bool.or_eq_true, beq_iff_eq, decide_eq_true_eq, List.any_eq_true, not_or, not_exists, not_and]
      exact ⟨⟨⟨by omega, by omega⟩, fun n hn => Nat.not_lt.mpr (h20 n hn)⟩, by omega⟩
    refine ⟨overwriteFrom i names s.part.table.names, answers_of_reply rfl he hr ?_, ?_, fun k hk => ?_⟩
    · rw [nameLoad, if_neg hgood]
      exact congrArg (Answer.reply · .ok []) (Part.Like.finish ⟨_, rfl⟩ rfl)
    · rw [overwriteFrom_length (by omega), hlen]
    · exact overwriteFrom_getElem? (by omega) k

/-! ## The banner and brightness shadows (R101, R119) -/

theorem expiryAllowed_iff (e : Option Nat) : expiryAllowed e = true ↔ ∀ s, e = some s → 10 ≤ s ∧ s ≤ 86400 := by
  cases e <;> simp [expiryAllowed]

theorem expiryAllowed_not_iff (e : Option Nat) : expiryAllowed e = false ↔ ∃ s, e = some s ∧ ¬(10 ≤ s ∧ s ≤ 86400) := by
  rw [← Bool.not_eq_true, expiryAllowed_iff]
  push Not
  rfl

/-- The seconds that are left of an expiry just given. -/
theorem Part.secondsUntil_expiryInstant (p : Part) (e : Option Nat) : (p.expiryInstant e).map p.secondsUntil = e := by
  cases e with
  | none => rfl
  | some s => simp [Part.expiryInstant, Part.secondsUntil]

/-- An event in which the Composer is told on a condition. -/
theorem Part.Like.finish_tellIf {p q : Part} (h : p.Like q) (hev : p.ev.wallTold = false) (c : Bool) :
    (if c then p.tellWall else p).finish = q.ended c := by
  cases c with
  | false => exact h.finish hev
  | true => exact (p.like_tellWall.trans h).finish rfl

/-- A shadow is written without the effective banner link. -/
theorem Ownership.setBanner_banner (o : Ownership) (l : Link) (b : BannerShadow) : (o.setBanner l b).banner = o.banner := by
  cases l <;> rfl

theorem Ownership.setBright_wall (o : Ownership) (l : Link) (b : Nat) : (o.setBright l b).wall = o.wall := by
  cases l <;> rfl

/-- The event in which a banner shadow is written. -/
theorem Part.shadowWritten_finish (p : Part) (l : Link) (b : BannerShadow) :
    (({ p.begin with own := p.begin.own.setBanner l b } : Part).tellIfBanner l).finish =
      ({ p with own := p.own.setBanner l b } : Part).ended (p.own.banner == l) := by
  have hlike : Part.Like { p.begin with own := p.own.setBanner l b } { p with own := p.own.setBanner l b } := ⟨p.begin.ev, rfl⟩
  exact (hlike.finish_tellIf rfl ((p.own.setBanner l b).banner == l)).trans (by rw [Ownership.setBanner_banner])

/-- Settles O43: the two requests that write a shadow, and its expiry. -/
theorem bannerAndBrightnessShadows : Obligations.BannerAndBrightnessShadows := by
  refine ⟨fun s rq on expiry text he hr => ⟨fun h => ?bad, fun htext hexp => ?banner⟩, fun s rq level he hb => ?bright,
    fun s l t hp ht => ?expiry⟩
  case bad =>
    refine answers_of_reply rfl he hr (if_pos ?_)
    rw [← expiryAllowed_not_iff] at h
    simpa using h
  case banner =>
    have hgood : ¬(decide (48 < text.length) || !expiryAllowed expiry) = true := by
      rw [(expiryAllowed_iff expiry).mpr hexp]
      simpa using htext
    refine answers_of_reply rfl he hr ?_
    rw [bannerSet, if_neg hgood]
    dsimp only
    rw [Part.shadowWritten_finish, Part.shadowBytes, Part.secondsUntil_expiryInstant]
    rfl
  case bright =>
    refine answers_of_reply rfl he (hb ▸ readOne_byte level) ?_
    unfold brightnessSet
    dsimp only
    rw [be_one]
    refine congrArg (Answer.reply · _ _) ?_
    have hlike : Part.Like { s.part.begin with own := s.part.own.setBright rq.link (min 15 level.toNat) }
      { s.part with own := s.part.own.setBright rq.link (min 15 level.toNat) } := ⟨s.part.begin.ev, rfl⟩
    exact (hlike.finish_tellIf rfl ((s.part.own.setBright rq.link (min 15 level.toNat)).wall == rq.link)).trans
      (by rw [Ownership.setBright_wall])
  case expiry =>
    refine leaves_act (·.shadowExpiry l) rfl hp ?_
    rw [Part.shadowExpiry, ht]
    exact Part.shadowWritten_finish (s.part.advanceTo t) l _

end Sys2Proof.Machine
end

section
/-! What the end of an event leaves: the image, the releases of the examination, the events they latch. -/

namespace Sys2Proof.Machine

/-! ## Ports that latch some kinds of event -/

/-- Between the two ports only kinds that `sel` names have been latched, and nothing else has changed. -/
structure Port.Latches (sel : EventKind → Prop) (q r : Port) : Prop where
  frame : r.beyondEvents = q.beyondEvents
  other : ∀ k, ¬sel k → r.isLatched k = q.isLatched k ∧ r.subject k = q.subject k
  kept : ∀ k, q.isLatched k = true → r.isLatched k = true
  length : r.subjects.length = q.subjects.length

theorem Port.Latches.refl (sel : EventKind → Prop) (q : Port) : q.Latches sel q :=
  ⟨rfl, fun _ _ => ⟨rfl, rfl⟩, fun _ h => h, rfl⟩

theorem Port.Latches.trans {sel : EventKind → Prop} {q r t : Port} (h : q.Latches sel r) (h' : r.Latches sel t) :
    q.Latches sel t where
  frame := h'.frame.trans h.frame
  other k hk := ⟨(h'.other k hk).1.trans (h.other k hk).1, (h'.other k hk).2.trans (h.other k hk).2⟩
  kept k hk := h'.kept k (h.kept k hk)
  length := h'.length.trans h.length

theorem Port.Latches.mono {sel sel' : EventKind → Prop} {q r : Port} (h : q.Latches sel r) (himp : ∀ k, sel k → sel' k) :
    q.Latches sel' r := ⟨h.frame, fun k hk => h.other k fun hsel => hk (himp k hsel), h.kept, h.length⟩

theorem Port.latches_latch {sel : EventKind → Prop} (q : Port) {k : EventKind} (hk : sel k) (x : BitVec 16) :
    q.Latches sel (q.latch k x) where
  frame := rfl
  other j hj := by
    have hne : j ≠ k := fun h => hj (h ▸ hk)
    exact ⟨Port.latch_isLatched_other q x hne, Port.latch_subject_other q x hne⟩
  kept j hj := by
    by_cases h : j = k
    · exact h ▸ Port.latch_isLatched_same q k x
    · rw [Port.latch_isLatched_other q x h, hj]
  length := updateAt_length _ _ _

/-! ## The examination of the queues -/

/-- A cue record but for what its release writes, and the generation the Composer names. -/
def Cue.beyondRelease (c : Cue) : Cue :=
  { c with flight := .queued, zones := c.zones.map fun z => (z.1, .pending), required := none }

/-- The Cue Scheduler but for what an examination writes. -/
def CueSched.beyondExamined (q : CueSched) : CueSched :=
  { q with pool := [], queues := [], zones := [], tx := [], tag := 0 }

/-- The part but for what an examination writes. -/
def Part.beyondExamined (p : Part) : Part :=
  { p with table := { p.table with records := [] }, cues := p.cues.beyondExamined, info := p.info.beyondEvents,
           ctl := p.ctl.beyondEvents }

/-- The part `q` is what releases leave of the part `p`. -/
structure Part.Released (p q : Part) : Prop where
  frame : q.beyondExamined = p.beyondExamined
  records : q.table.records.map Record.beyondAnnounced = p.table.records.map Record.beyondAnnounced
  port : ∀ l, (p.port l).Latches (· = .cueFailed) (q.port l)
  pool : q.cues.pool.map Cue.beyondRelease = p.cues.pool.map Cue.beyondRelease

theorem Part.Released.refl (p : Part) : p.Released p := ⟨rfl, rfl, fun _ => .refl _ _, rfl⟩

theorem Part.Released.trans {p q r : Part} (h : p.Released q) (h' : q.Released r) : p.Released r where
  frame := h'.frame.trans h.frame
  records := h'.records.trans h.records
  port l := (h.port l).trans (h'.port l)
  pool := h'.pool.trans h.pool

theorem Cue.setOutcome_beyondRelease (c : Cue) (sel : Nat → Bool) (o : ZoneOutcome) (f : Flight) :
    ({ c.setOutcome sel o with flight := f } : Cue).beyondRelease = c.beyondRelease := by
  have hzones : (c.setOutcome sel o).zones.map (fun z => (z.1, ZoneOutcome.pending)) = c.zones.map fun z => (z.1, .pending) := by
    simp only [Cue.setOutcome, List.map_map]
    refine List.map_congr_left fun z _ => ?_
    simp only [Function.comp]
    split <;> rfl
  unfold Cue.beyondRelease
  dsimp only
  rw [hzones]
  rfl

/-- A change of one record that a mask hides. -/
theorem map_ite_mask {α β : Type} (l : List α) (sel : α → Bool) (f : α → α) (mask : α → β) (h : ∀ a, mask (f a) = mask a) :
    (l.map fun a => if sel a then f a else a).map mask = l.map mask := by
  rw [List.map_map]
  refine List.map_congr_left fun a _ => ?_
  simp only [Function.comp]
  split
  · exact h a
  · rfl

theorem foldl_setZone_frame (on : List Nat) (st : ZoneState) (q : CueSched) :
    on.foldl (fun q z => q.setZone z st) q = { q with zones := (on.foldl (fun q z => q.setZone z st) q).zones } := by
  induction on generalizing q with
  | nil => rfl
  | cons z on ih => rw [List.foldl_cons, ih (q.setZone z st)]; rfl

/-- What a release writes in the scheduler. -/
theorem Part.released_modCues {p : Part} {f : CueSched → CueSched} (hf : (f p.cues).beyondExamined = p.cues.beyondExamined)
    (hpool : (f p.cues).pool.map Cue.beyondRelease = p.cues.pool.map Cue.beyondRelease) : p.Released (p.modCues f) where
  frame := congrArg (fun q => { p.beyondExamined with cues := q }) hf
  records := rfl
  port l := by cases l <;> exact .refl _ _
  pool := hpool

theorem Part.released_latchNat (p : Part) (n : Nat) : p.Released (p.latchNat .cueFailed n) where
  frame := rfl
  records := rfl
  port l := by
    rw [Part.latchNat, Part.latch_port]
    exact Port.latches_latch (sel := (· = .cueFailed)) _ rfl _
  pool := rfl

theorem Part.released_tellPlay (p : Part) (c : Cue) : p.Released (p.tellPlay c) := by
  unfold Part.tellPlay
  split
  · refine ⟨rfl, ?_, fun l => by cases l <;> exact .refl _ _, rfl⟩
    refine map_ite_mask p.table.records _ _ Record.beyondAnnounced fun r => ?_
    unfold Record.beyondAnnounced
    cases r.mark <;> rfl
  · exact .refl p

theorem Part.released_releaseCue (p : Part) (c : Cue) : p.Released (p.releaseCue c) := by
  unfold Part.releaseCue
  dsimp only
  refine Part.Released.trans ?_ (Part.released_tellPlay _ c)
  have hsent : p.Released (p.modCues fun q =>
      (((c.pendingZones.filter fun z => p.cues.zone z != ZoneState.offline).foldl (fun (q : CueSched) z => q.setZone z (.playing c.id))
        { q with queues := q.queues.map fun (l : List Nat) => l.filter (· != c.id) }).modCue c.id fun x =>
          { x.setOutcome (c.pendingZones.filter fun z => p.cues.zone z == ZoneState.offline).contains .failed with
            flight := .sent (p.elapsed + 2000) }).transmit
        fun t => .play t c.id (c.pendingZones.filter fun z => p.cues.zone z != ZoneState.offline) c.tokens) := by
    refine Part.released_modCues ?_ ?_
    · rw [foldl_setZone_frame]
      rfl
    · rw [foldl_setZone_frame]
      exact map_ite_mask p.cues.pool _ _ Cue.beyondRelease fun x => Cue.setOutcome_beyondRelease x _ _ _
  split
  · exact hsent
  · exact hsent.trans (Part.released_latchNat _ _)

theorem Part.released_examine (p : Part) : p.Released p.examine := by
  unfold Part.examine
  generalize sortBy cueBefore (p.cues.pool.filter p.eligibleCue) = l
  induction l generalizing p with
  | nil => exact .refl p
  | cons c l ih => exact (p.released_releaseCue c).trans (ih (p.releaseCue c))

/-! ## The end of an event -/

theorem Part.released_nameGenerations (p : Part) : p.Released p.nameGenerations :=
  Part.released_modCues rfl (map_ite_mask p.cues.pool _ _ Cue.beyondRelease fun _ => rfl)

/-- What the end of an event leaves: the image composed anew if the Composer was told, and the releases. -/
theorem Part.finish_law (p : Part) :
    p.finish.image = (if p.ev.wallTold then p.image.take p.composeAll else p.image) ∧
      ({ p with image := p.finish.image, ev := noEvent } : Part).Released p.finish := by
  have hreleased (q : Part) : ({ q with ev := noEvent } : Part).Released { q.nameGenerations.examine with ev := noEvent } := by
    have h := q.released_nameGenerations.trans (Part.released_examine _)
    refine ⟨(congrArg (fun x : Part => { x with ev := noEvent }) h.frame :), h.records, fun l => ?_, h.pool⟩
    cases l
    · exact h.port .information
    · exact h.port .control
  have himage (q : Part) : q.nameGenerations.examine.image = q.image :=
    (congrArg Part.image (q.released_nameGenerations.trans (Part.released_examine _)).frame :)
  unfold Part.finish
  dsimp only
  split
  · refine ⟨himage p.recompose, ?_⟩
    have hsame : ({ p with image := p.recompose.nameGenerations.examine.image, ev := noEvent } : Part) =
        { p.recompose with ev := noEvent } :=
      congrArg (fun i => ({ p with image := i, ev := noEvent } : Part)) (himage p.recompose)
    exact hsame.symm ▸ hreleased p.recompose
  · refine ⟨himage p, ?_⟩
    have hsame : ({ p with image := p.nameGenerations.examine.image, ev := noEvent } : Part) = { p with ev := noEvent } :=
      congrArg (fun i => ({ p with image := i, ev := noEvent } : Part)) (himage p)
    exact hsame.symm ▸ hreleased p

theorem Part.Released.eq {p q : Part} (h : p.Released q) :
    q = { p with table := q.table, cues := q.cues, info := q.info, ctl := q.ctl } :=
  (congrArg (fun x : Part => { x with table := q.table, cues := q.cues, info := q.info, ctl := q.ctl }) h.frame :)

theorem Part.Released.names {p q : Part} (h : p.Released q) : q.table.names = p.table.names :=
  (congrArg (fun x : Part => x.table.names) h.frame :)

theorem Part.Released.sched {p q : Part} (h : p.Released q) : q.cues = { p.cues with
    pool := q.cues.pool, queues := q.cues.queues, zones := q.cues.zones, tx := q.cues.tx, tag := q.cues.tag } :=
  (congrArg (fun x : Part => { x.cues with
    pool := q.cues.pool, queues := q.cues.queues, zones := q.cues.zones, tx := q.cues.tx, tag := q.cues.tag }) h.frame :)

/-- The end of an event in one equation. -/
theorem Part.ended_eq (p : Part) (told : Bool) : p.ended told = { p with
    image := (p.ended told).image, table := (p.ended told).table, cues := (p.ended told).cues, info := (p.ended told).info,
    ctl := (p.ended told).ctl, ev := noEvent } :=
  (Part.finish_law _).2.eq

theorem Part.ended_image (p : Part) (told : Bool) :
    (p.ended told).image = if told then p.image.take p.composeAll else p.image :=
  (Part.finish_law _).1

theorem Part.ended_notices (p : Part) (told : Bool) : (p.ended told).notices = p.notices :=
  (congrArg Part.notices (p.ended_eq told) :)

theorem Part.ended_records (p : Part) (told : Bool) :
    (p.ended told).table.records.map Record.beyondAnnounced = p.table.records.map Record.beyondAnnounced :=
  (Part.finish_law _).2.records

theorem Part.ended_port (p : Part) (told : Bool) (l : Link) : (p.port l).Latches (· = .cueFailed) ((p.ended told).port l) := by
  have h := (Part.finish_law { p with ev := { noEvent with wallTold := told } }).2.port l
  cases l <;> exact h

theorem Part.ended_pool (p : Part) (told : Bool) :
    (p.ended told).cues.pool.map Cue.beyondRelease = p.cues.pool.map Cue.beyondRelease :=
  (Part.finish_law _).2.pool

theorem Part.ended_sched (p : Part) (told : Bool) : (p.ended told).cues = { p.cues with
    pool := (p.ended told).cues.pool, queues := (p.ended told).cues.queues, zones := (p.ended told).cues.zones,
    tx := (p.ended told).cues.tx, tag := (p.ended told).cues.tag } :=
  (Part.finish_law _).2.sched

end Sys2Proof.Machine
end

section
/-! The Notice List as NOTICE_POST, NOTICE_WITHDRAW, NOTICE_EXPIRY and ROTATION_DWELL_END leave it. -/

namespace Sys2Proof.Machine

/-! ## The best element of a list -/

section Pick
variable {α : Type} {f : Option α → α → Option α} {better : α → α → Bool}

/-- A fold that goes on from an element keeps it or takes a better one that it meets. -/
theorem foldl_pick_from (h1 : ∀ b a, f (some b) a = if better a b then some a else some b)
    (hasymm : ∀ a b, better a b = true → better b a = false)
    (hweak : ∀ a b c, better a b = true → better c b = false → better a c = true) {v : α} (l l₁ l₂ : List α) (b : α)
    (hb₁ : ∀ x ∈ l₁, better b x = true) (hb₂ : ∀ x ∈ l₂, better x b = false) (h : l.foldl f (some b) = some v) :
    ∃ m₁ m₂, l₁ ++ b :: l₂ ++ l = m₁ ++ v :: m₂ ∧ (∀ x ∈ m₁, better v x = true) ∧ ∀ x ∈ m₂, better x v = false := by
  induction l generalizing l₁ l₂ b with
  | nil =>
    obtain rfl := Option.some.inj h
    exact ⟨l₁, l₂, by rw [List.append_nil], hb₁, hb₂⟩
  | cons a l ih =>
    rw [List.foldl_cons, h1] at h
    split at h
    · next hab =>
      have hbetter : ∀ x ∈ l₁ ++ b :: l₂, better a x = true := by
        intro x hx
        rcases List.mem_append.mp hx with hx | hx
        · exact hweak a b x hab (hasymm b x (hb₁ x hx))
        · rcases List.mem_cons.mp hx with rfl | hx
          · exact hab
          · exact hweak a b x hab (hb₂ x hx)
      obtain ⟨m₁, m₂, heq, hm⟩ := ih (l₁ ++ b :: l₂) [] a hbetter (fun x hx => by cases hx) h
      exact ⟨m₁, m₂, by rw [← heq]; simp, hm⟩
    · next hab =>
      have hworse : ∀ x ∈ l₂ ++ [a], better x b = false := by
        intro x hx
        rcases List.mem_append.mp hx with hx | hx
        · exact hb₂ x hx
        · exact List.mem_singleton.mp hx ▸ Bool.eq_false_iff.mpr hab
      obtain ⟨m₁, m₂, heq, hm⟩ := ih l₁ (l₂ ++ [a]) b hb₁ hworse h
      exact ⟨m₁, m₂, by rw [← heq]; simp, hm⟩

/-- A fold that picks the best element picks the first of the best. -/
theorem foldl_pick_first (h0 : ∀ a, f none a = some a) (h1 : ∀ b a, f (some b) a = if better a b then some a else some b)
    (hasymm : ∀ a b, better a b = true → better b a = false)
    (hweak : ∀ a b c, better a b = true → better c b = false → better a c = true) {v : α} {l : List α}
    (h : l.foldl f none = some v) :
    ∃ l₁ l₂, l = l₁ ++ v :: l₂ ∧ (∀ x ∈ l₁, better v x = true) ∧ ∀ x ∈ l₂, better x v = false := by
  cases l with
  | nil => cases h
  | cons a l =>
    rw [List.foldl_cons, h0] at h
    exact foldl_pick_from h1 hasymm hweak l [] [] a (fun x hx => by cases hx) (fun x hx => by cases hx) h

/-- A fold that picks an element finds one in every list that has any. -/
theorem foldl_pick_isSome (h0 : ∀ a, f none a = some a) (h1 : ∀ b a, f (some b) a = if better a b then some a else some b)
    (l : List α) (best : Option α) (h : l ≠ [] ∨ best ≠ none) : (l.foldl f best).isSome = true := by
  induction l generalizing best with
  | nil => exact Option.isSome_iff_ne_none.mpr (h.resolve_left fun hne => hne rfl)
  | cons a l ih =>
    refine ih _ (Or.inr ?_)
    cases best with
    | none => rw [h0]; exact Option.some_ne_none a
    | some b => rw [h1]; split <;> exact Option.some_ne_none _

end Pick

/-! ## The notice that gives way (R91) -/

/-- Of two automatic notices, the one that gives way. -/
def Notice.givesWay (n b : Notice) : Bool := b.priority < n.priority || (b.priority == n.priority && n.creation < b.creation)

theorem Notice.givesWay_iff (n b : Notice) : n.givesWay b = true ↔
    b.priority < n.priority ∨ b.priority = n.priority ∧ n.creation < b.creation := by
  simp [Notice.givesWay]

theorem Notice.givesWay_not_iff (n b : Notice) : n.givesWay b = false ↔
    n.priority < b.priority ∨ n.priority = b.priority ∧ b.creation ≤ n.creation := by
  rw [← Bool.not_eq_true, Notice.givesWay_iff]
  omega

/-- The victim is automatic, of a greater priority number, and gives way to no other such notice. -/
theorem NoticeList.victim_law {l : NoticeList} {pr : Nat} {v : Notice} (h : l.victim pr = some v) :
    (v ∈ l.notices ∧ v.kind ≠ .posted ∧ pr < v.priority) ∧
      ∀ w, (w ∈ l.notices ∧ w.kind ≠ .posted ∧ pr < w.priority) → w ≠ v → w.givesWay v = false := by
  obtain ⟨l₁, l₂, heq, hfirst, hrest⟩ := foldl_pick_first (better := Notice.givesWay) (fun _ => rfl) (fun _ _ => rfl)
    (fun a b hab => by rw [Notice.givesWay_iff] at hab; rw [Notice.givesWay_not_iff]; omega)
    (fun a b c hab hcb => by rw [Notice.givesWay_iff] at hab ⊢; rw [Notice.givesWay_not_iff] at hcb; omega) h
  have hmem (w : Notice) : w ∈ l₁ ++ v :: l₂ ↔ w ∈ l.notices ∧ w.kind ≠ .posted ∧ pr < w.priority := by
    rw [← heq, List.mem_filter]
    simp
  refine ⟨(hmem v).mp (by simp), fun w hw hne => ?_⟩
  rcases List.mem_append.mp ((hmem w).mpr hw) with hw | hw
  · have := hfirst w hw
    rw [Notice.givesWay_iff] at this
    rw [Notice.givesWay_not_iff]
    omega
  · exact hrest w ((List.mem_cons.mp hw).resolve_left hne)

theorem NoticeList.victim_isSome {l : NoticeList} {pr : Nat} {v : Notice}
    (h : v ∈ l.notices ∧ v.kind ≠ .posted ∧ pr < v.priority) : (l.victim pr).isSome = true := by
  refine foldl_pick_isSome (better := Notice.givesWay) (fun _ => rfl) (fun _ _ => rfl) _ none (Or.inl ?_)
  exact List.ne_nil_of_mem (List.mem_filter.mpr ⟨h.1, by simpa using h.2⟩)

/-- Two held notices of the same place key are one. -/
theorem NoticeList.ok.key_unique {l : NoticeList} (h : l.ok) {m n : Notice} (hm : m ∈ l.notices) (hn : n ∈ l.notices)
    (hp : m.priority = n.priority) (hc : m.creation = n.creation) : m = n := by
  obtain ⟨⟨_, _, horder, _⟩, _⟩ := (NoticeList.ok_iff _).mp h
  have hpairs : l.notices.Pairwise fun a b => ¬(a.priority = b.priority ∧ a.creation = b.creation) := by
    refine horder.imp fun hab => ?_
    rw [keyBefore_iff] at hab
    omega
  have : Std.Symm fun a b : Notice => ¬(a.priority = b.priority ∧ a.creation = b.creation) :=
    ⟨fun a b hab ⟨hp, hc⟩ => hab ⟨hp.symm, hc.symm⟩⟩
  by_contra hne
  exact hpairs.forall hm hn hne ⟨hp, hc⟩

/-! ## A notice created (R88, R89) -/

theorem insertBy_filter {α : Type} (before : α → α → Bool) (a : α) (l : List α) (f : α → Bool) (h : f a = false) :
    (insertBy before a l).filter f = l.filter f := by
  induction l with
  | nil => simp [insertBy, h]
  | cons b l ih =>
    unfold insertBy
    split
    · rw [List.filter_cons_of_neg (by rw [h]; exact Bool.false_ne_true)]
    · rw [List.filter_cons, ih, List.filter_cons]

/-- The id given to a new notice is in the range of ids and not in use. -/
theorem NoticeList.newId_free {l : NoticeList} (hlen : l.notices.length < 16) :
    firstFree (fun i => l.renumbered.notices.any (·.id == i)) 255 255 l.renumbered.nextId ∉ l.notices.map (·.id) := by
  have hids := NoticeList.renumbered_map l (·.id) fun _ _ => rfl
  have hlength : l.renumbered.notices.length = l.notices.length := by
    simpa using congrArg List.length hids
  rw [← hids]
  have hunused := firstFree_free (used := fun i => l.renumbered.notices.any (·.id == i))
    (l.renumbered.notices.map (·.id)) (fun n hn => by simpa using hn) l.renumbered.nextId (top := 255)
    (by rw [List.length_map]; omega)
  simpa using hunused

/-- A notice created joins the list with a new id, and the others keep their places. -/
theorem Part.createNotice_law {p : Part} (hlen : p.notices.notices.length < 16) (k : NoticeKind) (pr : Nat)
    (sv : Option Nat) (t : Text) (e : Option Nat) (o : NoticeOrigin) :
    ∃ n, n ∈ (p.createNotice k pr sv t e o).1.notices.notices ∧ (p.createNotice k pr sv t e o).2 = n.id ∧
      n.kind = k ∧ n.priority = pr ∧ n.service = sv ∧ n.text = t ∧ n.expiry = e ∧ n.origin = o ∧
      ((p.createNotice k pr sv t e o).1.notices.notices.filter (·.id != n.id)).map (·.id) = p.notices.notices.map (·.id) := by
  have hfree := NoticeList.newId_free hlen
  have hids := NoticeList.renumbered_map p.notices (·.id) fun _ _ => rfl
  let n : Notice := { id := firstFree (fun i => p.notices.renumbered.notices.any (·.id == i)) 255 255 p.notices.renumbered.nextId,
                      kind := k, priority := pr, creation := p.notices.renumbered.nextCreation, service := sv, text := t,
                      expiry := e, origin := o }
  have hlist : (p.createNotice k pr sv t e o).1.notices.notices = insertBy keyBefore n p.notices.renumbered.notices ∧
      (p.createNotice k pr sv t e o).2 = n.id := by
    unfold Part.createNotice
    dsimp only
    split <;> exact ⟨rfl, rfl⟩
  refine ⟨n, hlist.1 ▸ mem_insertBy.mpr (Or.inl rfl), hlist.2, rfl, rfl, rfl, rfl, rfl, rfl, ?_⟩
  rw [hlist.1, insertBy_filter _ _ _ _ (by simp), List.filter_eq_self.mpr, hids]
  intro m hm
  have hin := List.mem_map_of_mem (f := (·.id)) hm
  rw [hids] at hin
  have hne : m.id ≠ n.id := fun heq => hfree (show n.id ∈ _ from heq ▸ hin)
  simpa using hne

/-! ## NOTICE_POST (R94) -/

/-- A part with its Notice List and the marks of its event replaced. -/
theorem Part.eq_of_beyondNotices {p q : Part} (h : q.beyondNotices = p.beyondNotices) : q = { p with notices := q.notices, ev := q.ev } :=
  (congrArg (fun x : Part => { x with notices := q.notices, ev := q.ev }) h :)

/-- What the end of an event leaves of a part that differs from `p` in its notices. -/
theorem Part.finish_of_notices {p q : Part} (h : q.beyondNotices = p.beyondNotices) :
    q.finish = { p with notices := q.notices, image := q.finish.image, table := q.finish.table, cues := q.finish.cues,
                        info := q.finish.info, ctl := q.finish.ctl, ev := noEvent } ∧
      q.finish.notices = q.notices ∧
      q.finish.table.records.map Record.beyondAnnounced = p.table.records.map Record.beyondAnnounced := by
  rw [Part.finish_eq_ended]
  have htable : q.table = p.table := (congrArg Part.table h :)
  refine ⟨?_, Part.ended_notices _ _, (Part.ended_records _ _).trans (by rw [htable])⟩
  refine (Part.ended_eq q _).trans ?_
  exact congrArg (fun x : Part => { x with
    notices := q.notices, image := (q.ended q.ev.wallTold).image, table := (q.ended q.ev.wallTold).table,
    cues := (q.ended q.ev.wallTold).cues, info := (q.ended q.ev.wallTold).info, ctl := (q.ended q.ev.wallTold).ctl,
    ev := noEvent }) (Part.eq_of_beyondNotices h)

theorem noticePost_bad {l : Link} {priority : Nat} {expiry : Option Nat} {text : Text} {p : Part}
    (h : 3 < priority ∨ text = [] ∨ 120 < text.length ∨ ∃ e, expiry = some e ∧ ¬(10 ≤ e ∧ e ≤ 86400)) :
    noticePost l (priority, expiry, text) p = .reply p .invalidField [] := by
  refine if_pos ?_
  rw [← expiryAllowed_not_iff] at h
  simpa [or_assoc] using h

/-- The notice that a post creates, once there is room. -/
def Part.posted (p : Part) (l : Link) (priority : Nat) (expiry : Option Nat) (text : Text) (q : Part) : Part × Nat :=
  q.createNotice .posted (takenPriority l priority) none text (p.expiryInstant expiry) (postOrigin l)

theorem noticePost_full {l : Link} {priority : Nat} {expiry : Option Nat} {text : Text} {p : Part}
    (h : ¬(3 < priority ∨ text = [] ∨ 120 < text.length ∨ ∃ e, expiry = some e ∧ ¬(10 ≤ e ∧ e ≤ 86400)))
    (hroom : p.begin.noticeRoom (takenPriority l priority) = none) :
    noticePost l (priority, expiry, text) p = .reply p .full [] := by
  rw [← expiryAllowed_not_iff] at h
  have hgood : ¬(decide (3 < priority) || text.isEmpty || decide (120 < text.length) || !expiryAllowed expiry) = true := by
    simpa [or_assoc] using h
  rw [noticePost, if_neg hgood]
  dsimp only
  rw [hroom]
  rfl

theorem noticePost_taken {l : Link} {priority : Nat} {expiry : Option Nat} {text : Text} {p q : Part}
    (h : ¬(3 < priority ∨ text = [] ∨ 120 < text.length ∨ ∃ e, expiry = some e ∧ ¬(10 ≤ e ∧ e ≤ 86400)))
    (hroom : p.begin.noticeRoom (takenPriority l priority) = some q) :
    noticePost l (priority, expiry, text) p = .reply (p.posted l priority expiry text q).1.finish
      (if takenPriority l priority = priority then .ok else .okClamped)
      (be 1 (p.posted l priority expiry text q).2 ++ be 1 (takenPriority l priority)) := by
  rw [← expiryAllowed_not_iff] at h
  have hgood : ¬(decide (3 < priority) || text.isEmpty || decide (120 < text.length) || !expiryAllowed expiry) = true := by
    simpa [or_assoc] using h
  rw [noticePost, if_neg hgood]
  dsimp only
  rw [hroom]
  simp only [beq_iff_eq]
  rfl

theorem takenPriority_eq (l : Link) (priority : Nat) :
    takenPriority l priority = if l = .control ∧ priority = 3 then 2 else priority := by
  simp [takenPriority]

theorem postOrigin_eq (l : Link) : postOrigin l = if l = .control then .control else .information := by
  cases l <;> rfl

/-- The room made for a notice: the list less the notice that gives way. -/
theorem Part.noticeRoom_gone {p q : Part} {pr : Nat} {gone : Option Notice} (hok : p.notices.ok) (hq : p.noticeRoom pr = some q)
    (hgone : p.notices.notices.length < 16 ∧ gone = none ∨ 16 ≤ p.notices.notices.length ∧ ∃ v, gone = some v ∧
      (v ∈ p.notices.notices ∧ v.kind ≠ .posted ∧ pr < v.priority) ∧
      ∀ w, (w ∈ p.notices.notices ∧ w.kind ≠ .posted ∧ pr < w.priority) →
        w.priority < v.priority ∨ w.priority = v.priority ∧ v.creation ≤ w.creation) :
    q.notices.notices = p.notices.notices.filter fun m => gone.all fun v => m.id != v.id := by
  unfold Part.noticeRoom at hq
  split at hq
  · next hlen =>
    rcases hgone with ⟨_, rfl⟩ | ⟨hfull, _⟩
    · rw [← Option.some.inj hq]
      exact (List.filter_eq_self.mpr fun _ _ => rfl).symm
    · omega
  · next hlen =>
    obtain ⟨v, hv, rfl⟩ := Option.map_eq_some_iff.mp hq
    rcases hgone with ⟨hshort, _⟩ | ⟨_, u, rfl, hu, hbest⟩
    · omega
    · obtain ⟨hvmem, hvbest⟩ := NoticeList.victim_law hv
      have huv : u = v := by
        by_contra hne
        have hback := hvbest u hu hne
        rw [Notice.givesWay_not_iff] at hback
        have := hbest v hvmem
        exact hne (hok.key_unique hu.1 hvmem.1 (by omega) (by omega))
      obtain ⟨s, hs⟩ := p.dropNotice_notices v
      rw [hs, huv]
      rfl

/-- A post that passes its checks and finds room. -/
theorem noticePost_law {s : State} {rq : Req} {priority : Nat} {expiry : Option Nat} {text : Text} (he : Executes s 0x18 rq)
    (hr : readNoticePost rq.body = some (priority, expiry, text)) (hok : s.part.notices.ok)
    (hgood : ¬(3 < priority ∨ text = [] ∨ 120 < text.length ∨ ∃ e, expiry = some e ∧ ¬(10 ≤ e ∧ e ≤ 86400))) {q : Part}
    (hq : s.part.begin.noticeRoom (takenPriority rq.link priority) = some q) :
    ∃ (p : Part) (n : Notice),
      Answers (.noticePost rq) s 0x18 rq p (if takenPriority rq.link priority = priority then .ok else .okClamped)
        (be 1 n.id ++ be 1 (takenPriority rq.link priority)) ∧
      n ∈ p.notices.notices ∧ n.kind = .posted ∧ n.priority = takenPriority rq.link priority ∧ n.text = text ∧ n.service = none ∧
      n.expiry = expiry.map (fun e => s.part.elapsed + e * 1000) ∧
      n.origin = (if rq.link = .control then .control else .information) ∧
      (p.notices.notices.filter (·.id != n.id)).map (·.id) = q.notices.notices.map (·.id) ∧ p.notices.ok ∧
      p = { s.part with notices := p.notices, image := p.image, table := p.table, cues := p.cues, info := p.info,
                        ctl := p.ctl, ev := noEvent } ∧
      p.table.records.map Record.beyondAnnounced = s.part.table.records.map Record.beyondAnnounced := by
  obtain ⟨hqok, hqlen, _⟩ := Part.noticeRoom_ok hq hok
  have hpriority : takenPriority rq.link priority ≤ 3 := by
    rw [takenPriority_eq]
    split <;> omega
  have hmade : (s.part.posted rq.link priority expiry text q).1.beyondNotices = s.part.beyondNotices :=
    (Part.createNotice_beyondNotices _ _ _ _ _ _ _).trans (Part.noticeRoom_beyondNotices s.part.begin q _ hq)
  obtain ⟨hframe, hnotices, hrecords⟩ := Part.finish_of_notices hmade
  obtain ⟨n, hmem, hid, hkind, hprio, hservice, htext, hexp, horigin, hothers⟩ := Part.createNotice_law hqlen .posted
    (takenPriority rq.link priority) none text (s.part.expiryInstant expiry) (postOrigin rq.link)
  have hanswer := noticePost_taken hgood hq
  have hid : (s.part.posted rq.link priority expiry text q).2 = n.id := hid
  rw [hid] at hanswer
  refine ⟨_, n, answers_of_reply rfl he hr hanswer, ?_, hkind, hprio, htext, hservice, hexp, horigin.trans (postOrigin_eq _), ?_, ?_,
    ?_, hrecords⟩
  · rw [hnotices]; exact hmem
  · rw [hnotices]; exact hothers
  · rw [hnotices]
    exact Part.createNotice_ok hqok hqlen hpriority (fun h => absurd rfl h) _ _ _
  · rw [← hnotices] at hframe
    exact hframe

theorem noticeWithdraw_some {l : Link} {id : Nat} {p : Part} {n : Notice} (h : p.notices.byId id = some n) :
    (n.kind ≠ .posted → noticeWithdraw l id p = .reply p .notPermitted []) ∧
    (n.kind = .posted → (l = .control ∧ n.origin = .information) → noticeWithdraw l id p = .reply p .notOwner []) ∧
    (n.kind = .posted → ¬(l = .control ∧ n.origin = .information) →
      noticeWithdraw l id p = .reply (p.begin.dropNotice n).finish .ok []) := by
  unfold noticeWithdraw
  rw [h]
  dsimp only
  refine ⟨fun hk => if_pos (by simpa using hk), fun hk ho => ?_, fun hk ho => ?_⟩
  all_goals rw [if_neg (by simp [hk])]
  · exact if_pos (by simpa using ho)
  · exact if_neg (by simpa using ho)

/-- Settles O41: a post by its checks and the room it finds, a withdrawal by the notice it names. -/
theorem noticePostAndWithdraw : Obligations.NoticePostAndWithdraw := by
  refine ⟨?post, fun s rq id he hb => ⟨fun h => ?none, fun n hn => ?some⟩⟩
  case post =>
    intro s rq priority expiry text he hr hok taken held bad mayGo
    have htaken : takenPriority rq.link priority = taken := takenPriority_eq _ _
    refine ⟨fun hbad => answers_of_reply rfl he hr (noticePost_bad hbad), fun hgood hfull hnone => ?full,
      fun hgood gone hgone => ?room⟩
    case full =>
      refine answers_of_reply rfl he hr (noticePost_full hgood ?_)
      have hlen : ¬s.part.begin.notices.notices.length < 16 := Nat.not_lt.mpr hfull
      rw [Part.noticeRoom, if_neg hlen, Option.map_eq_none_iff]
      by_contra hne
      obtain ⟨v, hv⟩ := Option.ne_none_iff_exists'.mp hne
      rw [htaken] at hv
      exact hnone v (NoticeList.victim_law hv).1
    case room =>
      have hroom : ∃ q, s.part.begin.noticeRoom taken = some q := by
        unfold Part.noticeRoom
        rcases hgone with ⟨hlen, _⟩ | ⟨hlen, v, _, hv, _⟩
        · exact ⟨_, if_pos hlen⟩
        · obtain ⟨u, hu⟩ := Option.isSome_iff_exists.mp (NoticeList.victim_isSome hv)
          have hu : s.part.begin.notices.victim taken = some u := hu
          exact ⟨_, (if_neg (Nat.not_lt.mpr hlen)).trans (congrArg _ hu)⟩
      obtain ⟨q, hq⟩ := hroom
      have hleft := Part.noticeRoom_gone (p := s.part.begin) hok hq hgone
      rw [← htaken] at hq
      have hlaw := noticePost_law he hr hok hgood hq
      rw [hleft, htaken] at hlaw
      exact hlaw
  case none =>
    refine answers_of_reply rfl he (hb ▸ readOne_byte id) ?_
    rw [noticeWithdraw, h]
    rfl
  case some =>
    obtain ⟨hauto, hforeign, hown⟩ := noticeWithdraw_some (l := rq.link) hn
    refine ⟨fun hk => answers_of_reply rfl he (hb ▸ readOne_byte id) (hauto hk),
      fun hk hl ho => answers_of_reply rfl he (hb ▸ readOne_byte id) (hforeign hk ⟨hl, ho⟩), fun hk ho => ?_⟩
    have hid : n.id = id.toNat := by simpa using List.find?_some hn
    obtain ⟨hframe, hnotices, _⟩ := Part.finish_of_notices (p := s.part) (s.part.begin.dropNotice_beyondNotices n)
    obtain ⟨shown, hdrop⟩ := s.part.begin.dropNotice_notices n
    refine ⟨_, answers_of_reply rfl he (hb ▸ readOne_byte id) (hown hk ho), ?_, ?_, ?_⟩
    · rw [hnotices, hdrop, ← hid]
      rfl
    · rw [hnotices, hdrop]
      rfl
    · rw [← hnotices] at hframe
      exact hframe

end Sys2Proof.Machine
end

section
/-! Notices that expire, and the rotation at the end of a dwell. -/

namespace Sys2Proof.Machine

/-! ## NOTICE_EXPIRY (R95) -/

/-- A kind latched before the end of an event, other than the one the end may latch. -/
theorem Part.ended_latched {p : Part} {told : Bool} {k : EventKind} {n : Nat} (hk : k ≠ .cueFailed) (l : Link) :
    (((p.latchNat k n).ended told).port l).isLatched k = true ∧
      ((p.port l).subjects.length = 29 → (((p.latchNat k n).ended told).port l).subject k = BitVec.ofNat 16 n) := by
  obtain ⟨hflag, hsubject⟩ := (Part.ended_port (p.latchNat k n) told l).other k hk
  rw [hflag, hsubject, Part.latchNat, Part.latch_port]
  exact ⟨Port.latch_isLatched_same _ _ _, Port.latch_subject_same _ _ _⟩

theorem Part.dropNotice_port (p : Part) (n : Notice) (l : Link) : (p.dropNotice n).port l = p.port l :=
  (congrArg (·.port l) (Part.eq_of_beyondNotices (p.dropNotice_beyondNotices n))).trans (by cases l <;> rfl)

theorem Part.noticeExpiry_eq {p : Part} {id t : Nat} {n : Notice} (h : p.notices.byId id = some n) (ht : n.expiry = some t) :
    p.noticeExpiry id = (((p.advanceTo t).begin.dropNotice n).latchNat .noticeExpired id).finish := by
  unfold Part.noticeExpiry
  rw [h]
  dsimp only
  rw [ht]

/-! ## ROTATION_DWELL_END (R98) -/

/-- The rotation as it is left at the end of a dwell. -/
theorem Part.dwellEnd_notices {p : Part} {x : Shown} {n : Notice} (hx : p.notices.shown = some x)
    (hn : p.notices.byId x.id = some n) : p.dwellEnd.notices = (if p.notices.eligible.contains n && x.page < pageCount (p.noticeText n)
      then p.show n.id (x.page + 1) else p.rotateFrom n).notices := by
  unfold Part.dwellEnd
  rw [hx]
  dsimp only
  rw [hn]
  dsimp only
  split
  · split <;> rfl
  · rfl

theorem Part.show_notices (p : Part) (id page : Nat) : (p.show id page).notices =
    { p.notices with shown := some { id := id, page := page, dwellEnd := p.elapsed + p.noticeDwell } } := rfl

theorem Part.rotateFrom_next {p : Part} {n m : Notice} (h : (p.notices.eligible.find? fun m => keyBefore n m) = some m) :
    p.rotateFrom n = p.show m.id 1 := by
  rw [Part.rotateFrom, h]
  rfl

theorem Part.rotateFrom_first {p : Part} {n m : Notice} {rest : List Notice}
    (h : (p.notices.eligible.find? fun m => keyBefore n m) = none) (hfirst : p.notices.eligible = m :: rest) :
    p.rotateFrom n = p.show m.id 1 := by
  rw [Part.rotateFrom, h, hfirst]
  rfl

theorem Part.rotationDwellEnd_eq {p : Part} {x : Shown} (hx : p.notices.shown = some x) :
    p.rotationDwellEnd = (p.advanceTo x.dwellEnd).begin.dwellEnd.finish := by
  rw [Part.rotationDwellEnd, hx]

/-- Settles O42: the notice dropped and its event latched, and the rotation moved on. -/
theorem noticesExpireAndRotate : Obligations.NoticesExpireAndRotate := by
  refine ⟨fun s id t n hp hn ht => ?expiry, fun s x n hp hx hn => ?dwell⟩
  case expiry =>
    have hid : n.id = id := by simpa using List.find?_some hn
    let q := (s.part.advanceTo t).begin
    have hq : ((q.dropNotice n).latchNat .noticeExpired id).finish =
        ((q.dropNotice n).latchNat .noticeExpired id).ended ((q.dropNotice n).latchNat .noticeExpired id).ev.wallTold :=
      Part.finish_eq_ended _
    obtain ⟨shown, hdrop⟩ := q.dropNotice_notices n
    have hrest := q.dropNotice_beyondNotices n
    refine ⟨_, leaves_act (·.noticeExpiry id) rfl hp (Part.noticeExpiry_eq hn ht), ?_, ?_, fun l => ?_, ?_⟩
    · exact (Part.finish_elapsed _).trans (congrArg Part.elapsed hrest :)
    · rw [hq, Part.ended_notices]
      show (q.dropNotice n).notices.notices = _
      rw [hdrop, ← hid]
      rfl
    · rw [hq]
      obtain ⟨hflag, hsubject⟩ := Part.ended_latched (p := q.dropNotice n) (told := ((q.dropNotice n).latchNat .noticeExpired id).ev.wallTold)
        (k := .noticeExpired) (n := id) (by decide) l
      rw [Part.dropNotice_port] at hsubject
      refine ⟨hflag, fun hlen => hsubject ?_⟩
      have hport : q.port l = (s.part.advanceTo t).port l := by cases l <;> rfl
      rw [hport, Part.advanceTo_port, Port.carry_subjects, hlen]
    · simp only [Part.finish_own, Part.finish_chain, Part.finish_clocks, Part.finish_store, Part.finish_inputs, Part.finish_feed]
      exact ⟨(congrArg Part.own hrest :), (congrArg Part.chain hrest :), (congrArg Part.clocks hrest :),
        (congrArg Part.store hrest :), (congrArg Part.inputs hrest :), (congrArg Part.feed hrest :)⟩
  case dwell =>
    intro more now fresh
    let q := (s.part.advanceTo x.dwellEnd).begin
    obtain ⟨hframe, hnotices, _⟩ := Part.finish_of_notices (p := q) q.dwellEnd_beyondNotices
    have hlaw : q.dwellEnd.notices = (if more then q.show n.id (x.page + 1) else q.rotateFrom n).notices :=
      Part.dwellEnd_notices (p := q) hx hn
    have hid : n.id = x.id := by simpa using List.find?_some hn
    have hmore : more = true → q.dwellEnd.notices.shown = fresh x.id (x.page + 1) := by
      intro h
      rw [hlaw, if_pos h, Part.show_notices, hid]
      rfl
    have hnext : more = false → ∀ m, (s.part.notices.eligible.find? fun m => keyBefore n m) = some m →
        q.dwellEnd.notices.shown = fresh m.id 1 := by
      intro h m hm
      rw [hlaw, if_neg (by rw [h]; exact Bool.false_ne_true), Part.rotateFrom_next (p := q) hm, Part.show_notices]
      rfl
    have hfirst : more = false → (s.part.notices.eligible.find? fun m => keyBefore n m) = none →
        ∀ m rest, s.part.notices.eligible = m :: rest → q.dwellEnd.notices.shown = fresh m.id 1 := by
      intro h hnone m rest hm
      rw [hlaw, if_neg (by rw [h]; exact Bool.false_ne_true), Part.rotateFrom_first (p := q) hnone hm, Part.show_notices]
      rfl
    refine ⟨_, leaves_act Part.rotationDwellEnd rfl hp (Part.rotationDwellEnd_eq hx), (congrArg Part.elapsed hframe :), ?_, ?_, ?_,
      ?_, (congrArg Part.own hframe :), (congrArg Part.chain hframe :), (congrArg Part.clocks hframe :),
      (congrArg Part.store hframe :), (congrArg Part.inputs hframe :), (congrArg Part.feed hframe :)⟩
    all_goals rw [hnotices]
    · rw [hlaw]
      split
      · rfl
      · obtain ⟨shown, hshown, _⟩ := q.rotateFrom_notices n
        rw [hshown]
        rfl
    · exact hmore
    · exact hnext
    · exact hfirst

end Sys2Proof.Machine
end

section
/-! The spare: its choice, its duty, and PANEL_SPARE. -/

namespace Sys2Proof.Machine

/-! ## The spare's choice (R132) -/

theorem numbersFrom_pairwise (lo n : Nat) : (numbersFrom lo n).Pairwise (· < ·) := by
  refine List.pairwise_map.mpr (List.pairwise_lt_range.imp fun h => ?_)
  omega

/-- A position that the spare may be given (R132). -/
def Chain.candidate (c : Chain) (m : Nat) : Prop := 1 ≤ m ∧ m ≤ c.positions ∧ (c.panel m).isFaulted = true

theorem Chain.mem_candidates (c : Chain) (m : Nat) :
    m ∈ (numbersFrom 1 c.positions).filter (fun n => (c.panel n).isFaulted) ↔ c.candidate m := by
  rw [List.mem_filter, mem_numbersFrom, Chain.candidate]
  constructor
  · rintro ⟨hm, hf⟩
    exact ⟨by omega, by omega, hf⟩
  · rintro ⟨h1, h2, hf⟩
    exact ⟨by omega, hf⟩

/-- The choice is the candidate of smallest importance, the lower number between equals. -/
theorem Part.spareChoice_best {p : Part} {n : Nat} (h : p.spareChoice = some n) :
    (p.chain.panel 13).isUp = true ∧ p.chain.candidate n ∧ ∀ m, p.chain.candidate m →
      p.image.importance n < p.image.importance m ∨ p.image.importance n = p.image.importance m ∧ n ≤ m := by
  unfold Part.spareChoice at h
  split at h
  · cases h
  · next hup =>
    obtain ⟨l₁, l₂, heq, hfirst, hrest⟩ := foldl_pick_first
      (better := fun a b => decide (p.image.importance a < p.image.importance b)) (fun _ => rfl)
      (fun _ _ => by simp only [decide_eq_true_eq]) (fun a b hab => by simp only [decide_eq_true_eq, decide_eq_false_iff_not] at *; omega)
      (fun a b c hab hcb => by simp only [decide_eq_true_eq, decide_eq_false_iff_not] at *; omega) h
    have horder : (l₁ ++ n :: l₂).Pairwise (· < ·) := heq ▸ (numbersFrom_pairwise 1 _).filter _
    have hmem (m : Nat) : m ∈ l₁ ++ n :: l₂ ↔ p.chain.candidate m := heq ▸ p.chain.mem_candidates m
    refine ⟨by simpa using hup, (hmem n).mp (by simp), fun m hm => ?_⟩
    rcases List.mem_append.mp ((hmem m).mpr hm) with hm | hm
    · have := hfirst m hm
      simp only [decide_eq_true_eq] at this
      exact Or.inl this
    · rcases List.mem_cons.mp hm with rfl | hm
      · exact Or.inr ⟨rfl, Nat.le_refl _⟩
      · have hle := hrest m hm
        have hlt := (List.pairwise_cons.mp (List.pairwise_append.mp horder).2.1).1 m hm
        simp only [decide_eq_false_iff_not] at hle
        omega

theorem Part.spareChoice_isSome {p : Part} {n : Nat} (hup : (p.chain.panel 13).isUp = true) (h : p.chain.candidate n) :
    p.spareChoice.isSome = true := by
  rw [Part.spareChoice, if_neg (by simp [hup])]
  exact foldl_pick_isSome (better := fun a b => decide (p.image.importance a < p.image.importance b)) (fun _ => rfl)
    (fun _ _ => by simp only [decide_eq_true_eq]) _ none (Or.inl (List.ne_nil_of_mem ((p.chain.mem_candidates n).mpr h)))

theorem Part.spareChoice_iff (p : Part) (n : Nat) : p.spareChoice = some n ↔
    (p.chain.panel 13).isUp = true ∧ p.chain.candidate n ∧ ∀ m, p.chain.candidate m →
      p.image.importance n < p.image.importance m ∨ p.image.importance n = p.image.importance m ∧ n ≤ m := by
  refine ⟨Part.spareChoice_best, fun ⟨hup, hn, hbest⟩ => ?_⟩
  obtain ⟨m, hm⟩ := Option.isSome_iff_exists.mp (Part.spareChoice_isSome hup hn)
  obtain ⟨_, hcand, hmbest⟩ := Part.spareChoice_best hm
  have h1 := hbest m hcand
  have h2 := hmbest n hn
  rw [hm, show m = n by omega]

/-! ## The duty (R133) -/

theorem Part.setDuty_same {p : Part} {d : Duty} (h : p.chain.duty = d) : p.setDuty d = p := if_pos (by simp [h])

theorem Part.setDuty_new {p : Part} {d : Duty} (h : p.chain.duty ≠ d) (hfit : p.chain.duty ≠ .notFitted) :
    p.setDuty d = ((p.modChain fun c => { c.supersede (· == 13) with duty := d, clearDue := true }).modPanel 13
      fun n => { n with ack := 0, refresh := true }).latchNat .spareChanged (d.covers.getD 0) :=
  if_neg (by simp [h, hfit])

/-! ## PANEL_SPARE (R135) -/

/-- The mode an action leaves. -/
def spareModeOf (action n : Nat) : SpareMode := if action = 0 then .pinned n else if action = 1 then .released else .automatic

/-- The duty an action asks for. -/
def Part.spareDutyOf (p : Part) (action n : Nat) : Duty :=
  if action = 0 then .engaged n else if action = 1 then .standby else
    match p.spareChoice with
    | some m => .engaged m
    | none => .standby

theorem Part.spareAction_eq (p : Part) (action n : Nat) :
    p.spareAction action n = (p.modChain fun c => { c with mode := spareModeOf action n }).setDuty (p.spareDutyOf action n) := by
  unfold Part.spareAction spareModeOf Part.spareDutyOf
  by_cases h0 : action = 0
  · subst h0
    rfl
  by_cases h1 : action = 1
  · subst h1
    rfl
  simp only [h0, h1, beq_iff_eq, if_false]
  exact if_pos rfl

theorem Chain.spareStateBytes_engaged {c : Chain} {m : Nat} (h : c.duty = .engaged m) (hup : (c.panel 13).isFaulted = false) :
    c.spareStateBytes = 3 :: be 1 m := by
  simp [Chain.spareStateBytes, h, hup]

theorem Chain.spareStateBytes_standby {c : Chain} (h : c.duty = .standby) :
    c.spareStateBytes = if (c.panel 13).isFaulted then [1] else [2] := by
  simp [Chain.spareStateBytes, h]

theorem panelSpare_barred {l : Link} {action n : Nat} {p : Part} {r : Result} (h : p.spareBarred l action n = some r) :
    panelSpare l (action, n) p = .reply p r [] := by
  rw [panelSpare, h]
  rfl

theorem panelSpare_done {l : Link} {action n : Nat} {p : Part} (h : p.spareBarred l action n = none) :
    panelSpare l (action, n) p = .reply (p.begin.spareAction action n).finish .ok (p.begin.spareAction action n).finish.chain.spareBody := by
  rw [panelSpare, h]

/-- The checks of PANEL_SPARE that do not look at the chain. -/
theorem Part.spareBarred_first (p : Part) (l : Link) (action n : Nat) :
    (p.own.wall ≠ l → p.spareBarred l action n = some .notOwner) ∧
    (p.own.wall = l → ¬(action ≤ 2 ∧ (action = 0 → 1 ≤ n ∧ n ≤ 12)) → p.spareBarred l action n = some .invalidField) ∧
    (p.own.wall = l → action ≤ 2 ∧ (action = 0 → 1 ≤ n ∧ n ≤ 12) → p.chain.test.phase ≠ .idle →
      p.spareBarred l action n = some .testRunning) := by
  unfold Part.spareBarred LinkTest.isRunning
  refine ⟨fun h => if_pos (by simpa using h), fun h hs => ?_, fun h hs ht => ?_⟩
  all_goals rw [if_neg (by simpa using h)]
  · refine if_pos ?_
    simp only [Bool.or_eq_true, Bool.and_eq_true, decide_eq_true_eq, beq_iff_eq]
    by_contra hno
    exact hs ⟨by omega, fun h0 => by omega⟩
  · obtain ⟨ha, hn⟩ := hs
    rw [if_neg (by simp only [Bool.or_eq_true, Bool.and_eq_true, decide_eq_true_eq, beq_iff_eq]; omega)]
    exact if_pos (by simpa using ht)

/-- The checks of PANEL_SPARE that look at the chain. -/
theorem Part.spareBarred_chain {p : Part} {l : Link} {action n : Nat} (h : p.own.wall = l)
    (hs : action ≤ 2 ∧ (action = 0 → 1 ≤ n ∧ n ≤ 12)) (ht : p.chain.test.phase = .idle) :
    (p.chain.duty = .notFitted → p.spareBarred l action n = some .notReady) ∧
    (p.chain.duty ≠ .notFitted → action = 0 → ¬(n ≤ p.chain.positions ∧ (p.chain.panel n).isFaulted = true) →
      p.spareBarred l action n = some .invalidField) ∧
    (p.chain.duty ≠ .notFitted → action = 0 → n ≤ p.chain.positions → (p.chain.panel n).isFaulted = true →
      (p.chain.panel 13).isUp = false → p.spareBarred l action n = some .notReady) ∧
    (p.chain.duty ≠ .notFitted →
      (action = 0 → n ≤ p.chain.positions ∧ (p.chain.panel n).isFaulted = true ∧ (p.chain.panel 13).isUp = true) →
      p.spareBarred l action n = none) := by
  obtain ⟨ha, hn⟩ := hs
  unfold Part.spareBarred LinkTest.isRunning Chain.inUse
  refine ⟨fun hd => ?_, fun hd h0 hc => ?_, fun hd h0 hpos hf hup => ?_, fun hd hc => ?_⟩
  all_goals rw [if_neg (by simpa using h), if_neg (by simp only [Bool.or_eq_true, Bool.and_eq_true, decide_eq_true_eq, beq_iff_eq]; omega),
    if_neg (by simpa using ht)]
  · exact if_pos (by simpa using hd)
  · rw [if_neg (by simpa using hd)]
    refine if_pos ?_
    subst h0
    have := hn rfl
    by_cases hpos : n ≤ p.chain.positions <;> simp_all
  · subst h0
    have := hn rfl
    rw [if_neg (by simpa using hd), if_neg (by simp [hpos, hf]; omega)]
    exact if_pos (by simp [hup])
  · by_cases h0 : action = 0
    · subst h0
      obtain ⟨hpos, hf, hup⟩ := hc rfl
      have := hn rfl
      rw [if_neg (by simpa using hd), if_neg (by simp [hpos, hf]; omega), if_neg (by simp [hup])]
    · rw [if_neg (by simpa using hd), if_neg (by simp [h0]), if_neg (by simp [h0])]

/-- Which command a body of PANEL_SPARE is. -/
theorem spareCommand_of_body {rq : Req} {action pos : Byte} (hb : rq.body = [action, pos]) {command : Instr}
    (h : action = 1 ∧ command = .panelSpareRelease rq ∨ action = 2 ∧ command = .panelSpareAutomatic rq ∨
      action ≠ 1 ∧ action ≠ 2 ∧ command = .panelSparePin rq) : command = spareCommand rq := by
  have hone : action.toNat = 1 ↔ action = 1 := ⟨fun h => BitVec.eq_of_toNat_eq h, fun h => h ▸ rfl⟩
  have htwo : action.toNat = 2 ↔ action = 2 := ⟨fun h => BitVec.eq_of_toNat_eq h, fun h => h ▸ rfl⟩
  unfold spareCommand actionIs
  rw [hb]
  rcases h with ⟨rfl, rfl⟩ | ⟨rfl, rfl⟩ | ⟨h1, h2, rfl⟩
  · rfl
  · rfl
  · have h1 : ¬action.toNat = 1 := fun h => h1 (hone.mp h)
    have h2 : ¬action.toNat = 2 := fun h => h2 (htwo.mp h)
    simp [h1, h2]

/-- The panels' states after the duty has been set. -/
theorem Part.setDuty_isFaulted (p : Part) (d : Duty) (n : Nat) :
    ((p.setDuty d).chain.panel n).isFaulted = (p.chain.panel n).isFaulted :=
  Panel.isFaulted_of_state ((p.setDuty_chain d).2.1 n)

/-- What an action leaves of a part whose spare is fitted. -/
theorem Part.spareAction_law {p : Part} (action n : Nat) (hd : p.chain.duty ≠ .notFitted) :
    p.spareAction action n = (if p.chain.duty = p.spareDutyOf action n
      then { p with chain := { p.chain with mode := spareModeOf action n } }
      else ({ p with chain := { p.chain with
        mode := spareModeOf action n
        duty := p.spareDutyOf action n
        clearDue := true
        poll := p.chain.poll.map fun q => { q with superseded := q.superseded || q.frame.address == 13 }
        panels := updateAt p.chain.panels 12 fun x => { x with ack := 0, refresh := true } } } : Part).latchNat .spareChanged
          ((p.spareDutyOf action n).covers.getD 0)) := by
  rw [Part.spareAction_eq]
  split
  · next h => exact Part.setDuty_same (p := p.modChain fun c => { c with mode := spareModeOf action n }) h
  · next h => exact Part.setDuty_new (p := p.modChain fun c => { c with mode := spareModeOf action n }) h hd

/-- The marks of the event do not matter to an action. -/
theorem Part.spareAction_begin {p : Part} (action n : Nat) (hd : p.chain.duty ≠ .notFitted) :
    p.begin.spareAction action n = (p.spareAction action n).withEv p.begin.ev := by
  rw [Part.spareAction_law (p := p.begin) _ _ hd, Part.spareAction_law _ _ hd]
  by_cases h : p.chain.duty = p.spareDutyOf action n
  · have h' : p.begin.chain.duty = p.begin.spareDutyOf action n := h
    rw [if_pos h, if_pos h']
    rfl
  · have h' : ¬p.begin.chain.duty = p.begin.spareDutyOf action n := h
    rw [if_neg h, if_neg h']
    rfl

theorem Part.spareAction_duty {p : Part} (action n : Nat) (hd : p.chain.duty ≠ .notFitted) :
    (p.spareAction action n).chain.duty = p.spareDutyOf action n ∧ (p.spareAction action n).chain.mode = spareModeOf action n ∧
      ((p.spareAction action n).chain.panel 13).isFaulted = (p.chain.panel 13).isFaulted := by
  refine ⟨?_, ?_, ?_⟩
  · rw [Part.spareAction_law _ _ hd]
    split
    · next h => exact h
    · rfl
  · rw [Part.spareAction_law _ _ hd]
    split <;> rfl
  · rw [Part.spareAction_eq, Part.setDuty_isFaulted]
    rfl

/-- The spare is up where an action engages it. -/
theorem Part.spareDutyOf_engaged {p : Part} {action n m : Nat} (hpin : action = 0 → (p.chain.panel 13).isUp = true)
    (h : p.spareDutyOf action n = .engaged m) : (p.chain.panel 13).isFaulted = false := by
  refine Panel.not_isFaulted_of_isUp ?_
  unfold Part.spareDutyOf at h
  split at h
  · next h0 => exact hpin h0
  · split at h
    · cases h
    · split at h
      · next k hk => exact (Part.spareChoice_best hk).1
      · cases h

/-- Settles O45: the choice by `spareChoice_iff`, the checks in order, and the duty an action sets. -/
theorem panelSpareActions : Obligations.PanelSpareActions := by
  refine ⟨fun p n => p.spareChoice_iff n, ?actions⟩
  case actions =>
    intro s rq action pos command he hb hcommand c n refused shaped
    obtain rfl := spareCommand_of_body hb hcommand
    have hzero : action = 0 ↔ action.toNat = 0 := byte_eq_zero_iff action
    have hone : action = 1 ↔ action.toNat = 1 := ⟨fun h => h ▸ rfl, fun h => BitVec.eq_of_toNat_eq h⟩
    have hbarred {r : Result} (h : s.part.spareBarred rq.link action.toNat n = some r) : refused r :=
      answers_of_reply (exec_spareCommand rq s) he (hb ▸ readTwo_bytes action pos) (panelSpare_barred h)
    have hshaped : shaped ↔ action.toNat ≤ 2 ∧ (action.toNat = 0 → 1 ≤ n ∧ n ≤ 12) := by rw [← hzero]
    obtain ⟨howner, hshape, htest⟩ := s.part.spareBarred_first rq.link action.toNat n
    refine ⟨fun hw => hbarred (howner hw), fun hw => ⟨fun hs => hbarred (hshape hw (hshaped.not.mp hs)),
      fun hs ht => hbarred (htest hw (hshaped.mp hs) ht), fun hs ht => ?chain⟩⟩
    case chain =>
      obtain ⟨hfit, hpin, hup, hdone⟩ := Part.spareBarred_chain hw (hshaped.mp hs) ht
      rw [← hzero] at hpin hup hdone
      refine ⟨fun hd => hbarred (hfit hd), fun hd h0 hc => hbarred (hpin hd h0 hc),
        fun hd h0 hpos hf hu => hbarred (hup hd h0 hpos hf hu), fun hd hc => ?done⟩
      case done =>
        intro mode duty moved stayed
        have hmode : spareModeOf action.toNat n = mode := by simp only [spareModeOf, ← hzero, ← hone, mode]
        have hduty : s.part.spareDutyOf action.toNat n = duty := by
          simp only [Part.spareDutyOf, ← hzero, ← hone, duty] <;> rfl
        have hfinish : (s.part.begin.spareAction action.toNat n).finish =
            (if c.duty = duty then stayed else moved.latchNat .spareChanged (duty.covers.getD 0)).ended false := by
          have hlike : (s.part.begin.spareAction action.toNat n).Like (s.part.spareAction action.toNat n) :=
            ⟨_, Part.spareAction_begin _ _ hd⟩
          rw [hlike.finish (told := false) (by rw [Part.spareAction_begin _ _ hd]; rfl), Part.spareAction_law _ _ hd, hduty, hmode]
        have hset := Part.spareAction_duty (p := s.part.begin) action.toNat n hd
        obtain ⟨hsetDuty, hsetMode, hsetFault⟩ := hset
        have hanswer := panelSpare_done (hdone hd hc)
        rw [Part.finish_chain] at hanswer
        rw [hfinish] at hanswer
        refine answers_of_reply (exec_spareCommand rq s) he (hb ▸ readTwo_bytes action pos)
          (hanswer.trans (congrArg (Answer.reply _ _) ?_))
        show spareModeBytes (s.part.begin.spareAction action.toNat n).chain.mode ++
          (s.part.begin.spareAction action.toNat n).chain.spareStateBytes = _
        rw [hsetMode, hmode]
        congr 1
        have hsetDuty : (s.part.begin.spareAction action.toNat n).chain.duty = duty := hsetDuty.trans hduty
        cases hd' : duty with
        | notFitted => rw [Chain.spareStateBytes, hsetDuty, hd']
        | standby =>
          rw [Chain.spareStateBytes_standby (hsetDuty.trans hd'), hsetFault]
          rfl
        | engaged m =>
          have hfault := Part.spareDutyOf_engaged (p := s.part) (n := n) (fun h0 => (hc (hzero.mpr h0)).2.2) (hduty.trans hd')
          rw [Chain.spareStateBytes_engaged (hsetDuty.trans hd') (hsetFault.trans hfault)]

end Sys2Proof.Machine
end

section
/-! The link test: its beginning and end, the pattern and the detector. -/

namespace Sys2Proof.Machine

/-! ## The pattern (R140) -/

theorem times_eq_iterate {α : Type} (n : Nat) (f : α → α) (a : α) : times n f a = f^[n] a := by
  induction n generalizing a with
  | zero => rfl
  | succ n ih => rw [times, ih]; rfl

/-- The pattern comes back after 2047 bits. -/
theorem pattern_period : times 2047 patternNext (BitVec.allOnes 11) = BitVec.allOnes 11 := by decide +kernel

/-- It does not come back after 89 bits or 23 bits: 2047 is 23 times 89. -/
theorem pattern_not_89 : times 89 patternNext (BitVec.allOnes 11) ≠ BitVec.allOnes 11 := by decide +kernel

theorem pattern_not_23 : times 23 patternNext (BitVec.allOnes 11) ≠ BitVec.allOnes 11 := by decide +kernel

/-- When the pattern comes back, in the words of its minimal period. -/
theorem pattern_returns_iff (n : Nat) : times n patternNext (BitVec.allOnes 11) = BitVec.allOnes 11 ↔
    Function.minimalPeriod patternNext (BitVec.allOnes 11) ∣ n := by
  rw [← Function.isPeriodicPt_iff_minimalPeriod_dvd, times_eq_iterate]
  rfl

theorem pattern_minimalPeriod : Function.minimalPeriod patternNext (BitVec.allOnes 11) = 2047 := by
  have hdvd := (pattern_returns_iff 2047).mp pattern_period
  have h89 := (pattern_returns_iff 89).not.mp pattern_not_89
  have h23 := (pattern_returns_iff 23).not.mp pattern_not_23
  have hdivisors : Nat.divisors 2047 = {1, 23, 89, 2047} := by decide +kernel
  have hmem := Nat.mem_divisors.mpr ⟨hdvd, (by decide : 2047 ≠ 0)⟩
  rw [hdivisors] at hmem
  simp only [Finset.mem_insert, Finset.mem_singleton] at hmem
  rcases hmem with h | h | h | h
  · exact absurd (h ▸ one_dvd 89) h89
  · exact absurd (dvd_of_eq h) h23
  · exact absurd (dvd_of_eq h) h89
  · exact h

theorem patternNext_bits (g : BitVec 11) : (∀ i, i < 10 → (patternNext g).getLsbD i = g.getLsbD (i + 1)) ∧
    (patternNext g).getLsbD 10 = (g.getLsbD 2 ^^ g.getLsbD 0) := by
  have hbit : ∀ i, (patternNext g).getLsbD i =
      (g.getLsbD (1 + i) || ((g.getLsbD 2 ^^ g.getLsbD 0) && decide (i = 10))) := by
    intro i
    unfold patternNext
    rw [BitVec.getLsbD_or, BitVec.getLsbD_ushiftRight]
    congr 1
    split
    · next h =>
      rw [h, Bool.true_and, show (0x400#11) = BitVec.twoPow 11 10 from rfl, BitVec.getLsbD_twoPow]
      simp
      omega
    · next h =>
      rw [Bool.eq_false_iff.mpr h, Bool.false_and]
      simp
  refine ⟨fun i hi => ?_, ?_⟩
  · rw [hbit, decide_eq_false (by omega), Bool.and_false, Bool.or_false, Nat.add_comm]
  · rw [hbit, decide_eq_true rfl, Bool.and_true, BitVec.getLsbD_of_ge g 11 (Nat.le_refl 11), Bool.false_or]

/-! ## The detector (R141) -/

theorem Part.modTest_modTest (p : Part) (f g : LinkTest → LinkTest) : (p.modTest f).modTest g = p.modTest fun t => g (f t) := rfl

theorem LinkTest.isSending_of_running {t : LinkTest} {began ends : Nat} (h : t.phase = .running began ends) : t.isSending = true := by
  rw [LinkTest.isSending, h]

theorem Part.patternBit_eq {p : Part} (h : p.chain.test.isSending = true) : p.patternBit = p.modTest LinkTest.transmitBit := if_pos h

theorem LinkTest.transmitBit_eq (t : LinkTest) : t.transmitBit = { t with
    pattern := patternNext t.pattern
    pending := t.pending - 1
    lastBit := some (t.pattern.getLsbD 0 ^^ decide (0 < t.pending))
    report := if 0 < t.pending then t.report.map fun r => { r with inserted := min 4294967295 (r.inserted + 1) }
      else t.report } := by
  unfold LinkTest.transmitBit
  dsimp only
  split <;> rfl

/-- A detector that has no seed compares nothing. -/
theorem Part.comparedBit_none {p : Part} (h : p.chain.test.detector = none) (b : Bool) : p.comparedBit b = p := by
  rw [Part.comparedBit, h]

theorem Part.comparedBit_some {p : Part} {g : BitVec 11} {r : Report} (h : p.chain.test.detector = some g)
    (hr : p.chain.test.report = some r) (b : Bool) : p.comparedBit b =
      if (p.chain.test.compareBit g b).window.bits < 256 then p.modTest fun t => t.compareBit g b
      else (p.modTest fun t => t.compareBit g b).judgeWindow r.locked (p.chain.test.compareBit g b).window.errors := by
  rw [Part.comparedBit, h, hr]
  rfl

theorem Part.detectorWindow_eq {p : Part} (h : p.chain.test.isSending = true) (bits : List Bool) :
    p.detectorWindow bits = bits.foldl Part.comparedBit p := if_pos h

theorem Part.judgeWindow_eq (p : Part) (locked : Bool) (errors : Nat) :
    (locked = false → errors ≤ 2 → p.judgeWindow locked errors = (p.modTest fun t =>
      { t with window := { bits := 0, errors := 0 }, report := t.report.map fun r => { r with locked := true } }).latchNat
        .linkTestState 1) ∧
    (locked = false → 2 < errors → p.judgeWindow locked errors = p.modTest fun t =>
      { t with window := { bits := 0, errors := 0 }, detector := none }) ∧
    (locked = true → errors ≤ 16 → p.judgeWindow locked errors = p.modTest fun t =>
      { t with window := { bits := 0, errors := 0 } }) ∧
    (locked = true → 16 < errors → p.judgeWindow locked errors = (p.modTest fun t =>
      { t with window := { bits := 0, errors := 0 }, detector := none,
               report := t.report.map fun r => { r with locked := false, losses := min 65535 (r.losses + 1) } }).latchNat
        .linkTestState 2) := by
  unfold Part.judgeWindow
  refine ⟨fun hl h => ?_, fun hl h => ?_, fun hl h => ?_, fun hl h => ?_⟩
  · rw [hl, if_neg Bool.false_ne_true, if_pos h]
    rfl
  · rw [hl, if_neg Bool.false_ne_true, if_neg (Nat.not_le.mpr h)]
    rfl
  · rw [hl, if_pos rfl, if_pos h]
  · rw [hl, if_pos rfl, if_neg (Nat.not_le.mpr h)]
    rfl

/-- The test after one compared bit, its report being `r`. -/
theorem LinkTest.compareBit_eq {t : LinkTest} {r : Report} (hr : t.report = some r) (g : BitVec 11) (b : Bool) :
    t.compareBit g b = { t with
      detector := some (patternNext g)
      window := { bits := t.window.bits + 1, errors := t.window.errors + if b = (g.getLsbD 2 ^^ g.getLsbD 0) then 0 else 1 }
      report := some (if r.locked then { r with
        compared := min 4294967295 (r.compared + 1)
        errors := min 4294967295 (r.errors + if b = (g.getLsbD 2 ^^ g.getLsbD 0) then 0 else 1) } else r) } := by
  simp only [LinkTest.compareBit, hr, Option.map_some, Report.countBit, predicted, beq_iff_eq, reportMax]

/-- A compared bit keeps the phase of the test, and the power. -/
theorem Part.comparedBit_keeps (p : Part) (b : Bool) :
    (p.comparedBit b).powered = p.powered ∧ (p.comparedBit b).chain.test.phase = p.chain.test.phase := by
  unfold Part.comparedBit Part.judgeWindow
  dsimp only
  split
  · split
    · exact ⟨rfl, rfl⟩
    · (repeat' split) <;> exact ⟨rfl, rfl⟩
  · exact ⟨rfl, rfl⟩

theorem LinkTest.isSending_of_phase {t u : LinkTest} (h : t.phase = u.phase) : t.isSending = u.isSending := by
  rw [LinkTest.isSending, h]
  rfl

/-- The bits of a window are compared one after another. -/
theorem exec_detectorWindow_cons (s : State) (b : Bool) (bits : List Bool) :
    ∃ t, exec (.detectorWindow [b]) s = .next t ∧ exec (.detectorWindow (b :: bits)) s = exec (.detectorWindow bits) t := by
  have hexec (bits : List Bool) (s : State) : exec (.detectorWindow bits) s = act (·.detectorWindow bits) s := rfl
  simp only [hexec]
  cases hp : s.part.powered with
  | false => exact ⟨s, act_unpowered _ s hp, by rw [act_unpowered _ s hp, act_unpowered _ s hp]⟩
  | true =>
    obtain ⟨hpowered, hphase⟩ := s.part.comparedBit_keeps b
    have hsame := LinkTest.isSending_of_phase hphase
    refine ⟨{ s with part := s.part.detectorWindow [b] }, act_powered _ s hp, ?_⟩
    cases hsend : s.part.chain.test.isSending with
    | false =>
      have hnone (bits : List Bool) : s.part.detectorWindow bits = s.part :=
        if_neg (by rw [hsend]; exact Bool.false_ne_true)
      rw [act_powered _ s hp, hnone, hnone, act_powered _ s hp, hnone]
    | true =>
      have hone : s.part.detectorWindow [b] = s.part.comparedBit b := Part.detectorWindow_eq hsend [b]
      rw [act_powered _ s hp, hone, act_powered _ _ (hpowered.trans hp), Part.detectorWindow_eq hsend,
        Part.detectorWindow_eq (hsame.trans hsend)]
      rfl

/-- Settles O47: the period by its divisors, the bits of the generator, and the detector bit by bit. -/
theorem patternAndDetector : Obligations.PatternAndDetector := by
  refine ⟨fun n => by rw [pattern_returns_iff, pattern_minimalPeriod], patternNext_bits,
    fun s b bits => ⟨?empty, exec_detectorWindow_cons s b bits⟩, ?running⟩
  case empty =>
    have hnone : s.part.detectorWindow [] = s.part := by
      unfold Part.detectorWindow
      split <;> rfl
    show act (·.detectorWindow []) s = _
    rw [act, hnone, ite_self]
  case running =>
    intro s began ends hp hphase t with_ fresh
    have hsend : s.part.chain.test.isSending = true := LinkTest.isSending_of_running hphase
    refine ⟨?transmit, fun bits hnone => ?seed, fun b hnone => ?blind, fun b g r hg hr => ?bit⟩
    case transmit =>
      refine leaves_act Part.patternBit rfl hp ((Part.patternBit_eq hsend).trans ?_)
      exact congrArg with_ t.transmitBit_eq
    case seed =>
      refine leaves_act (·.detectorSeed bits) rfl hp ?_
      have hnone : s.part.chain.test.detector = none := hnone
      unfold Part.detectorSeed
      rw [hsend, hnone]
      by_cases h0 : bits = 0
      · rw [if_pos h0, if_neg (by simp [h0])]
      · rw [if_neg h0, if_pos (by simpa using h0)]
        rfl
    case blind =>
      refine leaves_act (·.detectorWindow [b]) rfl hp ((Part.detectorWindow_eq hsend [b]).trans ?_)
      exact Part.comparedBit_none hnone b
    case bit =>
      intro wrong n errors counted compared leaves
      have hbit : t.compareBit g b = { compared with window := { bits := n, errors := errors } } := LinkTest.compareBit_eq hr g b
      have hone : s.part.detectorWindow [b] = s.part.comparedBit b := Part.detectorWindow_eq hsend [b]
      have hcase := Part.comparedBit_some hg hr b
      rw [hbit] at hcase
      have hmod : (s.part.modTest fun t => t.compareBit g b) = with_ { compared with window := { bits := n, errors := errors } } :=
        congrArg with_ hbit
      rw [hmod] at hcase
      have hleaves {q : Part} (h : s.part.comparedBit b = q) : leaves q :=
        leaves_act (·.detectorWindow [b]) rfl hp (hone.trans h)
      obtain ⟨hlocks, hseeds, hstays, hloses⟩ :=
        Part.judgeWindow_eq (with_ { compared with window := { bits := n, errors := errors } }) r.locked errors
      refine ⟨fun hn => hleaves (hcase.trans (if_pos hn)), fun hn => ?full⟩
      have hfull := hcase.trans (if_neg (Nat.not_lt.mpr hn))
      refine ⟨fun hl he => hleaves (hfull.trans ((hlocks hl he).trans ?_)), fun hl he => hleaves (hfull.trans (hseeds hl he)),
        fun hl he => hleaves (hfull.trans (hstays hl he)), fun hl he => hleaves (hfull.trans ((hloses hl he).trans ?_))⟩
      · have hcounted : counted = r := if_neg (by rw [hl]; exact Bool.false_ne_true)
        exact congrArg (fun x : Report =>
          (with_ { compared with window := fresh, report := some { x with locked := true } }).latchNat .linkTestState 1) hcounted
      · have hlosses : counted.losses = r.losses := by
          simp only [counted]
          split <;> rfl
        exact congrArg (fun n => (with_ { compared with
          window := fresh, detector := none
          report := some { counted with locked := false, losses := min 65535 (n + 1) } }).latchNat .linkTestState 2) hlosses

end Sys2Proof.Machine
end

section
/-! WALL_TEST, and the end of a link test. -/

namespace Sys2Proof.Machine

theorem readWallTest_bytes (a m d : Byte) : readWallTest [a, m, d] = some (a.toNat, m.toNat, d.toNat) := by
  simp [readWallTest, readFields, readBe, ofBe]

/-- Which command a body of WALL_TEST is. -/
theorem testCommand_of_body {rq : Req} {action mode seconds : Byte} (hb : rq.body = [action, mode, seconds]) {command : Instr}
    (h : action = 1 ∧ command = .wallTestStop rq ∨ action = 2 ∧ command = .wallTestInsertError rq ∨
      action ≠ 1 ∧ action ≠ 2 ∧ command = .wallTestStart rq) : command = testCommandOf rq := by
  have hone : action.toNat = 1 ↔ action = 1 := ⟨fun h => BitVec.eq_of_toNat_eq h, fun h => h ▸ rfl⟩
  have htwo : action.toNat = 2 ↔ action = 2 := ⟨fun h => BitVec.eq_of_toNat_eq h, fun h => h ▸ rfl⟩
  unfold testCommandOf actionIs
  rw [hb]
  rcases h with ⟨rfl, rfl⟩ | ⟨rfl, rfl⟩ | ⟨h1, h2, rfl⟩
  · rfl
  · rfl
  · have h1 : ¬action.toNat = 1 := fun h => h1 (hone.mp h)
    have h2 : ¬action.toNat = 2 := fun h => h2 (htwo.mp h)
    simp [h1, h2]

theorem LinkTest.isRunning_iff (t : LinkTest) : t.isRunning = true ↔ t.phase ≠ .idle := by
  simp [LinkTest.isRunning]

/-! ## The duty at the end of a test -/

theorem updateAt_eq_self {α : Type} (l : List α) (i : Nat) (f : α → α) (h : ∀ a ∈ l, f a = a) : updateAt l i f = l := by
  induction l generalizing i with
  | nil => rfl
  | cons a l ih =>
    cases i with
    | zero => rw [updateAt, h a List.mem_cons_self]
    | succ i => rw [updateAt, ih i fun b hb => h b (List.mem_cons_of_mem a hb)]

/-- Every panel is to be refreshed and acknowledges nothing, and no poll is under way that acknowledges anything. -/
def Chain.allAnew (c : Chain) : Prop :=
  (∀ x ∈ c.panels, x.ack = 0 ∧ x.refresh = true) ∧ ∀ q, c.poll = some q → q.superseded = true

/-- Setting the duty of a chain whose panels are all set anew writes nothing of the panels. -/
theorem Part.setDuty_of_allAnew {p : Part} (h : p.chain.allAnew) (d : Duty) : (p.setDuty d).chain =
    { p.chain with duty := (p.setDuty d).chain.duty, clearDue := (p.setDuty d).chain.clearDue } := by
  obtain ⟨hpanels, hpoll⟩ := h
  by_cases hsame : p.chain.duty == d || p.chain.duty == .notFitted
  · rw [Part.setDuty, if_pos hsame]
  · have hset : (p.setDuty d).chain = { p.chain with
        duty := d, clearDue := true
        poll := p.chain.poll.map fun q => { q with superseded := q.superseded || q.frame.address == 13 }
        panels := updateAt p.chain.panels 12 fun n => { n with ack := 0, refresh := true } } := by
      rw [Part.setDuty, if_neg hsame]
      rfl
    have hpoll' : (p.chain.poll.map fun q => { q with superseded := q.superseded || q.frame.address == 13 }) = p.chain.poll := by
      cases hq : p.chain.poll with
      | none => rfl
      | some q =>
        have hsup := hpoll q hq
        rw [Option.map_some, hsup, Bool.true_or, ← hsup]
    rw [hset, hpoll', updateAt_eq_self _ _ _ fun x hx => ?_]
    obtain ⟨hack, hrefresh⟩ := hpanels x hx
    rw [← hack, ← hrefresh]

theorem Part.setDuty_duty {p : Part} (d : Duty) (h : p.chain.duty ≠ .notFitted) : (p.setDuty d).chain.duty = d := by
  by_cases hd : p.chain.duty = d
  · rw [Part.setDuty_same hd, hd]
  · rw [Part.setDuty_new hd h]
    rfl

/-- Setting the duty latches SPARE_CHANGED at most. -/
theorem Part.setDuty_port (p : Part) (d : Duty) (l : Link) : (p.port l).Latches (· = .spareChanged) ((p.setDuty d).port l) := by
  unfold Part.setDuty
  split
  · exact .refl _ _
  · dsimp only
    rw [Part.latchNat, Part.latch_port]
    have hport (q : Part) (f : Panel → Panel) (g : Chain → Chain) : ((q.modChain g).modPanel 13 f).port l = q.port l := by cases l <;> rfl
    rw [hport]
    exact Port.latches_latch (sel := (· = .spareChanged)) _ rfl _

/-- The choice as the spare's duty. -/
def Part.dutyChosen (p : Part) : Duty :=
  match p.spareChoice with
  | some n => .engaged n
  | none => .standby

theorem Part.chooseSpare_automatic {p : Part} (h : p.chain.mode = .automatic) : p.chooseSpare = p.setDuty p.dutyChosen :=
  if_pos (by simp [h])

theorem Part.chooseSpare_other {p : Part} (h : p.chain.mode ≠ .automatic) : p.chooseSpare = p := if_neg (by simpa using h)

/-- The choice looks at the panels, the positions and the image alone. -/
theorem Part.spareChoice_congr {p q : Part} (hpanels : q.chain.panels = p.chain.panels) (hpos : q.chain.positions = p.chain.positions)
    (himage : q.image = p.image) : q.spareChoice = p.spareChoice := by
  unfold Part.spareChoice Chain.panel
  rw [hpanels, hpos, himage]

/-! ## The end of a test (R142) -/

/-- The chain as the end of a test leaves it before the spare's choice. -/
def Part.testOver (p : Part) (how : TestEnd) : Part :=
  { p with chain := { p.chain with
    lastSent := if p.chain.test.isSending && p.chain.test.isEcho then
        some { address := 0, generation := p.image.generation, level := p.globalLevel, clear := false, testStart := false,
               testEnd := true, lines := [] }
      else p.chain.lastSent
    test := { p.chain.test with
      phase := .idle, pending := 0
      report := p.chain.test.report.map fun r => { r with seconds := p.testSeconds, ended := some how } }
    poll := p.chain.poll.map fun q => { q with superseded := true }
    panels := p.chain.panels.map fun n => { n with ack := 0, refresh := true }
    cycleRest := []
    nextCycleAt := p.elapsed } }

theorem Part.endTest_eq (p : Part) (how : TestEnd) : p.endTest how = (p.testOver how).chooseSpare.latchNat .linkTestState 0 := by
  have hpoll : (p.chain.poll.map fun q => { q with superseded := q.superseded || true }) =
      p.chain.poll.map fun q => { q with superseded := true } := by
    simp only [Bool.or_true]
  unfold Part.endTest Part.testOver
  dsimp only
  split
  · next h =>
    unfold Chain.supersede
    dsimp only [Part.modTest, Part.modChain, Part.testCommand]
    rw [hpoll]
    rfl
  · next h =>
    unfold Chain.supersede
    dsimp only [Part.modTest, Part.modChain]
    rw [hpoll]
    rfl

theorem Part.testOver_allAnew (p : Part) (how : TestEnd) : (p.testOver how).chain.allAnew := by
  constructor
  · intro x hx
    obtain ⟨y, _, rfl⟩ := List.mem_map.mp hx
    exact ⟨rfl, rfl⟩
  · intro q hq
    obtain ⟨y, _, rfl⟩ := Option.map_eq_some_iff.mp hq
    rfl

/-- The chain at the end of a test: as `testOver` says, but for the spare's duty. -/
theorem Part.endTest_chain (p : Part) (how : TestEnd) : (p.endTest how).chain = { (p.testOver how).chain with
    duty := (p.endTest how).chain.duty, clearDue := (p.endTest how).chain.clearDue } := by
  rw [Part.endTest_eq]
  show (p.testOver how).chooseSpare.chain = _
  by_cases h : (p.testOver how).chain.mode = .automatic
  · rw [Part.chooseSpare_automatic h]
    exact Part.setDuty_of_allAnew (p.testOver_allAnew how) _
  · rw [Part.chooseSpare_other h]
    rfl

/-- What is left of a part `s` at the end of its link test. -/
def Part.TestFinished (s p : Part) (how : TestEnd) (seconds : Nat) : Prop :=
  p.chain.test = { s.chain.test with
    phase := .idle, pending := 0
    report := s.chain.test.report.map fun r => { r with seconds := seconds, ended := some how } } ∧
  p.chain.panels = (s.chain.panels.map fun n => { n with ack := 0, refresh := true }) ∧
  p.chain.poll = (s.chain.poll.map fun q => { q with superseded := true }) ∧
  p.chain.cycleRest = [] ∧ p.chain.nextCycleAt = p.elapsed ∧ p.chain.mode = s.chain.mode ∧
  (s.chain.mode ≠ .automatic → p.chain.duty = s.chain.duty) ∧
  (s.chain.mode = .automatic → s.chain.duty ≠ .notFitted → p.chain.duty = p.dutyChosen) ∧
  (∀ l, (p.port l).isLatched .linkTestState = true ∧ ((s.port l).subjects.length = 29 → (p.port l).subject .linkTestState = 0)) ∧
  p.own = s.own ∧ p.notices = s.notices ∧ p.image = s.image ∧ p.clocks = s.clocks ∧
  p.inputs = s.inputs ∧ p.store = s.store ∧ p.feed = s.feed

theorem Part.dutyChosen_congr {p q : Part} (h : q.spareChoice = p.spareChoice) : q.dutyChosen = p.dutyChosen := by
  rw [Part.dutyChosen, h]
  rfl

theorem Part.endTest_duty (p : Part) (how : TestEnd) :
    (p.chain.mode ≠ .automatic → (p.endTest how).chain.duty = p.chain.duty) ∧
    (p.chain.mode = .automatic → p.chain.duty ≠ .notFitted → (p.endTest how).chain.duty = (p.testOver how).dutyChosen) := by
  have hchain : (p.endTest how).chain = (p.testOver how).chooseSpare.chain := by rw [Part.endTest_eq]; rfl
  rw [hchain]
  refine ⟨fun h => ?_, fun h hd => ?_⟩
  · rw [Part.chooseSpare_other (p := p.testOver how) h]
    rfl
  · rw [Part.chooseSpare_automatic (p := p.testOver how) h]
    exact Part.setDuty_duty (p := p.testOver how) _ hd

theorem Part.chooseSpare_port (p : Part) (l : Link) : (p.port l).Latches (· = .spareChanged) (p.chooseSpare.port l) := by
  unfold Part.chooseSpare
  split
  · exact p.setDuty_port _ l
  · exact .refl _ _

theorem Part.endTest_beyondChain (p : Part) (how : TestEnd) : (p.endTest how).beyondChain = p.beyondChain := by
  rw [Part.endTest_eq, Part.latchNat_beyondChain, Part.chooseSpare_beyondChain]
  rfl

/-- The end of a link test, the event being over. -/
theorem Part.endTest_finished {p : Part} (hev : p.ev.wallTold = false) (how : TestEnd) :
    p.TestFinished (p.endTest how).finish how p.testSeconds := by
  have hrest := p.endTest_beyondChain how
  have hfinish : (p.endTest how).finish = (p.endTest how).ended false := by
    rw [Part.finish_eq_ended, Part.ev_of_chain hrest, hev]
  have hchain : (p.endTest how).finish.chain = (p.endTest how).chain := Part.finish_chain _
  have himage : (p.endTest how).finish.image = p.image := by
    rw [hfinish, Part.ended_image, if_neg Bool.false_ne_true]
    exact Part.image_of_chain hrest
  have hover := p.endTest_chain how
  have hchoice : (p.endTest how).finish.dutyChosen = (p.testOver how).dutyChosen := by
    refine Part.dutyChosen_congr (Part.spareChoice_congr ?_ ?_ himage)
    · rw [hchain, hover]
    · rw [hchain, hover]
  obtain ⟨hstays, hchosen⟩ := p.endTest_duty how
  unfold Part.TestFinished
  rw [hchoice, hchain, himage]
  refine ⟨congrArg Chain.test hover, congrArg Chain.panels hover, congrArg Chain.poll hover, congrArg Chain.cycleRest hover,
    (congrArg Chain.nextCycleAt hover).trans ?_, (congrArg Chain.mode hover :).trans rfl, hstays, hchosen, fun l => ?_,
    (Part.finish_own _).trans (Part.own_of_chain hrest), ?_, rfl, (Part.finish_clocks _).trans (Part.clocks_of_chain hrest),
    (Part.finish_inputs _).trans (Part.inputs_of_chain hrest), (Part.finish_store _).trans (Part.store_of_chain hrest),
    (Part.finish_feed _).trans (Part.feed_of_chain hrest)⟩
  · exact ((Part.finish_elapsed _).trans (Part.elapsed_of_chain hrest)).symm
  · rw [hfinish, Part.endTest_eq]
    obtain ⟨hflag, hsubject⟩ := Part.ended_latched (p := (p.testOver how).chooseSpare) (told := false) (k := .linkTestState) (n := 0)
      (by decide) l
    refine ⟨hflag, fun hlen => hsubject ?_⟩
    rw [((p.testOver how).chooseSpare_port l).length]
    have hport : (p.testOver how).port l = p.port l := by cases l <;> rfl
    rw [hport, hlen]
  · rw [hfinish, Part.ended_notices]
    exact Part.notices_of_chain hrest

/-! ## WALL_TEST (R138) -/

theorem wallTest_foreign {l : Link} {a : Nat × Nat × Nat} {p : Part} (h : p.own.wall ≠ l) :
    wallTest l a p = .reply p .notOwner [] := if_pos (by simpa using h)

theorem wallTest_own {l : Link} {a m d : Nat} {p : Part} (h : p.own.wall = l) :
    wallTest l (a, m, d) p = p.wallTestAction a m d := if_neg (by simpa using h)

theorem testModeOf_none {n : Nat} (h : 1 < n) : testModeOf n = none := by
  match n, h with
  | n + 2, _ => rfl

theorem testModeOf_some {n : Nat} (h : n ≤ 1) : ∃ m, testModeOf n = some m := by
  match n, h with
  | 0, _ => exact ⟨_, rfl⟩
  | 1, _ => exact ⟨_, rfl⟩

theorem testModeCode_of {mode : Byte} {m : TestMode} (h : testModeOf mode.toNat = some m) : testModeCode m = mode := by
  have hle : mode.toNat ≤ 1 := by
    by_contra hlt
    rw [testModeOf_none (by omega)] at h
    cases h
  refine BitVec.eq_of_toNat_eq ?_
  interval_cases hm : mode.toNat
  · obtain rfl := Option.some.inj h
    rfl
  · obtain rfl := Option.some.inj h
    rfl

/-- The refusals of a START, and what one that is taken leaves. -/
theorem Part.wallTestAction_start (p : Part) (mode seconds : Nat) :
    (1 < mode ∨ seconds = 0 ∨ 120 < seconds → p.wallTestAction 0 mode seconds = .reply p .invalidField []) ∧
    (∀ m, testModeOf mode = some m → seconds ≠ 0 → seconds ≤ 120 →
      (p.chain.test.phase ≠ .idle → p.wallTestAction 0 mode seconds = .reply p .testRunning []) ∧
      (p.chain.test.phase = .idle → p.wallTestAction 0 mode seconds =
        .reply (p.acceptTest m seconds) .ok (p.acceptTest m seconds).testBytes)) := by
  unfold Part.wallTestAction
  dsimp only
  refine ⟨fun h => ?_, fun m hm h0 h120 => ?_⟩
  · by_cases hmode : 1 < mode
    · rw [testModeOf_none hmode]
      rfl
    · obtain ⟨m, hm⟩ := testModeOf_some (Nat.not_lt.mp hmode)
      rw [hm]
      exact if_pos (by simpa using h.resolve_left hmode)
  · rw [hm]
    dsimp only
    rw [if_neg (by simp only [Bool.or_eq_true, beq_iff_eq, decide_eq_true_eq]; omega)]
    exact ⟨fun hrun => if_pos ((LinkTest.isRunning_iff _).mpr hrun), fun hidle => if_neg fun hrun => (LinkTest.isRunning_iff _).mp hrun hidle⟩

/-- The report of a test just accepted. -/
theorem Part.acceptTest_bytes {p : Part} {mode : Byte} {m : TestMode} (h : testModeOf mode.toNat = some m) (seconds : Nat) :
    (p.acceptTest m seconds).testBytes = [1, 1, mode, 1] ++ be 4 seconds ++ [1, mode] ++ zeros 18 := by
  rw [← testModeCode_of h]
  show [1] ++ (1 :: [testModeCode m]) ++ (1 :: be 4 seconds) ++ (1 :: (p.acceptTest m seconds).reportBytes (newReport m)) = _
  have hreport : (p.acceptTest m seconds).reportBytes (newReport m) = testModeCode m :: zeros 18 := by
    simp [Part.reportBytes, newReport, Part.testSeconds, Part.acceptTest, Part.modChain, LinkTest.isRunning, optBytes, zeros, be,
      flagByte]
  rw [hreport]
  simp

theorem Part.TestFinished.of_advanced {p q : Part} {t seconds : Nat} {how : TestEnd} (h : (p.advanceTo t).TestFinished q how seconds) :
    p.TestFinished q how seconds := by
  obtain ⟨htest, hpanels, hpoll, hrest, hnext, hmode, hstays, hchosen, hports, hothers⟩ := h
  refine ⟨htest, hpanels, hpoll, hrest, hnext, hmode, hstays, hchosen, fun l => ?_, hothers⟩
  obtain ⟨hflag, hsubject⟩ := hports l
  refine ⟨hflag, fun hlen => hsubject ?_⟩
  rw [Part.advanceTo_port, Port.carry_subjects]
  exact hlen

/-- Settles O46: WALL_TEST by its action, the beginning of a test, and its end. -/
theorem linkTestRunsAndEnds : Obligations.LinkTestRunsAndEnds := by
  unfold Obligations.LinkTestRunsAndEnds
  intro finished command
  refine ⟨?request, ?begins, ?ends⟩
  case request =>
    intro s rq action mode seconds command' he hb hcommand t refused
    obtain rfl := testCommand_of_body hb hcommand
    have hr : readWallTest rq.body = some (action.toNat, mode.toNat, seconds.toNat) := hb ▸ readWallTest_bytes action mode seconds
    have hreply {p r body} (h : wallTest rq.link (action.toNat, mode.toNat, seconds.toNat) s.part = .reply p r body) :=
      answers_of_reply (exec_testCommandOf rq s) he hr h
    have hzero : seconds.toNat = 0 ↔ seconds = 0 := (byte_eq_zero_iff seconds).symm
    refine ⟨fun hw => hreply (wallTest_foreign hw), fun hw => ?own⟩
    have hown {p r body} (h : s.part.wallTestAction action.toNat mode.toNat seconds.toNat = .reply p r body) :=
      hreply ((wallTest_own hw).trans h)
    obtain ⟨hbad, hgood⟩ := s.part.wallTestAction_start mode.toNat seconds.toNat
    refine ⟨?bad, ?busy, ?idle, ?start, ?stop, ?insert⟩
    case bad =>
      intro h
      refine hown ?_
      rcases h with h | ⟨rfl, h⟩
      · match haction : action.toNat, h with
        | n + 3, _ => rfl
      · refine hbad ?_
        rwa [hzero]
    case busy =>
      intro ha hm h0 h120 hrun
      subst ha
      obtain ⟨m, hm⟩ := testModeOf_some hm
      exact hown ((hgood m hm (mt hzero.mp h0) h120).1 hrun)
    case idle =>
      intro ha hidle
      have hnot : ¬s.part.chain.test.isRunning = true := fun hrun => (LinkTest.isRunning_iff _).mp hrun hidle
      refine hown ?_
      rcases ha with rfl | rfl
      · exact if_neg hnot
      · exact if_neg hnot
    case start =>
      intro ha h0 h120 hidle m hm
      subst ha
      have hstart : Instr.wallTestStart rq = testCommandOf rq :=
        testCommand_of_body hb (.inr (.inr ⟨by decide, by decide, rfl⟩))
      have hbytes := s.part.acceptTest_bytes hm seconds.toNat
      rw [hstart, ← hbytes]
      exact hown ((hgood m hm (mt hzero.mp h0) h120).2 hidle)
    case stop =>
      intro ha hrun
      subst ha
      have hstop : Instr.wallTestStop rq = testCommandOf rq := testCommand_of_body hb (.inl ⟨rfl, rfl⟩)
      have hfinished : s.part.TestFinished (s.part.begin.endTest .stop).finish .stop s.part.testSeconds :=
        Part.endTest_finished (p := s.part.begin) rfl .stop
      refine ⟨(s.part.begin.endTest .stop).finish, ?_, ?_, ?_⟩
      · rw [hstop]
        exact hown (if_pos ((LinkTest.isRunning_iff _).mpr hrun))
      · rw [Part.finish_elapsed]
        exact Part.elapsed_of_chain (p := s.part.begin) (Part.endTest_beyondChain _ _)
      · have hseconds : s.part.testSeconds = (match s.part.chain.test.phase with
            | .running began _ => (s.part.elapsed - began) / 1000
            | _ => 0) := by
          unfold Part.testSeconds
          cases s.part.chain.test.phase <;> rfl
        rw [hseconds] at hfinished
        exact hfinished
    case insert =>
      intro ha hrun
      subst ha
      have hinsert : Instr.wallTestInsertError rq = testCommandOf rq := testCommand_of_body hb (.inr (.inl ⟨rfl, rfl⟩))
      rw [hinsert]
      exact hown (if_pos ((LinkTest.isRunning_iff _).mpr hrun))
  case begins =>
    intro s seconds hp hphase hpoll
    refine leaves_act Part.linkTestBegin rfl hp ?_
    unfold Part.linkTestBegin
    rw [hphase, hpoll]
    dsimp only
    by_cases hecho : s.part.chain.test.isEcho = true
    · rw [if_pos hecho, if_pos hecho]
      rfl
    · rw [if_neg hecho, if_neg hecho]
      rfl
  case ends =>
    intro s began ends hp hphase
    have hev : (s.part.advanceTo ends).begin.ev.wallTold = false := rfl
    have hfinished := (Part.endTest_finished hev .duration).of_advanced (p := s.part)
    have hover := (s.part.advanceTo ends).begin.endTest_chain .duration
    refine ⟨((s.part.advanceTo ends).begin.endTest .duration).finish, leaves_act Part.testDurationEnd rfl hp ?_, ?_, fun hecho => ?_, ?_⟩
    · rw [Part.testDurationEnd, hphase]
    · rw [Part.finish_elapsed]
      exact Part.elapsed_of_chain (Part.endTest_beyondChain _ _)
    · have hsends : (s.part.advanceTo ends).begin.chain.test.isSending = true := by
        show s.part.chain.test.isSending = true
        rw [LinkTest.isSending, hphase]
      rw [Part.finish_chain, hover]
      show (if _ then _ else _) = _
      rw [if_pos (by rw [hsends]; exact hecho)]
      rfl
    · have hseconds : (s.part.advanceTo ends).begin.testSeconds =
          (((s.part.advanceTo ends).begin.endTest .duration).finish.elapsed - began) / 1000 := by
        rw [Part.finish_elapsed, Part.elapsed_of_chain (Part.endTest_beyondChain _ _)]
        show (match s.part.chain.test.phase with | .running began _ => (_ - began) / 1000 | .accepted _ => 0 | .idle => 0) = _
        rw [hphase]
      rw [← hseconds]
      exact hfinished

end Sys2Proof.Machine
end

section
/-! Cue placement and input cues are blind to the marks of the event; the wall inputs. -/

namespace Sys2Proof.Machine

/-! ## Placement reads no mark of the event -/

theorem foldl_withEv {α : Type} {f : Part → α → Part} (h : ∀ p e a, f (Part.withEv p e) a = (f p a).withEv e) (l : List α) (p : Part)
    (e : Event) : l.foldl f (p.withEv e) = (l.foldl f p).withEv e := by
  induction l generalizing p with
  | nil => rfl
  | cons a l ih => rw [List.foldl_cons, List.foldl_cons, h, ih]

theorem Part.insertReference_withEv (p : Part) (e : Event) (id : Nat) (cls : CueClass) (z : Nat) :
    (p.withEv e).insertReference id cls z = (p.insertReference id cls z).withEv e := by
  have hinsert (q : Part) :
      (if ((q.withEv e).cues.queue z).length < 6 then
        (q.withEv e).modCues fun q => { q with queues := updateAt q.queues (z - 1) (insertBy q.refBefore id) } else q.withEv e) =
      Part.withEv (if (q.cues.queue z).length < 6 then
        q.modCues fun q => { q with queues := updateAt q.queues (z - 1) (insertBy q.refBefore id) } else q) e := by
    by_cases h : (q.cues.queue z).length < 6
    · rw [if_pos h]
      exact if_pos h
    · rw [if_neg h]
      exact if_neg h
  unfold Part.insertReference
  dsimp only
  rw [← hinsert]
  have hcues : (p.withEv e).cues = p.cues := rfl
  rw [hcues]
  by_cases h : (p.cues.queue z).length < 6
  · rw [if_pos h, if_pos h]
  · rw [if_neg h, if_neg h]
    cases p.cues.zoneVictim z cls <;> rfl

theorem Part.preemptZone_withEv (p : Part) (e : Event) (z : Nat) : (p.withEv e).preemptZone z = (p.preemptZone z).withEv e := by
  unfold Part.preemptZone
  have hcues : (p.withEv e).cues = p.cues := rfl
  rw [hcues]
  cases p.cues.zone z with
  | playing c =>
    dsimp only
    cases p.cues.cue? c with
    | none => rfl
    | some x =>
      dsimp only
      split <;> rfl
  | _ => rfl

theorem Part.insertCue_withEv (p : Part) (e : Event) (id : Nat) (cls : CueClass) (zones : List Nat) :
    (p.withEv e).insertCue id cls zones = (p.insertCue id cls zones).withEv e := by
  unfold Part.insertCue
  dsimp only
  rw [foldl_withEv fun p e z => p.insertReference_withEv e id cls z]
  split
  · exact foldl_withEv (fun p e z => p.preemptZone_withEv e z) zones _ e
  · rfl

theorem Part.poolRoom_withEv (p : Part) (e : Event) (o : CueOrigin) (cls : CueClass) :
    (p.withEv e).poolRoom o cls = (p.poolRoom o cls).map (·.withEv e) := by
  unfold Part.poolRoom
  have hcues : (p.withEv e).cues = p.cues := rfl
  rw [hcues]
  split
  · rfl
  · split
    · cases p.cues.poolVictim cls <;> rfl
    · rfl

theorem Part.place_withEv (p : Part) (e : Event) (n : NewCue) : (p.withEv e).place n = ((p.place n).1.withEv e, (p.place n).2) := by
  unfold Part.place
  have hcues : (p.withEv e).cues = p.cues := rfl
  rw [hcues, Part.poolRoom_withEv]
  dsimp only
  split
  · rfl
  · cases p.poolRoom n.origin n.cls with
    | none => rfl
    | some r =>
      have h := (r.createCue n (n.zones.filter fun z => p.cues.hasRoom z n.cls)).1.insertCue_withEv e
        (r.createCue n (n.zones.filter fun z => p.cues.hasRoom z n.cls)).2 n.cls (n.zones.filter fun z => p.cues.hasRoom z n.cls)
      exact Prod.ext h rfl

theorem Part.placeOrDrop_withEv (p : Part) (e : Event) (n : NewCue) : (p.withEv e).placeOrDrop n = (p.placeOrDrop n).withEv e := by
  unfold Part.placeOrDrop
  rw [Part.place_withEv]
  obtain ⟨q, placement⟩ := p.place n
  cases placement <;> rfl

theorem eventBlind_inputStart (i : Nat) : EventBlind (·.inputStart i) := EventBlind.of_withEv fun p e => by
  show (p.withEv e).inputStart i = (p.inputStart i).withEv e
  unfold Part.inputStart
  have hcfg : (p.withEv e).inputConfig i = p.inputConfig i := rfl
  have hmake : (p.withEv e).makeInputCue i = (p.makeInputCue i).withEv e := p.placeOrDrop_withEv e _
  rw [hcfg, hmake]
  split <;> rfl

theorem Part.cancelFlight_withEv (p : Part) (e : Event) (c : Cue) : (p.withEv e).cancelFlight c = (p.cancelFlight c).withEv e := by
  unfold Part.cancelFlight
  split <;> rfl

theorem eventBlind_inputEnd (i : Nat) : EventBlind (·.inputEnd i) := EventBlind.of_withEv fun p e =>
  foldl_withEv Part.cancelFlight_withEv ((((p.setRepeat i none).removeInputQueued i).cues.pool).filter fun c => c.input == some (i + 1))
    ((p.setRepeat i none).removeInputQueued i) e

/-! ## The inputs (R198, R199) -/

theorem updateAt_eq_const {α : Type} (l : List α) (i : Nat) (f : α → α) (d : α) :
    updateAt l i f = updateAt l i fun _ => f (l.getD i d) := by
  induction l generalizing i with
  | nil => rfl
  | cons a l ih =>
    cases i with
    | zero => rfl
    | succ i => exact congrArg (a :: ·) (ih i)

/-- The part with one input replaced. -/
def Part.setInput (p : Part) (i : Nat) (x : WallInput) : Part := { p with inputs := updateAt p.inputs i fun _ => x }

theorem Part.modInput_eq_set (p : Part) (i : Nat) (f : WallInput → WallInput) : p.modInput i f = p.setInput i (f (p.input i)) := by
  unfold Part.modInput Part.setInput Part.input
  rw [updateAt_eq_const _ _ _ resetInput]

theorem Part.inputOverdue_iff (p : Part) (i : Nat) : p.inputOverdue i = true ↔
    ((p.input i).state = .qualifying ∨ (p.input i).state = .releasing) ∧ ∃ t, (p.input i).timer = some t ∧ t < p.elapsed := by
  unfold Part.inputOverdue
  cases h : (p.input i).timer <;> simp [h]

/-- A change of level while no timer is overdue. -/
theorem Part.inputLevel_of_not_overdue {p : Part} {i : Nat} {level : Bool} (h : (p.input i).asserted ≠ level)
    (hdue : ¬p.inputOverdue i = true) : p.inputLevel i level = p.setInput i
      (if (p.inputConfig i).mode == .off then { p.input i with asserted := level }
       else { p.input i with asserted := level }.levelMove p.elapsed (p.inputConfig i).qualify) := by
  rw [Part.inputLevel, if_neg (by simpa using h), Part.inputLapse, if_neg hdue]
  exact p.modInput_eq_set i _

/-- The input of number `i` become ACTIVE, latched. -/
def Part.inputActive (p : Part) (i : Nat) : Part :=
  (p.setInput i { p.input i with state := .active, timer := none, acting := decide ((p.inputConfig i).mode = .act) }).latchNat
    .inputChanged (i + 1)

/-- The input of number `i` become IDLE, latched. -/
def Part.inputIdle (p : Part) (i : Nat) : Part :=
  (p.setInput i { p.input i with state := .idle, timer := none, acting := false }).latchNat .inputChanged (i + 1)

theorem Part.qualified_qualifying {p : Part} {i : Nat} (h : (p.input i).state = .qualifying) :
    ((p.inputConfig i).mode = .act → p.qualified i = (p.inputActive i).actionsBegin i) ∧
    ((p.inputConfig i).mode ≠ .act → p.qualified i = p.inputActive i) := by
  have hset := p.modInput_eq_set i fun w =>
    { w with state := .active, timer := none, acting := (p.inputConfig i).mode == .act }
  have hact : ((p.inputConfig i).mode == .act) = decide ((p.inputConfig i).mode = .act) := rfl
  unfold Part.qualified Part.inputActive
  rw [h]
  dsimp only
  rw [hset, hact]
  exact ⟨fun h => if_pos (decide_eq_true h), fun h => if_neg (by simpa using h)⟩

theorem Part.qualified_releasing {p : Part} {i : Nat} (h : (p.input i).state = .releasing) :
    ((p.inputConfig i).mode = .act → p.qualified i = (p.inputIdle i).actionsEnd i) ∧
    ((p.inputConfig i).mode ≠ .act → p.qualified i = p.inputIdle i) := by
  have hset := p.modInput_eq_set i fun w => { w with state := .idle, timer := none, acting := false }
  unfold Part.qualified Part.inputIdle
  rw [h]
  dsimp only
  rw [hset]
  exact ⟨fun h => if_pos (by simpa using h), fun h => if_neg (by simpa using h)⟩

theorem Part.actionsBegin_beyondCues (p : Part) (i : Nat) : (p.actionsBegin i).beyondCues = p.tellWall.beyondCues :=
  Part.inputStart_beyondCues p.tellWall i

theorem Part.actionsEnd_beyondCues (p : Part) (i : Nat) : (p.actionsEnd i).beyondCues = p.tellWall.beyondCues :=
  Part.inputEnd_beyondCues p.tellWall i

/-- The timer has run out: the input has none, its level is as it was, and the part has power as before. -/
def Part.InputTimerGone (p q : Part) (i : Nat) : Prop :=
  (q.input i).asserted = (p.input i).asserted ∧ (q.input i).timer = none ∧ q.powered = p.powered

theorem Part.inputTimerGone_of {p q : Part} {i : Nat} {x : WallInput} (hi : i < p.inputs.length)
    (hq : q.inputs = (p.setInput i x).inputs) (hlevel : x.asserted = (p.input i).asserted) (htimer : x.timer = none)
    (hp : q.powered = p.powered) : p.InputTimerGone q i := by
  have hinput : q.input i = x := by
    rw [Part.input, hq]
    exact updateAt_getD_same _ _ _ _ hi
  rw [Part.InputTimerGone, hinput]
  exact ⟨hlevel, htimer, hp⟩

theorem Part.qualified_timerGone {p : Part} {i : Nat} (hi : i < p.inputs.length)
    (h : (p.input i).state = .qualifying ∨ (p.input i).state = .releasing) : p.InputTimerGone (p.qualified i) i := by
  rcases h with h | h
  · obtain ⟨hact, hother⟩ := Part.qualified_qualifying h
    have hstart := (p.inputActive i).actionsBegin_beyondCues i
    by_cases hmode : (p.inputConfig i).mode = .act
    · rw [hact hmode]
      exact Part.inputTimerGone_of hi ((Part.inputs_of_cues hstart).trans rfl) rfl rfl ((Part.powered_of_cues hstart).trans rfl)
    · rw [hother hmode]
      exact Part.inputTimerGone_of hi (q := p.inputActive i) rfl rfl rfl rfl
  · obtain ⟨hact, hother⟩ := Part.qualified_releasing h
    have hend := (p.inputIdle i).actionsEnd_beyondCues i
    by_cases hmode : (p.inputConfig i).mode = .act
    · rw [hact hmode]
      exact Part.inputTimerGone_of hi ((Part.inputs_of_cues hend).trans rfl) rfl rfl ((Part.powered_of_cues hend).trans rfl)
    · rw [hother hmode]
      exact Part.inputTimerGone_of hi (q := p.inputIdle i) rfl rfl rfl rfl

theorem Part.qualificationExpiry_timerGone {p : Part} {i : Nat} (hi : i < p.inputs.length) (hdue : p.inputOverdue i = true) :
    p.InputTimerGone (p.qualificationExpiry i) i := by
  obtain ⟨hstate, t, ht, -⟩ := (p.inputOverdue_iff i).mp hdue
  obtain ⟨hlevel, htimer, hp⟩ := Part.qualified_timerGone (p := (p.advanceTo t).begin) (i := i) hi hstate
  have hinput : (p.qualificationExpiry i).input i = ((p.advanceTo t).begin.qualified i).input i := by
    rw [Part.qualificationExpiry, ht, Part.input, Part.finish_inputs]
    rfl
  refine ⟨hinput ▸ hlevel, hinput ▸ htimer, ?_⟩
  rw [Part.qualificationExpiry, ht, Part.finish_powered]
  exact hp

/-- A change of level after a timer that is overdue is the change of level once that timer has run out. -/
theorem Part.inputLevel_of_overdue {p : Part} {i : Nat} {level : Bool} (hi : i < p.inputs.length) (h : (p.input i).asserted ≠ level)
    (hdue : p.inputOverdue i = true) : p.inputLevel i level = (p.qualificationExpiry i).inputLevel i level := by
  obtain ⟨hlevel, htimer, -⟩ := Part.qualificationExpiry_timerGone hi hdue
  have hnot : ¬(p.qualificationExpiry i).inputOverdue i = true := by
    rw [Part.inputOverdue_iff, htimer]
    rintro ⟨-, t, ht, -⟩
    cases ht
  rw [Part.inputLevel, Part.inputLevel, hlevel, if_neg (by simpa using h), if_neg (by simpa using h), Part.inputLapse, if_pos hdue,
    Part.inputLapse, if_neg hnot]

/-- Settles O54: a change of level, and the qualification timer running out. -/
theorem wallInputsQualify : Obligations.WallInputsQualify := by
  unfold Obligations.WallInputsQualify
  intro s i hp hlen w cfg setInput overdue
  have hi : i.val < s.part.inputs.length := by omega
  have hoverdue : s.part.inputOverdue i = true ↔ overdue := s.part.inputOverdue_iff i
  refine ⟨?levels, ?expiry⟩
  case levels =>
    intro level seen timer moved
    refine ⟨fun hsame => ?same, fun u hlevel hdue hu => ?late, fun hlevel hdue => ?moves⟩
    case same =>
      have h : s.part.inputLevel i level = s.part := if_pos (beq_iff_eq.mpr hsame)
      have hleaves := leaves_inputLevelChange_powered i level hp
      rwa [h] at hleaves
    case late =>
      have hu' : s.part.qualificationExpiry i = u := by
        have h : exec (.qualificationTimerExpiry i) s = _ := act_powered (·.qualificationExpiry i) s hp
        have := h.symm.trans hu
        injection this with this
        exact congrArg State.part this
      have hpu : u.powered = true := by
        obtain ⟨-, -, hpowered⟩ := Part.qualificationExpiry_timerGone hi (hoverdue.mpr hdue)
        rw [← hu', hpowered, hp]
      have hon := leaves_inputLevelChange_powered i level hp
      have honu := leaves_inputLevelChange_powered (s := { s with part := u }) i level hpu
      rw [Leaves, Part.inputLevel_of_overdue hi hlevel (hoverdue.mpr hdue), hu'] at hon
      exact hon.trans honu.symm
    case moves =>
      have hmove := leaves_inputLevelChange_powered i level hp
      rw [Part.inputLevel_of_not_overdue hlevel (mt hoverdue.mp hdue)] at hmove
      have hoff (h : cfg.mode = .off) : moved seen := by
        rwa [if_pos (beq_iff_eq.mpr h)] at hmove
      have hon (h : cfg.mode ≠ .off) {x : WallInput} (hx : seen.levelMove s.part.elapsed cfg.qualify = x) : moved x := by
        rw [if_neg (by simpa using h)] at hmove
        exact hx ▸ hmove
      refine ⟨hoff, fun hmode hl => ?_, fun hmode hl => ?_⟩
      · subst hl
        refine ⟨fun h => hon hmode ?_, fun h => hon hmode ?_, fun h => hon hmode ?_⟩
        · rw [WallInput.levelMove, show seen.state = .idle from h]
        · rw [WallInput.levelMove, show seen.state = .releasing from h]
        · rcases h with h | h
          · rw [WallInput.levelMove, show seen.state = .qualifying from h]
          · rw [WallInput.levelMove, show seen.state = .active from h]
      · subst hl
        refine ⟨fun h => hon hmode ?_, fun h => hon hmode ?_, fun h => hon hmode ?_⟩
        · rw [WallInput.levelMove, show seen.state = .qualifying from h]
        · rw [WallInput.levelMove, show seen.state = .active from h]
        · rcases h with h | h
          · rw [WallInput.levelMove, show seen.state = .idle from h]
          · rw [WallInput.levelMove, show seen.state = .releasing from h]
  case expiry =>
    intro t ht p active idle
    have hactive : (s.part.advanceTo t).begin.inputActive i = active.withEv (s.part.advanceTo t).begin.ev := rfl
    have hidle : (s.part.advanceTo t).begin.inputIdle i = idle.withEv (s.part.advanceTo t).begin.ev := rfl
    have hleaves {r : Part} (h : ((s.part.advanceTo t).begin.qualified i).finish = r) : Leaves (.qualificationTimerExpiry i) s r := by
      refine leaves_act (·.qualificationExpiry i) rfl hp ?_
      show s.part.qualificationExpiry i = r
      rw [Part.qualificationExpiry, show (s.part.input i).timer = some t from ht]
      exact h
    refine ⟨fun h hmode => hleaves ?_, fun h hmode => hleaves ?_, fun h hmode => hleaves ?_, fun h hmode => hleaves ?_⟩
    · rw [(Part.qualified_qualifying (p := (s.part.advanceTo t).begin) h).2 hmode, hactive]
      exact (Part.like_withEv active _).finish rfl
    · rw [(Part.qualified_qualifying (p := (s.part.advanceTo t).begin) h).1 hmode, hactive]
      have hlike : ((active.withEv (s.part.advanceTo t).begin.ev).actionsBegin i).Like (active.inputStart i) :=
        eventBlind_inputStart i _ _ ((Part.like_tellWall _).trans (active.like_withEv _))
      refine hlike.finish ?_
      rw [Part.ev_of_cues (Part.actionsBegin_beyondCues _ _)]
      rfl
    · rw [(Part.qualified_releasing (p := (s.part.advanceTo t).begin) h).2 hmode, hidle]
      exact (Part.like_withEv idle _).finish rfl
    · rw [(Part.qualified_releasing (p := (s.part.advanceTo t).begin) h).1 hmode, hidle]
      have hlike : ((idle.withEv (s.part.advanceTo t).begin.ev).actionsEnd i).Like (idle.inputEnd i) :=
        eventBlind_inputEnd i _ _ ((Part.like_tellWall _).trans (idle.like_withEv _))
      refine hlike.finish ?_
      rw [Part.ev_of_cues (Part.actionsEnd_beyondCues _ _)]
      rfl

end Sys2Proof.Machine
end

section
/-! The clock lines: what an evaluation decides and writes, and the events of an impulse. -/

namespace Sys2Proof.Machine

/-! ## Lines -/

theorem Part.modLine_line_same {p : Part} {i : Nat} (hi : i < p.clocks.lines.length) (f : ClockLine → ClockLine) :
    (p.modLine i f).clocks.line i = f (p.clocks.line i) := updateAt_getD_same _ _ _ _ hi

theorem Part.modLine_line_other (p : Part) {i j : Nat} (h : j ≠ i) (f : ClockLine → ClockLine) :
    (p.modLine i f).clocks.line j = p.clocks.line j := updateAt_getD_other _ _ _ _ _ h.symm

theorem Part.modLine_modLine (p : Part) (i : Nat) (f g : ClockLine → ClockLine) :
    (p.modLine i f).modLine i g = p.modLine i fun k => g (f k) := by
  have h (l : List ClockLine) (i : Nat) : updateAt (updateAt l i f) i g = updateAt l i fun k => g (f k) := by
    induction l generalizing i with
    | nil => rfl
    | cons a l ih =>
      cases i with
      | zero => rfl
      | succ i => exact congrArg (a :: ·) (ih i)
  unfold Part.modLine Part.modClocks
  dsimp only
  rw [h]

/-- One line replaced. -/
def Part.setLine (p : Part) (i : Nat) (x : ClockLine) : Part :=
  { p with clocks := { p.clocks with lines := updateAt p.clocks.lines i fun _ => x } }

theorem Part.modLine_eq_set (p : Part) (i : Nat) (f : ClockLine → ClockLine) : p.modLine i f = p.setLine i (f (p.clocks.line i)) := by
  unfold Part.modLine Part.modClocks Part.setLine Clocks.line
  dsimp only
  rw [updateAt_eq_const _ _ _ resetClockLine]

theorem Part.spoilRecord_clocks (p : Part) : p.spoilRecord.clocks = { p.clocks with recordValid := false } := by
  unfold Part.spoilRecord
  split
  · rfl
  · next h => rw [← Bool.eq_false_iff.mpr h]

theorem Part.askWrite_store (p : Part) (w : StoreWrite) :
    (p.askWrite w).store.working = p.store.working ∧ (p.askWrite w).store.stored = p.store.stored ∧
      (p.askWrite w).store.writes = p.store.writes ++ [w] := by
  unfold Part.askWrite
  dsimp only
  split
  · next h => exact ⟨rfl, rfl, by rw [List.isEmpty_iff.mp h]; rfl⟩
  · exact ⟨rfl, rfl, rfl⟩

theorem Part.spoilRecord_store (p : Part) :
    p.spoilRecord.store.working = p.store.working ∧ p.spoilRecord.store.stored = p.store.stored := by
  unfold Part.spoilRecord
  split
  · obtain ⟨hworking, hstored, -⟩ := (p.modClocks fun c => { c with recordValid := false }).askWrite_store .invalidate
    exact ⟨hworking, hstored⟩
  · exact ⟨rfl, rfl⟩

/-! ## Evaluation (R170, R172, R173) -/

/-- What the evaluation of a line decides. -/
def Part.decision (p : Part) (i : Nat) (boundary : Bool) : Decision :=
  let k := (p.clocks.line i).checkDial (p.clockConfig i).dial
  decideLine (p.clockConfig i) (p.lag k) k.dial k.state boundary

/-- The impulse that starts on a line now. -/
def Part.newImpulse (p : Part) (i : Nat) : Impulse :=
  { polarity := (p.clocks.line i).polarity, driving := true, gap := (p.clockConfig i).gap, startedAt := p.elapsed,
    phaseEnd := p.elapsed + (p.clockConfig i).width, openRead := false }

theorem ClockLine.checkDial_eq (k : ClockLine) (dial : Nat) : k.checkDial dial = { k with
    dial := dial
    position := if k.dial = dial then k.position else k.position.map (· % dial)
    uncertain := k.uncertain || (decide (k.dial ≠ dial) && k.position.isSome) } := by
  unfold ClockLine.checkDial
  by_cases h : k.dial = dial
  · rw [if_pos (beq_iff_eq.mpr h)]
    subst h
    simp
  · rw [if_neg (by simpa using h)]
    simp [h]

theorem Part.evaluate_left {p : Part} {i : Nat} (h : (p.clocks.line i).isFaulted = true ∨ (p.clocks.line i).state = .parked)
    (boundary retry : Bool) : p.evaluate i boundary retry = p := by
  unfold Part.evaluate
  exact if_pos (by simpa using h)

/-- The record a line has after an evaluation. -/
def Part.evaluated (p : Part) (i : Nat) (boundary retry : Bool) : ClockLine :=
  let d := p.decision i boundary
  let k := { (p.clocks.line i).checkDial (p.clockConfig i).dial with state := d.state }
  if d.impulse then { k with impulse := some (p.newImpulse i), retryImpulse := retry } else k

/-- An evaluation writes the line, marks the park record as not valid when an impulse starts, and latches CLOCK_LINE_IN_STEP. -/
theorem Part.evaluate_eq {p : Part} {i : Nat} (hf : (p.clocks.line i).isFaulted = false) (hp : (p.clocks.line i).state ≠ .parked)
    (boundary retry : Bool) : p.evaluate i boundary retry =
      (let x := p.setLine i (p.evaluated i boundary retry)
       let q := if (p.decision i boundary).impulse then x.spoilRecord else x
       if (p.decision i boundary).inStep then q.latchNat .clockLineInStep (i + 1) else q) := by
  have hpol : ((p.clocks.line i).checkDial (p.clockConfig i).dial).polarity = (p.clocks.line i).polarity := by
    rw [ClockLine.checkDial_eq]
  have hstart (k : ClockLine) (hk : k.polarity = (p.clocks.line i).polarity) :
      (p.modLine i fun _ => k).startImpulse i retry =
        (p.setLine i { k with impulse := some (p.newImpulse i), retryImpulse := retry }).spoilRecord := by
    rw [Part.newImpulse, ← hk]
    exact congrArg Part.spoilRecord (p.modLine_modLine i _ _)
  rw [Part.evaluate, if_neg (by simp [hf, hp]), Part.evaluated]
  dsimp only
  have hd : decideLine (p.clockConfig i) (p.lag ((p.clocks.line i).checkDial (p.clockConfig i).dial))
    ((p.clocks.line i).checkDial (p.clockConfig i).dial).dial ((p.clocks.line i).checkDial (p.clockConfig i).dial).state boundary =
    p.decision i boundary := rfl
  rw [hd]
  by_cases himpulse : (p.decision i boundary).impulse = true
  · rw [if_pos himpulse, if_pos himpulse, if_pos himpulse,
      hstart { (p.clocks.line i).checkDial (p.clockConfig i).dial with state := (p.decision i boundary).state } hpol]
  · rw [if_neg himpulse, if_neg himpulse, if_neg himpulse]
    rfl

section
variable {p : Part} {i : Nat} (hf : (p.clocks.line i).isFaulted = false) (hp : (p.clocks.line i).state ≠ .parked)
  (boundary retry : Bool)
include hf hp

theorem Part.evaluate_clocks : (p.evaluate i boundary retry).clocks =
    { (p.setLine i (p.evaluated i boundary retry)).clocks with
      recordValid := p.clocks.recordValid && !(p.decision i boundary).impulse } := by
  have hlatch (q : Part) (c : Prop) [Decidable c] : (if c then q.latchNat .clockLineInStep (i + 1) else q).clocks = q.clocks := by
    split <;> rfl
  rw [Part.evaluate_eq hf hp]
  dsimp only
  rw [hlatch]
  split
  · next h => rw [Part.spoilRecord_clocks, h, Bool.not_true, Bool.and_false]
  · next h =>
    rw [Bool.eq_false_iff.mpr h, Bool.not_false, Bool.and_true]
    rfl

theorem Part.evaluate_store : (p.evaluate i boundary retry).store.working = p.store.working ∧
    (p.evaluate i boundary retry).store.stored = p.store.stored := by
  have hlatch (q : Part) (c : Prop) [Decidable c] : (if c then q.latchNat .clockLineInStep (i + 1) else q).store = q.store := by
    split <;> rfl
  rw [Part.evaluate_eq hf hp]
  dsimp only
  rw [hlatch]
  split
  · exact Part.spoilRecord_store _
  · exact ⟨rfl, rfl⟩

theorem Part.evaluate_isLatched (l : Link) : ((p.evaluate i boundary retry).port l).isLatched .clockLineInStep =
    ((p.port l).isLatched .clockLineInStep || (p.decision i boundary).inStep) := by
  have hport (q : Part) : (if (p.decision i boundary).impulse = true then q.spoilRecord else q).port l = q.port l := by
    split
    · unfold Part.spoilRecord
      split
      · cases l <;> rfl
      · rfl
    · rfl
  have hset : (p.setLine i (p.evaluated i boundary retry)).port l = p.port l := by cases l <;> rfl
  rw [Part.evaluate_eq hf hp]
  dsimp only
  split
  · next h => rw [Part.latchNat, Part.latch_port, Port.latch_isLatched_same, h, Bool.or_true]
  · next h => rw [hport, hset, Bool.eq_false_iff.mpr h, Bool.or_false]

end

/-- The position of a line after the dial-size check. -/
def Part.positionNow (p : Part) (i : Nat) : Option Nat :=
  if (p.clocks.line i).dial = (p.clockConfig i).dial then (p.clocks.line i).position
  else (p.clocks.line i).position.map (· % (p.clockConfig i).dial)

theorem Part.decision_eq (p : Part) (i : Nat) (boundary : Bool) : p.decision i boundary =
    decideLine (p.clockConfig i)
      (if p.time.valid then (p.positionNow i).map (lagOf p.time.second (p.clockConfig i).dial) else none)
      (p.clockConfig i).dial (p.clocks.line i).state boundary := by
  unfold Part.decision Part.lag
  dsimp only
  rw [ClockLine.checkDial_eq]
  rfl

theorem Part.decision_disabled {p : Part} {i : Nat} (h : (p.clockConfig i).enabled = false) (boundary : Bool) :
    p.decision i boundary = { state := .disabled, impulse := false, inStep := false } := by
  rw [Part.decision_eq, decideLine.eq_def, h]
  rfl

theorem Part.decision_stopped {p : Part} {i : Nat} (he : (p.clockConfig i).enabled = true)
    (h : p.time.valid = false ∨ p.positionNow i = none) (boundary : Bool) :
    p.decision i boundary = { state := .stopped, impulse := false, inStep := false } := by
  have hlag : (if p.time.valid then (p.positionNow i).map (lagOf p.time.second (p.clockConfig i).dial) else none) = none := by
    rcases h with h | h
    · rw [h]
      rfl
    · rw [h]
      exact ite_self _
  rw [Part.decision_eq, hlag, decideLine.eq_def, he]
  rfl

/-- What is decided for a line that has a lag. -/
theorem Part.decision_of_lag {p : Part} {i n : Nat} (he : (p.clockConfig i).enabled = true) (hv : p.time.valid = true)
    (hn : p.positionNow i = some n) (boundary : Bool) :
    let lag := lagOf p.time.second (p.clockConfig i).dial n
    p.decision i boundary =
      if lag == 0 then
        { state := .running, impulse := false, inStep := (p.clocks.line i).state == .catchingUp || (p.clocks.line i).state == .holding }
      else if lag == 1 && boundary && (p.clocks.line i).state == .running then { state := .running, impulse := true, inStep := false }
      else if (p.clockConfig i).dial - lag ≤ (p.clockConfig i).hold then { state := .holding, impulse := false, inStep := false }
      else { state := .catchingUp, impulse := true, inStep := false } := by
  rw [Part.decision_eq, hn, hv, decideLine.eq_def, he]
  rfl

/-- The record of a line after an evaluation, field by field. -/
theorem Part.evaluated_of {p : Part} {i : Nat} {boundary : Bool} {d : Decision} (h : p.decision i boundary = d) (retry : Bool) :
    p.evaluated i boundary retry = { p.clocks.line i with
      state := d.state, dial := (p.clockConfig i).dial, position := p.positionNow i
      uncertain := (p.clocks.line i).uncertain ||
        (decide ((p.clocks.line i).dial ≠ (p.clockConfig i).dial) && (p.clocks.line i).position.isSome)
      impulse := if d.impulse then some (p.newImpulse i) else (p.clocks.line i).impulse
      retryImpulse := if d.impulse then retry else (p.clocks.line i).retryImpulse } := by
  unfold Part.evaluated
  rw [h, ClockLine.checkDial_eq]
  dsimp only
  split <;> rfl

theorem Part.evaluate_line {p : Part} {i : Nat} (hi : i < p.clocks.lines.length) (hf : (p.clocks.line i).isFaulted = false)
    (hp : (p.clocks.line i).state ≠ .parked) (boundary retry : Bool) :
    (p.evaluate i boundary retry).clocks.line i = p.evaluated i boundary retry := by
  rw [Part.evaluate_clocks hf hp]
  exact updateAt_getD_same _ _ _ _ hi

theorem Part.evaluate_line_other {p : Part} {i j : Nat} (h : j ≠ i) (boundary retry : Bool) :
    (p.evaluate i boundary retry).clocks.line j = p.clocks.line j := by
  by_cases hleft : (p.clocks.line i).isFaulted = true ∨ (p.clocks.line i).state = .parked
  · rw [Part.evaluate_left hleft]
  · rw [not_or, Bool.not_eq_true] at hleft
    rw [Part.evaluate_clocks hleft.1 hleft.2]
    exact updateAt_getD_other _ _ _ _ _ h.symm

theorem Part.eq_of_beyondClocks {p q : Part} (h : q.beyondClocks = p.beyondClocks) :
    q = { p with clocks := q.clocks, store := q.store, info := q.info, ctl := q.ctl } :=
  (congrArg (fun x : Part => { x with clocks := q.clocks, store := q.store, info := q.info, ctl := q.ctl }) h :)

/-- Settles O51: what an evaluation decides, and what it leaves as it was. -/
theorem clockLineEvaluation : Obligations.ClockLineEvaluation := by
  unfold Obligations.ClockLineEvaluation
  intro p i boundary retry hi hlen k cfg q x position starts rests
  have hmem : i < p.clocks.lines.length := hlen.symm ▸ hi
  refine ⟨fun h => Part.evaluate_left h boundary retry, ?evaluates, fun j hj => Part.evaluate_line_other hj _ _,
    Part.eq_of_beyondClocks (p.evaluate_beyondClocks i boundary retry), ?store⟩
  case evaluates =>
    intro hf hp
    have hvalid : q.clocks.recordValid = (p.clocks.recordValid && !(p.decision i boundary).impulse) :=
      congrArg Clocks.recordValid (Part.evaluate_clocks hf hp boundary retry)
    have hfields {d : Decision} (hd : p.decision i boundary = d) :=
      (Part.evaluate_line hmem hf hp boundary retry).trans (Part.evaluated_of hd retry)
    have hrests {st : ClockState} {inStep : Bool} (hd : p.decision i boundary = { state := st, impulse := false, inStep := inStep }) :
        x.state = st ∧ rests := by
      refine ⟨congrArg ClockLine.state (hfields hd), (congrArg ClockLine.impulse (hfields hd) :).trans rfl,
        (congrArg ClockLine.retryImpulse (hfields hd) :).trans rfl, ?_⟩
      rw [hvalid, hd]
      exact Bool.and_true _
    have hstarts {st : ClockState} {inStep : Bool} (hd : p.decision i boundary = { state := st, impulse := true, inStep := inStep }) :
        x.state = st ∧ starts := by
      refine ⟨congrArg ClockLine.state (hfields hd), (congrArg ClockLine.impulse (hfields hd) :).trans rfl,
        (congrArg ClockLine.retryImpulse (hfields hd) :).trans rfl, ?_⟩
      rw [hvalid, hd]
      exact Bool.and_false _
    refine ⟨congrArg ClockLine.dial (hfields rfl), congrArg ClockLine.position (hfields rfl), ?uncertain,
      (congrArg ClockLine.polarity (hfields rfl) :).trans rfl, (congrArg ClockLine.faults (hfields rfl) :).trans rfl,
      (congrArg ClockLine.retryAt (hfields rfl) :).trans rfl, fun h => hrests (Part.decision_disabled h boundary),
      fun he h => hrests (Part.decision_stopped he h boundary), ?running⟩
    case uncertain =>
      have h : x.uncertain = _ := congrArg ClockLine.uncertain (hfields rfl)
      rw [h]
      simp only [Bool.or_eq_true, Bool.and_eq_true, decide_eq_true_eq]
      exact Iff.rfl
    case running =>
      intro n he hv hn lag
      have hd := Part.decision_of_lag he hv hn boundary
      refine ⟨fun h0 => ?_, fun h1 hb hr => ?_, fun h0 hno => ?_⟩
      · have hd := hd.trans (if_pos (beq_iff_eq.mpr h0))
        obtain ⟨hstate, hrest⟩ := hrests hd
        refine ⟨hstate, hrest, fun l => ?_⟩
        rw [Part.evaluate_isLatched hf hp, hd, Bool.or_assoc]
      · have h0 : ¬(lag == 0) = true := by
          rw [h1]
          exact Bool.false_ne_true
        have hstep : (lag == 1 && boundary && k.state == .running) = true := by rw [h1, hb, hr]; rfl
        exact hstarts ((hd.trans (if_neg h0)).trans (if_pos hstep))
      · have hstep : ¬(lag == 1 && boundary && k.state == .running) = true := by
          simpa only [Bool.and_eq_true, beq_iff_eq, and_assoc] using hno
        have hd := (hd.trans (if_neg (mt beq_iff_eq.mp h0))).trans (if_neg hstep)
        exact ⟨fun hhold => hrests (hd.trans (if_pos hhold)), fun hhold => hstarts (hd.trans (if_neg (Nat.not_le.mpr hhold)))⟩
  case store =>
    by_cases hleft : (p.clocks.line i).isFaulted = true ∨ (p.clocks.line i).state = .parked
    · have hq : q = p := Part.evaluate_left hleft boundary retry
      rw [hq]
      exact ⟨rfl, rfl⟩
    · rw [not_or, Bool.not_eq_true] at hleft
      exact Part.evaluate_store hleft.1 hleft.2 boundary retry

end Sys2Proof.Machine
end

section
/-! The events of an impulse (R174 to R176, R180), and the retry (R175). -/

namespace Sys2Proof.Machine

/-- A line that differs from a reset one is a line of the list. -/
theorem Clocks.lt_of_impulse {c : Clocks} {i : Nat} {m : Impulse} (h : (c.line i).impulse = some m) : i < c.lines.length := by
  by_contra hlt
  rw [Clocks.line_of_length_le (Nat.not_lt.mp hlt)] at h
  cases h

theorem Part.setLine_line_same {p : Part} {i : Nat} (hi : i < p.clocks.lines.length) (x : ClockLine) :
    (p.setLine i x).clocks.line i = x := updateAt_getD_same _ _ _ _ hi

theorem Part.modLine_set (p : Part) (i : Nat) (x : ClockLine) (f : ClockLine → ClockLine) :
    (p.setLine i x).modLine i f = p.setLine i (f x) := p.modLine_modLine i (fun _ => x) f

/-- The retry timer expires. -/
theorem Part.clockRetryExpiry_eq {p : Part} {i t : Nat} (h : (p.clocks.line i).retryAt = some t) : p.clockRetryExpiry i =
    ((p.advanceTo t).setLine i { p.clocks.line i with retryAt := none, state := .stopped }).evaluate i false true := by
  rw [Part.clockRetryExpiry, h]
  exact congrArg (·.evaluate i false true) ((p.advanceTo t).modLine_eq_set i fun k => { k with retryAt := none, state := .stopped })

section
variable {p : Part} {i : Nat} {m : Impulse} (h : (p.clocks.line i).impulse = some m)
include h

theorem Part.impulseOpenCheck_eq (hd : m.driving = true) (hr : m.openRead = false) (flows : Bool) : p.impulseOpenCheck i flows =
    (let q := (p.advanceTo (m.startedAt + 100)).setLine i { p.clocks.line i with impulse := some { m with openRead := true } }
     if flows then q else q.openFault i) := by
  rw [Part.impulseOpenCheck, h]
  dsimp only
  rw [if_pos (by rw [hd, hr]; rfl)]
  have hset := (p.advanceTo (m.startedAt + 100)).modLine_eq_set i fun k => { k with impulse := some { m with openRead := true } }
  rw [hset]
  rfl

theorem Part.impulseOverload_eq (hd : m.driving = true) : p.impulseOverload i = p.overloadFault i := by
  rw [Part.impulseOverload, h]
  exact if_pos hd

theorem Part.impulseDriveEnd_eq (hd : m.driving = true) : p.impulseDriveEnd i =
    (p.advanceTo m.phaseEnd).setLine i ((p.clocks.line i).deliver (max p.elapsed m.phaseEnd)) := by
  rw [Part.impulseDriveEnd, h]
  dsimp only
  rw [if_pos hd]
  exact (p.advanceTo m.phaseEnd).modLine_eq_set i fun k => k.deliver (max p.elapsed m.phaseEnd)

/-- The line that an impulse leaves free. -/
theorem Part.impulseGapEnd_eq (hd : m.driving = false) : p.impulseGapEnd i =
    (let q := (p.advanceTo m.phaseEnd).setLine i { p.clocks.line i with impulse := none, retryImpulse := false }
     if p.clocks.toPark i then (q.modLine i ClockLine.parkNow).parkCheck else q.evaluate i false false) := by
  rw [Part.impulseGapEnd, h]
  dsimp only
  rw [if_neg (by rw [hd]; exact Bool.false_ne_true)]
  have hset := (p.advanceTo m.phaseEnd).modLine_eq_set i fun k => { k with impulse := none, retryImpulse := false }
  rw [hset]
  rfl

theorem Part.overloadFault_eq : p.overloadFault i = (p.setLine i { p.clocks.line i with
    impulse := some { m with driving := false, phaseEnd := p.elapsed + m.gap }, faults := min 255 ((p.clocks.line i).faults + 1)
    state := .faultedOverload, uncertain := true, polarity := (p.clocks.line i).polarity.reverse }).latchNat .clockLineFault (i + 1) := by
  unfold Part.overloadFault
  rw [Part.modLine_eq_set]
  unfold ClockLine.countFault ClockLine.cut
  rw [h]
  rfl

end

/-- OPEN, for a line whose impulse is `m`. -/
theorem Part.openFault_set {p : Part} {i : Nat} (hi : i < p.clocks.lines.length) {k : ClockLine} {m : Impulse} (h : k.impulse = some m) :
    (p.setLine i k).openFault i =
      (let q := p.setLine i { k with
        impulse := some { m with driving := false, phaseEnd := p.elapsed + m.gap }, faults := min 255 (k.faults + 1)
        state := .faultedOpen, retryAt := some (p.elapsed + 60000) }
       if k.retryImpulse then q else q.latchNat .clockLineFault (i + 1)) := by
  unfold Part.openFault
  dsimp only
  rw [Part.modLine_set, Part.setLine_line_same hi]
  unfold ClockLine.countFault ClockLine.cut
  rw [h]
  rfl

/-! ## Parking at the end of an impulse (R180) -/

theorem Part.parkCheck_frame (p : Part) : p.parkCheck = { p with clocks := p.parkCheck.clocks, store := p.parkCheck.store } ∧
    p.parkCheck.clocks.lines = p.clocks.lines := by
  unfold Part.parkCheck
  split
  · split
    · exact ⟨rfl, rfl⟩
    · exact ⟨rfl, rfl⟩
  · exact ⟨rfl, rfl⟩

/-- When every line to be parked is PARKED, the park record is asked for. -/
theorem Part.parkCheck_asks {p : Part} {k : Park} (h : p.clocks.park = some k) (ha : k.asked = false)
    (hall : ∀ j ∈ k.lines, (p.clocks.line j).state = .parked) : p.parkCheck.clocks.park = some { k with asked := true } ∧
      p.parkCheck.store.writes = p.store.writes ++ [.park p.clocks.parkRecord] := by
  have hcond : (!k.asked && k.lines.all fun i => (p.clocks.line i).state == .parked) = true := by
    rw [ha]
    simpa using hall
  rw [Part.parkCheck, h]
  dsimp only
  rw [if_pos hcond]
  obtain ⟨-, -, hwrites⟩ := (p.modClocks fun c => { c with park := some { k with asked := true } }).askWrite_store
    (.park p.clocks.parkRecord)
  exact ⟨rfl, hwrites⟩

/-- A line set, and then the check whether every line to be parked is PARKED. -/
theorem Part.parkCheck_set {p : Part} {i : Nat} (hi : i < p.clocks.lines.length) (x : ClockLine) :
    let q := (p.setLine i x).parkCheck
    q.clocks.line i = x ∧ (∀ j, j ≠ i → q.clocks.line j = p.clocks.line j) ∧
      (∀ park, p.clocks.park = some park → park.asked = false → (∀ j ∈ park.lines, (q.clocks.line j).state = .parked) →
        q.clocks.park = some { park with asked := true } ∧
        q.store.writes = p.store.writes ++ [.park (1 :: q.clocks.lines.flatMap ClockLine.parkEntry)]) ∧
      q = { p with clocks := q.clocks, store := q.store } := by
  intro q
  obtain ⟨hframe, hlines⟩ := (p.setLine i x).parkCheck_frame
  have hline (j : Nat) : q.clocks.line j = (p.setLine i x).clocks.line j := by
    unfold Clocks.line
    rw [hlines]
  refine ⟨(hline i).trans (Part.setLine_line_same hi x), fun j hj => ?_, fun park hpark ha hall => ?_, hframe⟩
  · exact (hline j).trans (updateAt_getD_other _ _ _ _ _ hj.symm)
  · rw [hlines]
    exact Part.parkCheck_asks (p := p.setLine i x) hpark ha fun j hj => hline j ▸ hall j hj

theorem Clocks.toPark_of {c : Clocks} {park : Park} {i : Nat} (h : c.park = some park) (hi : park.lines.contains i = true) :
    c.toPark i = true := by
  rw [Clocks.toPark, h]
  exact hi

/-- Settles O53: what each event of an impulse leaves, and the retry. -/
theorem impulseEvents : Obligations.ImpulseEvents := by
  unfold Obligations.ImpulseEvents
  intro s i hp k setLine
  refine ⟨?driving, ?gap, ?retry⟩
  case driving =>
    intro m hm hd
    have hlt := Clocks.lt_of_impulse (c := s.part.clocks) hm
    refine ⟨?openCheck, ?overload, ?delivered⟩
    case openCheck =>
      intro hr p read failed
      have hopen (flows : Bool) := Part.impulseOpenCheck_eq hm hd hr flows
      refine ⟨leaves_act (·.impulseOpenCheck i true) rfl hp (hopen true), leaves_act (·.impulseOpenCheck i false) rfl hp ?_⟩
      refine (hopen false).trans ?_
      exact Part.openFault_set (p := s.part.advanceTo (m.startedAt + 100)) hlt (k := { k with impulse := some read }) rfl
    case overload =>
      exact leaves_act (·.impulseOverload i) rfl hp ((Part.impulseOverload_eq hm hd).trans (Part.overloadFault_eq hm))
    case delivered =>
      intro p
      refine leaves_act (·.impulseDriveEnd i) rfl hp ((Part.impulseDriveEnd_eq hm hd).trans ?_)
      unfold ClockLine.deliver ClockLine.cut
      rw [hm]
      rfl
  case gap =>
    intro m hm hd p free
    have hlt := Clocks.lt_of_impulse (c := s.part.clocks) hm
    have hgap := Part.impulseGapEnd_eq hm hd
    refine ⟨fun hno => leaves_act (·.impulseGapEnd i) rfl hp (hgap.trans (if_neg (by rw [hno]; exact Bool.false_ne_true))), ?parks⟩
    intro park hpark hi
    have hgap := hgap.trans (if_pos (Clocks.toPark_of hpark hi))
    have hset := (s.part.advanceTo m.phaseEnd).modLine_set i { k with impulse := none, retryImpulse := false } ClockLine.parkNow
    rw [hset] at hgap
    obtain ⟨hline, hothers, hasks, hframe⟩ := Part.parkCheck_set (p := s.part.advanceTo m.phaseEnd) hlt
      { k with impulse := none, retryImpulse := false }.parkNow
    exact ⟨_, leaves_act (·.impulseGapEnd i) rfl hp hgap, hline, hothers, hasks park hpark, hframe⟩
  case retry =>
    intro t ht
    exact leaves_act (·.clockRetryExpiry i) rfl hp (Part.clockRetryExpiry_eq ht)

end Sys2Proof.Machine
end

section
/-! Placement: what the references of a new record leave of the scheduler; CUE_POST and CUE_CANCEL. -/

namespace Sys2Proof.Machine

/-! ## A record in the pool -/

theorem CueSched.cue?_eq (q : CueSched) (id : Nat) : q.cue? id = (q.pool.filter (·.id == id)).head? :=
  List.head?_filter.symm

theorem CueSched.cue?_mem {q : CueSched} {id : Nat} {c : Cue} (h : q.cue? id = some c) : c ∈ q.pool ∧ c.id = id :=
  ⟨List.mem_of_find?_eq_some h, beq_iff_eq.mp (List.find?_some (p := fun c : Cue => c.id == id) h)⟩

theorem CueSched.cue?_modCue {q : CueSched} {id : Nat} {f : Cue → Cue} (hf : ∀ c, (f c).id = c.id) (n : Nat) :
    (q.modCue id f).cue? n = (q.cue? n).map fun c => if c.id == id then f c else c := by
  unfold CueSched.cue? CueSched.modCue
  rw [List.find?_map]
  congr 2
  funext c
  simp only [Function.comp]
  split
  · rw [hf]
  · rfl

theorem CueSched.cue?_modCue_same {q : CueSched} {id : Nat} {f : Cue → Cue} (hf : ∀ c, (f c).id = c.id) {c : Cue}
    (h : q.cue? id = some c) : (q.modCue id f).cue? id = some (f c) := by
  rw [CueSched.cue?_modCue hf, h, Option.map_some, if_pos (beq_iff_eq.mpr (CueSched.cue?_mem h).2)]

/-- The records of the id `id` are the same in both schedulers. -/
def CueSched.SameOwn (id : Nat) (q r : CueSched) : Prop := r.pool.filter (·.id == id) = q.pool.filter (·.id == id)

theorem CueSched.SameOwn.cue? {id : Nat} {q r : CueSched} (h : q.SameOwn id r) : r.cue? id = q.cue? id := by
  rw [CueSched.cue?_eq, CueSched.cue?_eq, h]

theorem CueSched.SameOwn.mem {id : Nat} {q r : CueSched} (h : q.SameOwn id r) {c : Cue} (hc : c ∈ q.pool) (hid : c.id = id) :
    c ∈ r.pool := by
  have hmem : c ∈ q.pool.filter (·.id == id) := List.mem_filter.mpr ⟨hc, beq_iff_eq.mpr hid⟩
  rw [← h] at hmem
  exact (List.mem_filter.mp hmem).1

theorem CueSched.sameOwn_free (q : CueSched) {id v : Nat} (h : v ≠ id) : q.SameOwn id (q.free v) := by
  unfold CueSched.SameOwn CueSched.free
  rw [List.filter_filter]
  refine List.filter_congr fun c _ => ?_
  by_cases hc : c.id = id
  · rw [hc]
    simp [Ne.symm h]
  · simp [hc]

theorem CueSched.sameOwn_modCue (q : CueSched) {id v : Nat} (h : v ≠ id) {f : Cue → Cue} (hf : ∀ c, (f c).id = c.id) :
    q.SameOwn id (q.modCue v f) := by
  unfold CueSched.SameOwn CueSched.modCue
  rw [List.filter_map]
  have hsel : ((fun c : Cue => c.id == id) ∘ fun c => if c.id == v then f c else c) = fun c => c.id == id := by
    funext c
    simp only [Function.comp]
    split
    · rw [hf]
    · rfl
  rw [hsel]
  refine (List.map_congr_left fun c hc => ?_).trans (List.map_id _)
  have hid : c.id = id := beq_iff_eq.mp (List.mem_filter.mp hc).2
  exact if_neg (by rw [hid, beq_iff_eq]; exact Ne.symm h)

/-! ## References (R153) -/

/-- What the references of the record `id` leave of the scheduler: that record, and everything but the pool, the queues, the zones and
what goes to the announcer; and no zone becomes STOPPING with that record. -/
structure CueSched.Inserted (id : Nat) (q r : CueSched) : Prop where
  own : q.SameOwn id r
  frame : r.beyondExamined = q.beyondExamined
  unstopped : ZoneState.stopping id ∉ q.zones → ZoneState.stopping id ∉ r.zones

theorem CueSched.Inserted.refl (id : Nat) (q : CueSched) : q.Inserted id q := ⟨rfl, rfl, fun h => h⟩

theorem CueSched.Inserted.trans {id : Nat} {q r t : CueSched} (h : q.Inserted id r) (h' : r.Inserted id t) : q.Inserted id t :=
  ⟨h'.own.trans h.own, h'.frame.trans h.frame, fun hq => h'.unstopped (h.unstopped hq)⟩

theorem CueSched.zoneVictim_some {q : CueSched} {z v : Nat} {cls : CueClass} (h : q.zoneVictim z cls = some v) :
    (q.queue z).getLast? = some v ∧ ∃ c, q.cue? v = some c ∧ cls.code < c.cls.code := by
  unfold CueSched.zoneVictim at h
  obtain ⟨id, hid, hv⟩ := Option.bind_eq_some_iff.mp h
  split at hv
  · next c hc =>
    split at hv
    · next hlt =>
      obtain rfl := Option.some.inj hv
      exact ⟨hid, c, hc, hlt⟩
    · cases hv
  · cases hv

/-- A record of the class being placed is no victim. -/
theorem CueSched.zoneVictim_ne {q : CueSched} {z v id : Nat} {cls : CueClass} (h : q.zoneVictim z cls = some v)
    (hcls : ∀ c, q.cue? id = some c → c.cls = cls) : v ≠ id := by
  rintro rfl
  obtain ⟨-, c, hc, hlt⟩ := CueSched.zoneVictim_some h
  rw [hcls c hc] at hlt
  exact absurd hlt (Nat.lt_irrefl _)

theorem Part.inserted_dropReference (p : Part) {id v : Nat} (h : v ≠ id) (z : Nat) :
    p.cues.Inserted id (p.dropReference v z).cues := by
  have hmod (q : CueSched) : q.Inserted id (q.modCue v (·.setOutcome (· == z) .dropped)) := ⟨q.sameOwn_modCue h fun _ => rfl, rfl, fun h => h⟩
  have hqueues : p.cues.Inserted id
      { p.cues with queues := updateAt p.cues.queues (z - 1) fun (l : List Nat) => l.filter (· != v) } := ⟨rfl, rfl, fun h => h⟩
  unfold Part.dropReference
  dsimp only [Part.modCues]
  show p.cues.Inserted id (if _ then _ else _)
  split
  · exact hqueues.trans (hmod _)
  · exact (hqueues.trans (hmod _)).trans ⟨CueSched.sameOwn_free _ h, rfl, fun h => h⟩

section
variable {id : Nat} {cls : CueClass}

/-- The record placed has the class it is placed with. -/
def CueSched.OwnClass (q : CueSched) (id : Nat) (cls : CueClass) : Prop := ∀ c, q.cue? id = some c → c.cls = cls

theorem CueSched.Inserted.ownClass {q r : CueSched} (h : q.Inserted id r) (hcls : q.OwnClass id cls) : r.OwnClass id cls :=
  fun c hc => hcls c (h.own.cue? ▸ hc)

theorem Part.inserted_insertReference {p : Part} (hcls : p.cues.OwnClass id cls) (z : Nat) :
    p.cues.Inserted id (p.insertReference id cls z).cues := by
  have hinsert (q : Part) : q.cues.Inserted id (if (q.cues.queue z).length < 6 then
      q.modCues fun q => { q with queues := updateAt q.queues (z - 1) (insertBy q.refBefore id) } else q).cues := by
    split
    · exact ⟨rfl, rfl, fun h => h⟩
    · exact .refl id _
  unfold Part.insertReference
  dsimp only
  refine CueSched.Inserted.trans ?_ (hinsert _)
  split
  · exact .refl id _
  · cases hv : p.cues.zoneVictim z cls with
    | none => exact .refl id _
    | some v => exact p.inserted_dropReference (CueSched.zoneVictim_ne hv hcls) z

theorem Part.inserted_preemptZone {p : Part} (hcls : p.cues.OwnClass id .emergency) (z : Nat) :
    p.cues.Inserted id (p.preemptZone z).cues := by
  unfold Part.preemptZone
  split
  · next c hc =>
    split
    · next x hx =>
      split
      · exact .refl id _
      · next hlow =>
        have hne : c ≠ id := by
          rintro rfl
          exact hlow (by rw [hcls x hx]; rfl)
        refine ⟨CueSched.sameOwn_modCue _ hne fun _ => rfl, rfl, fun hfree hmem => ?_⟩
        obtain ⟨st, hst, heq⟩ := List.mem_map.mp hmem
        split at heq
        · injection heq with heq
          exact hne heq
        · exact hfree (heq ▸ hst)
    · exact .refl id _
  · exact .refl id _

theorem Part.inserted_foldl {f : Part → Nat → Part} (h : ∀ (p : Part) z, p.cues.OwnClass id cls → p.cues.Inserted id (f p z).cues)
    (zones : List Nat) {p : Part} (hcls : p.cues.OwnClass id cls) : p.cues.Inserted id (zones.foldl f p).cues := by
  induction zones generalizing p with
  | nil => exact .refl id _
  | cons z zones ih =>
    have hone := h p z hcls
    exact hone.trans (ih (hone.ownClass hcls))

theorem Part.inserted_insertCue {p : Part} (hcls : p.cues.OwnClass id cls) (zones : List Nat) :
    p.cues.Inserted id (p.insertCue id cls zones).cues := by
  have hrefs := Part.inserted_foldl (f := fun p z => p.insertReference id cls z) (fun p z h => p.inserted_insertReference h z) zones hcls
  unfold Part.insertCue
  dsimp only
  split
  · next h =>
    obtain rfl := beq_iff_eq.mp h
    exact hrefs.trans (Part.inserted_foldl (f := fun p z => p.preemptZone z) (fun p z h => p.inserted_preemptZone h z) zones
      (hrefs.ownClass hcls))
  · exact hrefs

end

/-! ## A new record (R145) -/

/-- The id the next record takes. -/
def CueSched.newId (q : CueSched) : Nat := firstFree q.idTaken 65535 65535 q.nextId

theorem mem_tried {top n m : Nat} (h1 : 1 ≤ n) (h2 : n ≤ top) (hm1 : 1 ≤ m) (hm2 : m ≤ top) : m ∈ tried top top n := by
  have htop : (top + 1 - n) + (n - 1) = top := by omega
  have hsplit := tried_of_large (top := top) (top + 1 - n) (n - 1) n h2 rfl
  rw [htop, tried_of_small (n - 1) 1 (by omega)] at hsplit
  rw [hsplit, List.mem_append, List.mem_range'_1, List.mem_range'_1]
  omega

theorem CueSched.newId_of_free {q : CueSched} (h1 : 1 ≤ q.nextId) (h2 : q.nextId ≤ 65535)
    (h : ∃ id, 1 ≤ id ∧ id ≤ 65535 ∧ q.idTaken id = false) : q.idTaken q.newId = false := by
  obtain ⟨id, hid1, hid2, hfree⟩ := h
  exact firstFree_unused 65535 q.nextId ⟨id, mem_tried h1 h2 hid1 hid2, hfree⟩

theorem CueSched.newId_next {q : CueSched} (h : q.idTaken q.nextId = false) : q.newId = q.nextId := by
  unfold CueSched.newId
  rw [firstFree]
  exact if_neg (by rw [h]; exact Bool.false_ne_true)

/-- The record that a placement makes. -/
def Part.newCue (p : Part) (n : NewCue) (zones : List Nat) : Cue :=
  { id := p.cues.newId, cls := n.cls, origin := n.origin, arrival := p.cues.nextArrival, service := n.service, template := n.template,
    input := n.input, zones := zones.map fun z => (z, .pending), tokens := n.tokens, required := none, replayed := false,
    created := p.elapsed, flight := .queued }

/-- The part with the record made, but without its references. -/
def Part.withNewCue (p : Part) (n : NewCue) (zones : List Nat) : Part :=
  { p with cues := { p.cues with
      pool := p.cues.pool ++ [p.newCue n zones]
      nextId := if p.cues.newId < 65535 then p.cues.newId + 1 else 1
      nextArrival := countNext p.cues.nextArrival } }

theorem Part.withNewCue_cue? {p : Part} (n : NewCue) (zones : List Nat) (h : p.cues.idTaken p.cues.newId = false) :
    (p.withNewCue n zones).cues.cue? p.cues.newId = some (p.newCue n zones) := by
  have hnone : p.cues.pool.find? (·.id == p.cues.newId) = none := by
    rw [List.find?_eq_none]
    intro c hc hid
    have htaken : p.cues.pool.any (·.id == p.cues.newId) = true := List.any_eq_true.mpr ⟨c, hc, hid⟩
    rw [CueSched.idTaken, htaken, Bool.true_or] at h
    cases h
  show (p.cues.pool ++ [p.newCue n zones]).find? (·.id == p.cues.newId) = _
  rw [List.find?_append, hnone, Option.none_or]
  exact List.find?_cons_of_pos (p := fun c : Cue => c.id == p.cues.newId) (beq_self_eq_true _)

theorem Part.poolRoom_of_room {p : Part} {o : CueOrigin} (cls : CueClass) (h : p.cues.quotaFull o = false) :
    p.poolRoom o cls = some p := if_pos (by rw [h]; rfl)

theorem Part.poolRoom_of_full {p : Part} {o : CueOrigin} (cls : CueClass) (h : p.cues.quotaFull o = true) (ho : o ≠ .auto) :
    p.poolRoom o cls = none := by
  rw [Part.poolRoom, if_neg (by rw [h]; exact Bool.false_ne_true), if_neg (by simpa using ho)]

section
variable {p : Part} {n : NewCue} {zones : List Nat} (hz : (n.zones.filter fun z => p.cues.hasRoom z n.cls) = zones)
include hz

theorem Part.place_queueFull (h : zones = []) : p.place n = (p, .queueFull) := by
  unfold Part.place
  dsimp only
  rw [hz, h]
  rfl

theorem Part.place_poolFull (h : zones ≠ []) (hroom : p.poolRoom n.origin n.cls = none) : p.place n = (p, .poolFull) := by
  unfold Part.place
  dsimp only
  rw [hz, if_neg (by simpa using h), hroom]

theorem Part.place_created (h : zones ≠ []) (hroom : p.poolRoom n.origin n.cls = some p) : p.place n =
    ((p.withNewCue n zones).insertCue p.cues.newId n.cls zones, .created p.cues.newId zones) := by
  unfold Part.place
  dsimp only
  rw [hz, if_neg (by simpa using h), hroom]
  rfl

end

end Sys2Proof.Machine
end

section
/-! CUE_POST (R152) and CUE_CANCEL (R166). -/

namespace Sys2Proof.Machine

theorem postMalformed_iff (zones : List Nat) (service : Option Nat) (tokens : List Nat) : postMalformed zones service tokens = true ↔
    zones = [] ∨ tokens = [] ∨ 24 < tokens.length ∨ (∃ t ∈ tokens, 4095 < t) ∨ service = some 0 := by
  simp [postMalformed, or_assoc]

theorem takenClass_eq (l : Link) (cls : CueClass) :
    takenClass l cls = if l = .information ∧ cls.code < 3 then .service else cls := by
  cases l <;> cases cls <;> rfl

theorem cueOriginOf_eq (l : Link) : cueOriginOf l = if l = .control then .control else .information := by
  cases l <;> rfl

theorem cueOriginOf_ne_auto (l : Link) : cueOriginOf l ≠ .auto := by
  cases l <;> decide

/-- What a CUE_POST asks to be placed. -/
def postedCue (l : Link) (cls : CueClass) (zones : List Nat) (service : Option Nat) (tokens : List Nat) : NewCue :=
  { cls := cls, origin := cueOriginOf l, service := service, template := none, input := none, zones := zones, tokens := tokens }

theorem cuePost_bad {l : Link} {code : Nat} {zones : List Nat} {service : Option Nat} {tokens : List Nat} {p : Part}
    (h : classOfCode code = none ∨ postMalformed zones service tokens = true) :
    cuePost l (code, zones, service, tokens) p = .reply p .invalidField [] := by
  unfold cuePost
  dsimp only
  cases hc : classOfCode code with
  | none => rfl
  | some cls => exact if_pos (h.resolve_left (by rw [hc]; exact nofun))

section
variable {l : Link} {code : Nat} {zones : List Nat} {service : Option Nat} {tokens : List Nat} {p : Part} {cls : CueClass}
  (hc : classOfCode code = some cls) (hgood : postMalformed zones service tokens = false)
include hc hgood

theorem cuePost_good : cuePost l (code, zones, service, tokens) p =
    (let opened := zones.filter fun z => zoneOpenTo l (p.zoneMode z)
     if opened.isEmpty then .reply p .notOwner []
     else
       match (p.begin.place (postedCue l (takenClass l cls) opened service tokens)).2 with
       | .queueFull => .reply p .queueFull []
       | .poolFull => .reply p .poolFull []
       | .created id zs => .reply (p.begin.place (postedCue l (takenClass l cls) opened service tokens)).1.finish
           (if takenClass l cls == cls then .ok else .okClamped) (be 2 id ++ be 1 (takenClass l cls).code ++ [byteOfZones zs])) := by
  unfold cuePost
  dsimp only
  rw [hc]
  dsimp only
  rw [if_neg (by rw [hgood]; exact Bool.false_ne_true)]
  rfl

end

/-- What the end of an event leaves of a part that differs from `p` in its cues. -/
theorem Part.finish_of_cues {p q : Part} (h : q.beyondCues = p.begin.beyondCues) : q.finish = q.ended false ∧
    q.finish = { p with table := q.finish.table, cues := q.finish.cues, info := q.finish.info, ctl := q.finish.ctl, ev := noEvent } ∧
    q.finish.table.records.map Record.beyondAnnounced = p.table.records.map Record.beyondAnnounced := by
  have hev : q.ev = p.begin.ev := Part.ev_of_cues h
  have hfinish : q.finish = q.ended false := by
    rw [Part.finish_eq_ended, hev]
    rfl
  have himage : q.finish.image = p.image := by
    rw [hfinish, Part.ended_image, if_neg Bool.false_ne_true]
    exact (Part.image_of_cues h).trans rfl
  refine ⟨hfinish, ?_, ?_⟩
  · have hq := (congrArg (fun x : Part => { x with
        image := q.finish.image, table := q.finish.table, cues := q.finish.cues, info := q.finish.info, ctl := q.finish.ctl,
        ev := noEvent }) h :)
    have hended := q.ended_eq false
    rw [← hfinish] at hended
    refine (hended.trans hq).trans ?_
    rw [himage]
    rfl
  · rw [hfinish, Part.ended_records, Part.table_of_cues h]
    rfl

/-- What a record placed leaves when its event is over. -/
theorem Part.placed_law {p : Part} {n : NewCue} (zones : List Nat) (hfree : p.cues.idTaken p.cues.newId = false) :
    let q := ((p.begin.withNewCue n zones).insertCue p.cues.newId n.cls zones).finish
    (∃ x ∈ q.cues.pool, x.beyondRelease = (p.newCue n zones).beyondRelease) ∧ q.cues.nextArrival = countNext p.cues.nextArrival ∧
      q = { p with table := q.table, cues := q.cues, info := q.info, ctl := q.ctl, ev := noEvent } ∧
      q.table.records.map Record.beyondAnnounced = p.table.records.map Record.beyondAnnounced := by
  intro q
  have hnew := Part.withNewCue_cue? (p := p.begin) n zones hfree
  have hcls : (p.begin.withNewCue n zones).cues.OwnClass p.cues.newId n.cls := by
    intro c hc
    obtain rfl := Option.some.inj (hnew.symm.trans hc)
    rfl
  have hinserted := Part.inserted_insertCue hcls zones
  obtain ⟨hfinish, hframe, hrecords⟩ := Part.finish_of_cues (p := p)
    ((Part.insertCue_beyondCues (p.begin.withNewCue n zones) p.cues.newId n.cls zones).trans rfl)
  refine ⟨?found, ?arrival, hframe, hrecords⟩
  case found =>
    have hmem := hinserted.own.mem (CueSched.cue?_mem hnew).1 rfl
    have hmap : (p.newCue n zones).beyondRelease ∈ q.cues.pool.map Cue.beyondRelease := by
      show _ ∈ (Part.finish _).cues.pool.map _
      rw [hfinish, Part.ended_pool]
      exact List.mem_map.mpr ⟨_, hmem, rfl⟩
    exact List.mem_map.mp hmap
  case arrival =>
    show (Part.finish _).cues.nextArrival = _
    rw [hfinish, Part.ended_sched]
    exact (congrArg CueSched.nextArrival hinserted.frame :)

/-- The fields of a record that its release leaves. -/
theorem Cue.fields_of_beyondRelease {x c : Cue} (h : x.beyondRelease = c.beyondRelease) :
    x.id = c.id ∧ x.cls = c.cls ∧ x.origin = c.origin ∧ x.service = c.service ∧ x.template = c.template ∧ x.input = c.input ∧
      x.tokens = c.tokens ∧ x.zones.map (·.1) = c.zones.map (·.1) ∧ x.arrival = c.arrival ∧ x.created = c.created ∧
      x.replayed = c.replayed := by
  have hzones : (x.zones.map fun z => (z.1, ZoneOutcome.pending)).map (·.1) = (c.zones.map fun z => (z.1, ZoneOutcome.pending)).map (·.1) :=
    congrArg (fun c : Cue => c.zones.map (·.1)) h
  rw [List.map_map, List.map_map] at hzones
  exact ⟨(congrArg Cue.id h :), (congrArg Cue.cls h :), (congrArg Cue.origin h :), (congrArg Cue.service h :),
    (congrArg Cue.template h :), (congrArg Cue.input h :), (congrArg Cue.tokens h :), hzones, (congrArg Cue.arrival h :),
    (congrArg Cue.created h :), (congrArg Cue.replayed h :)⟩

/-! ## CUE_CANCEL (R166) -/

theorem cueCancel_none {l : Link} {id : Nat} {p : Part} (h : p.cues.cue? id = none) : cueCancel l id p = .reply p .notFound [] := by
  rw [cueCancel, h]
  rfl

section
variable {l : Link} {id : Nat} {p : Part} {c : Cue} (hc : p.cues.cue? id = some c)
include hc

theorem cueCancel_foreign (hl : l = .information) (ho : c.origin ≠ .information) : cueCancel l id p = .reply p .notOwner [] := by
  rw [cueCancel, hc]
  exact if_pos (by simp [hl, ho])

theorem cueCancel_queued (hown : ¬(l = .information ∧ c.origin ≠ .information)) (h : c.flight = .queued) :
    cueCancel l id p = .reply ((p.modCues (·.free id)).ended false) .ok [0] := by
  have hlike : (p.begin.modCues (·.free id)).Like (p.modCues (·.free id)) := ⟨_, rfl⟩
  rw [cueCancel, hc]
  dsimp only
  rw [if_neg (by simpa using hown), if_pos (by rw [Cue.isQueued, h]; rfl), hlike.finish rfl]
  rfl

/-- The cancellation of a record in flight, which leaves it STOPPING. -/
theorem cueCancel_flight (hown : ¬(l = .information ∧ c.origin ≠ .information)) (h : c.flight ≠ .queued) {q : Part} {x : Cue}
    (hq : p.begin.cancelFlight c = q.withEv p.begin.ev) (hx : q.cues.cue? id = some x) (hstop : flightCode x.flight = 3) :
    cueCancel l id p = .reply (q.ended false) .ok [3] := by
  have hx' : (q.withEv p.begin.ev).cues.cue? id = some x := hx
  rw [cueCancel, hc]
  dsimp only
  rw [if_neg (by simpa using hown), if_neg (by simpa [Cue.isQueued] using h), hq, hx', (q.like_withEv p.begin.ev).finish rfl]
  exact congrArg (fun b => Answer.reply _ _ [b]) hstop

end

/-- The record that is stopped. -/
theorem Part.stopCue_cue? {p : Part} {id : Nat} {c : Cue} (h : p.cues.cue? id = some c) (why : StopReason) :
    (p.stopCue id why).cues.cue? id = some { c with flight := .stopping why (p.elapsed + 5000) } := by
  exact CueSched.cue?_modCue_same (q := { p.cues with
    zones := p.cues.zones.map fun st => if st == ZoneState.playing id then .stopping id else st })
    (f := fun c => { c with flight := .stopping why (p.elapsed + 5000) }) (fun _ => rfl) h

/-- Settles O48: CUE_POST and CUE_CANCEL. -/
theorem cuePostAndCancel : Obligations.CuePostAndCancel := by
  unfold Obligations.CuePostAndCancel
  refine ⟨?post, ?cancel⟩
  case post =>
    intro s rq code zones service tokens he hr bad origin opened
    have hreply {q r body} (h : cuePost rq.link (code, zones, service, tokens) s.part = .reply q r body) :=
      answers_of_reply (c := .cuePost rq) rfl he hr h
    have hopened : opened = zones.filter fun z => zoneOpenTo rq.link (s.part.zoneMode z) := by
      refine List.filter_congr fun z _ => ?_
      cases rq.link <;> rfl
    refine ⟨fun h => hreply (cuePost_bad ?_), ?good⟩
    · rwa [postMalformed_iff]
    intro cls hcls hgood taken placed
    have hgood : postMalformed zones service tokens = false := by
      rw [← Bool.not_eq_true, postMalformed_iff]
      exact fun h => hgood (.inr h)
    have htaken : takenClass rq.link cls = taken := takenClass_eq _ _
    have hpost := cuePost_good (l := rq.link) (p := s.part) hcls hgood
    rw [← hopened, htaken] at hpost
    have hplaced : ((postedCue rq.link taken opened service tokens).zones.filter fun z =>
        s.part.begin.cues.hasRoom z (postedCue rq.link taken opened service tokens).cls) = placed := rfl
    have hne : placed ≠ [] → opened ≠ [] := by
      intro h hnone
      exact h (by rw [show placed = opened.filter _ from rfl, hnone]; rfl)
    have horigin : (postedCue rq.link taken opened service tokens).origin = origin := cueOriginOf_eq _
    refine ⟨fun h => ?closed, fun h h' => ?queueFull, fun h h' => ?poolFull, fun h h' h1 h2 hid => ?created⟩
    case closed => exact hreply (hpost.trans (if_pos (by rw [h]; rfl)))
    case queueFull =>
      refine hreply (hpost.trans ((if_neg (by simpa using h)).trans ?_))
      rw [Part.place_queueFull hplaced h']
    case poolFull =>
      refine hreply (hpost.trans ((if_neg (by simpa using hne h)).trans ?_))
      rw [Part.place_poolFull hplaced h (Part.poolRoom_of_full _ (by rw [horigin]; exact h') (cueOriginOf_ne_auto _))]
    case created =>
      have hfree := CueSched.newId_of_free h1 h2 hid
      obtain ⟨⟨x, hx, hfields⟩, harrival, hframe, hrecords⟩ :=
        Part.placed_law (p := s.part) (n := postedCue rq.link taken opened service tokens) placed hfree
      obtain ⟨hxid, hxcls, hxorigin, hxservice, hxtemplate, hxinput, hxtokens, hxzones, hxarrival, hxcreated, hxreplayed⟩ :=
        Cue.fields_of_beyondRelease hfields
      refine ⟨_, x, hreply (hpost.trans ((if_neg (by simpa using hne h)).trans ?_)), hx, hxcls, hxorigin.trans horigin, hxservice,
        hxtemplate, hxinput, hxtokens, hxzones.trans ?_, hxarrival, hxcreated, hxreplayed, fun hn => hxid.trans (CueSched.newId_next hn),
        harrival, hframe, hrecords⟩
      · rw [Part.place_created hplaced h (Part.poolRoom_of_room _ (by rw [horigin]; exact h')), hxid]
        have hresult : (if (taken == cls) = true then Result.ok else .okClamped) = if taken = cls then .ok else .okClamped := by
          simp only [beq_iff_eq]
        rw [hresult]
        rfl
      · show (placed.map fun z => (z, ZoneOutcome.pending)).map (·.1) = placed
        rw [List.map_map]
        exact List.map_id _
  case cancel =>
    intro s rq id he hb hid
    have hreply {q r body} (h : cueCancel rq.link id s.part = .reply q r body) :=
      answers_of_reply (c := .cueCancel rq) rfl he (hb ▸ readOne_word hid) h
    refine ⟨fun h => hreply (cueCancel_none h), fun c hc => ⟨fun hl ho => hreply (cueCancel_foreign hc hl ho), fun hown => ?_⟩⟩
    have hown : ¬(rq.link = .information ∧ c.origin ≠ .information) := by
      rintro ⟨hl, ho⟩
      rcases hown with h | h
      · rw [hl] at h
        cases h
      · exact ho h
    refine ⟨fun h => ?queued, fun h => ?flying, fun t h => ?preempted, fun t h => ?stopping⟩
    case queued => exact hreply (cueCancel_queued hc hown h)
    case flying =>
      obtain ⟨t, h⟩ := h
      have hnot : c.flight ≠ .queued := by
        intro hq
        rw [hq] at h
        simp at h
      refine hreply (cueCancel_flight hc hown hnot (q := s.part.stopCue id .cancellation) ?_ (Part.stopCue_cue? hc _) rfl)
      obtain ⟨-, rfl⟩ := CueSched.cue?_mem hc
      unfold Part.cancelFlight
      rcases h with h | h
      · rw [h]
        rfl
      · rw [h]
        rfl
    case preempted =>
      have hx := CueSched.cue?_modCue_same (f := fun x => { x with flight := .stopping .cancellation t }) (fun _ => rfl) hc
      refine hreply (cueCancel_flight hc hown (by rw [h]; exact nofun) (q := s.part.modCues (·.modCue id fun x =>
        { x with flight := .stopping .cancellation t })) ?_ hx rfl)
      obtain ⟨-, rfl⟩ := CueSched.cue?_mem hc
      unfold Part.cancelFlight
      rw [h]
      rfl
    case stopping =>
      refine hreply (cueCancel_flight hc hown (by rcases h with h | h <;> rw [h] <;> exact nofun) (q := s.part) ?_ hc ?_)
      · unfold Part.cancelFlight
        rcases h with h | h
        · rw [h]
          rfl
        · rw [h]
          rfl
      · rcases h with h | h
        · rw [h]
          rfl
        · rw [h]
          rfl

end Sys2Proof.Machine
end

section
/-! The waits and timers of the Cue Scheduler (R155, R159, R163, R164, R167, R169). -/

namespace Sys2Proof.Machine

/-- The part that a command leaves is what its operation makes of the part. -/
theorem Leaves.part_eq {c : Instr} {s : State} {p : Part} (h : Leaves c s p) (f : Part → Part) (hc : exec c s = act f s)
    (hp : s.part.powered = true) : f s.part = p := by
  rw [Leaves, hc, act_powered f s hp] at h
  injection h with h
  exact congrArg State.part h

/-! ## The loss of the announcer (R163) -/

theorem Part.foldl_failCue_cues (ids : List Nat) (p : Part) :
    (ids.foldl Part.failCue p).cues = { p.cues with
      pool := p.cues.pool.filter fun c => !ids.contains c.id, queues := (ids.foldl Part.failCue p).cues.queues
      zones := (ids.foldl Part.failCue p).cues.zones } ∧ (ids.foldl Part.failCue p).cues.zones.length = p.cues.zones.length := by
  induction ids generalizing p with
  | nil => simp
  | cons id ids ih =>
    obtain ⟨hcues, hlen⟩ := ih (p.failCue id)
    have hpool : (p.failCue id).cues.pool.filter (fun c => !ids.contains c.id) =
        p.cues.pool.filter fun c => !(id :: ids).contains c.id := by
      show (p.cues.pool.filter (·.id != id)).filter _ = _
      rw [List.filter_filter]
      refine List.filter_congr fun c _ => ?_
      rw [List.contains_cons, Bool.not_or, Bool.and_comm]
      rfl
    rw [List.foldl_cons]
    refine ⟨?_, hlen.trans (List.length_map _)⟩
    rw [hcues, ← hpool]
    rfl

theorem Part.foldl_failCue_beyondCues (ids : List Nat) (p : Part) : (ids.foldl Part.failCue p).beyondCues = p.beyondCues :=
  foldl_keeps Part.beyondCues Part.failCue (fun _ _ => rfl) ids p

/-- Failing some records latches CUE_FAILED, and latches it when there is one. -/
theorem Part.foldl_failCue_port (ids : List Nat) (p : Part) (l : Link) :
    ((ids.foldl Part.failCue p).port l).isLatched .cueFailed = ((p.port l).isLatched .cueFailed || !ids.isEmpty) ∧
      ((ids.foldl Part.failCue p).port l).subjects.length = (p.port l).subjects.length := by
  induction ids generalizing p with
  | nil => simp
  | cons id ids ih =>
    obtain ⟨hflag, hlen⟩ := ih (p.failCue id)
    have hport : (p.failCue id).port l = (p.port l).latch .cueFailed (BitVec.ofNat 16 id) := by cases l <;> rfl
    rw [List.foldl_cons]
    refine ⟨?_, hlen.trans ?_⟩
    · rw [hflag, hport, Port.latch_isLatched_same]
      simp
    · rw [hport]
      exact updateAt_length _ _ _

/-- The records in flight, by ascending id. -/
def CueSched.flightIds (q : CueSched) : List Nat := (sortBy (fun a b => a.id < b.id) (q.pool.filter (!·.isQueued))).map (·.id)

theorem CueSched.mem_flightIds {q : CueSched} {n : Nat} : n ∈ q.flightIds ↔ ∃ c ∈ q.pool, c.isQueued = false ∧ c.id = n := by
  simp [CueSched.flightIds, mem_sortBy, and_assoc]

theorem CueSched.flightIds_isEmpty (q : CueSched) : (!q.flightIds.isEmpty) = q.pool.any (!·.isQueued) := by
  rw [Bool.eq_iff_iff, List.any_eq_true]
  refine ⟨fun h => ?_, fun ⟨c, hc, hq⟩ => ?_⟩
  · cases hids : q.flightIds with
    | nil => rw [hids] at h; cases h
    | cons n ids =>
      obtain ⟨c, hc, hq, -⟩ := CueSched.mem_flightIds.mp (hids ▸ List.mem_cons_self : n ∈ q.flightIds)
      exact ⟨c, hc, by rw [hq]; rfl⟩
  · have hmem : c.id ∈ q.flightIds := CueSched.mem_flightIds.mpr ⟨c, hc, by simpa using hq, rfl⟩
    cases hids : q.flightIds with
    | nil => rw [hids] at hmem; cases hmem
    | cons n ids => rfl

/-- With unique ids the records in flight are those whose id is one of a record in flight. -/
theorem CueSched.filter_flightIds {q : CueSched} (h : (q.pool.map (·.id)).Nodup) :
    (q.pool.filter fun c => !q.flightIds.contains c.id) = q.pool.filter (·.isQueued) := by
  refine List.filter_congr fun c hc => ?_
  have hmem : c.id ∈ q.flightIds ↔ c.isQueued = false := by
    rw [CueSched.mem_flightIds]
    refine ⟨?_, fun hq => ⟨c, hc, hq, rfl⟩⟩
    rintro ⟨d, hd, hq, hid⟩
    have hinj := (List.nodup_map_iff_inj_on (List.Nodup.of_map _ h)).1 h
    exact hinj d hd c hc hid ▸ hq
  rw [Bool.eq_iff_iff, Bool.not_eq_true', ← Bool.not_eq_true, List.contains_iff_mem, hmem, Bool.not_eq_false]

theorem Part.loseAnnouncer_eq (p : Part) : p.loseAnnouncer =
    (((p.cues.flightIds.foldl Part.failCue p).modCues fun q =>
      { q with zones := q.zones.map fun _ => .idle, silence := 0, announcer := .lost }).latchNat .announcerLost 0) := rfl

theorem map_const_of_length {α β : Type} {l m : List α} (h : l.length = m.length) (b : β) : (l.map fun _ => b) = m.map fun _ => b := by
  rw [List.map_const', List.map_const', h]

/-- The loss of the announcer. -/
theorem Part.loseAnnouncer_law {p : Part} (h : (p.cues.pool.map (·.id)).Nodup) :
    let q := p.loseAnnouncer
    q.cues.announcer = .lost ∧ q.cues.silence = 0 ∧ q.cues.zones = p.cues.zones.map (fun _ => .idle) ∧
    q.cues.pool = p.cues.pool.filter (·.isQueued) ∧
    (∀ l, (q.port l).isLatched .announcerLost = true ∧
      ((q.port l).isLatched .cueFailed = ((p.port l).isLatched .cueFailed || p.cues.pool.any (!·.isQueued)))) ∧
    q = { p with cues := q.cues, info := q.info, ctl := q.ctl } := by
  intro q
  obtain ⟨hcues, hlen⟩ := Part.foldl_failCue_cues p.cues.flightIds p
  refine ⟨rfl, rfl, map_const_of_length hlen _, ?_, fun l => ⟨?_, ?_⟩, ?_⟩
  · exact (congrArg CueSched.pool hcues :).trans (CueSched.filter_flightIds h)
  · have hport : q.port l = ((((p.cues.flightIds.foldl Part.failCue p).modCues fun q =>
        { q with zones := q.zones.map fun _ => .idle, silence := 0, announcer := .lost }).port l).latch .announcerLost 0) :=
      Part.latch_port _ _ _ l
    rw [hport, Port.latch_isLatched_same]
  · have hport : q.port l = ((p.cues.flightIds.foldl Part.failCue p).port l).latch .announcerLost 0 := by cases l <;> rfl
    rw [hport, Port.latch_isLatched_other _ _ (by decide), (Part.foldl_failCue_port _ _ l).1, CueSched.flightIds_isEmpty]
  · have hframe := Part.foldl_failCue_beyondCues p.cues.flightIds p
    exact (congrArg (fun x : Part => { x with cues := q.cues, info := q.info, ctl := q.ctl }) hframe :)

theorem Part.bumpSilence_counts {p : Part} (h : p.cues.silence < 2 ∨ p.cues.announcer = .lost) :
    p.bumpSilence = { p with cues := { p.cues with silence := min 3 (p.cues.silence + 1) } } := by
  refine if_neg ?_
  rw [Bool.and_eq_true, beq_iff_eq, beq_iff_eq]
  rintro ⟨hn, hup⟩
  have hup : p.cues.announcer = .up := hup
  rcases h with h | h
  · omega
  · rw [hup] at h
    cases h

theorem Part.bumpSilence_loses {p : Part} (h : 2 ≤ p.cues.silence) (hup : p.cues.announcer = .up) :
    p.bumpSilence = (p.modCues fun q => { q with silence := min 3 (p.cues.silence + 1) }).loseAnnouncer := by
  refine if_pos ?_
  rw [Bool.and_eq_true, beq_iff_eq, beq_iff_eq]
  exact ⟨by omega, hup⟩

/-! ## Blindness to the marks of the event -/

theorem Part.loseAnnouncer_withEv (p : Part) (e : Event) : (p.withEv e).loseAnnouncer = (p.loseAnnouncer).withEv e := by
  rw [Part.loseAnnouncer_eq, Part.loseAnnouncer_eq]
  have hfold := foldl_withEv (f := Part.failCue) (fun _ _ _ => rfl) p.cues.flightIds p e
  have hcues : (p.withEv e).cues = p.cues := rfl
  rw [hcues, hfold]
  rfl

/-- A wait that ends by its limit, in one expression. -/
theorem Part.bumpSilence_eq (p : Part) : p.bumpSilence =
    if (min 3 (p.cues.silence + 1) == 3 && p.cues.announcer == .up) = true then
      (p.modCues fun q => { q with silence := min 3 (p.cues.silence + 1) }).loseAnnouncer
    else p.modCues fun q => { q with silence := min 3 (p.cues.silence + 1) } := rfl

theorem eventBlind_bumpSilence : EventBlind Part.bumpSilence := EventBlind.of_withEv fun p e => by
  have hcues : (p.withEv e).cues = p.cues := rfl
  rw [Part.bumpSilence_eq, Part.bumpSilence_eq, hcues]
  split
  · exact (p.modCues fun q => { q with silence := min 3 (p.cues.silence + 1) }).loseAnnouncer_withEv e
  · rfl

/-- The end of an event in which a wait has ended, for a part that differs in its marks. -/
theorem Part.Like.bump_finish {p q : Part} (h : p.Like q) (ht : p.ev.wallTold = false) :
    p.bumpSilence.finish = q.bumpSilence.ended false :=
  (eventBlind_bumpSilence _ _ h).finish (by rw [Part.ev_of_cues p.bumpSilence_beyondCues, ht])

/-! ## The waits -/

section
variable {p : Part} {id : Nat} {c : Cue} (hc : p.cues.cue? id = some c)
include hc

theorem Part.cueAgeOut_eq {limit : Nat} (hf : c.flight = .queued) (hl : p.ageLimit c.cls = some limit) : p.cueAgeOut id =
    (((p.advanceTo (c.created + limit)).modCues (·.free id)).latchNat .cueDropped id).ended false := by
  have ht : p.ageOutAt c = some (c.created + limit) := by rw [Part.ageOutAt, if_pos (show c.isQueued = true from beq_iff_eq.mpr hf), hl]; rfl
  have hlike : ((p.advanceTo (c.created + limit)).begin.dropCue id).Like
    (((p.advanceTo (c.created + limit)).modCues (·.free id)).latchNat .cueDropped id) := ⟨_, rfl⟩
  rw [Part.cueAgeOut, hc, Option.bind_some, ht]
  exact hlike.finish rfl

theorem Part.acceptWaitExpiry_eq {t : Nat} (hf : c.flight = .sent t) : p.acceptWaitExpiry id =
    ((((p.advanceTo t).modCues fun q => (q.idleZonesOf id).free id).latchNat .cueFailed id).bumpSilence).ended false := by
  have hlike : ((p.advanceTo t).begin.failCue id).Like
    (((p.advanceTo t).modCues fun q => (q.idleZonesOf id).free id).latchNat .cueFailed id) := ⟨_, rfl⟩
  rw [Part.acceptWaitExpiry, hc, Option.map_some, hf]
  exact hlike.bump_finish rfl

theorem Part.endedWaitExpiry_eq {t : Nat} (hf : c.flight = .accepted t) : p.endedWaitExpiry id =
    (((((p.advanceTo t).modCues (·.modCue id (·.setOutcome (p.cues.playingZones id).contains .failed))).stopCue id .timeout).latchNat
      .cueFailed id).bumpSilence).ended false := by
  have hlike : ((((p.advanceTo t).begin.modCues (·.modCue id (·.setOutcome (p.cues.playingZones id).contains .failed))).stopCue id
      .timeout).latchNat .cueFailed id).Like
    ((((p.advanceTo t).modCues (·.modCue id (·.setOutcome (p.cues.playingZones id).contains .failed))).stopCue id .timeout).latchNat
      .cueFailed id) := ⟨_, rfl⟩
  rw [Part.endedWaitExpiry, hc, Option.map_some, hf]
  exact hlike.bump_finish rfl

theorem Part.stopWaitExpiry_eq {why : StopReason} {t : Nat} (hf : c.flight = .stopping why t) : p.stopWaitExpiry id =
    (let freed := (p.advanceTo t).modCues fun q => (q.idleZonesOf id).free id
     ((if c.pendingZones = [] then freed else freed.latchNat .cueFailed id).bumpSilence).ended false) := by
  rw [Part.stopWaitExpiry, hc]
  dsimp only
  rw [hf]
  dsimp only
  by_cases h : c.pendingZones = []
  · rw [if_pos h, if_pos (List.isEmpty_iff.mpr h)]
    exact Part.Like.bump_finish ⟨_, rfl⟩ rfl
  · rw [if_neg h, if_neg (mt List.isEmpty_iff.mp h)]
    exact Part.Like.bump_finish ⟨_, rfl⟩ rfl

end

theorem Part.probeWaitExpiry_eq {p : Part} {t : Nat} (h : p.cues.probeWait = some t) : p.probeWaitExpiry =
    (((p.advanceTo t).modCues fun q => { q with probeWait := none }).bumpSilence).ended false := by
  rw [Part.probeWaitExpiry, h]
  exact Part.Like.bump_finish ⟨_, rfl⟩ rfl

theorem Part.probeLapse_of_not {p : Part} (h : ∀ t, ¬(p.cues.probeWait = some t ∧ t ≤ max p.elapsed p.cues.probeAt)) :
    p.probeLapse = p := by
  refine if_neg fun hany => ?_
  cases hw : p.cues.probeWait with
  | none =>
    rw [hw] at hany
    cases hany
  | some t =>
    rw [hw] at hany
    exact h t ⟨hw, of_decide_eq_true hany⟩

theorem Part.probeLapse_of {p : Part} {t : Nat} (h : p.cues.probeWait = some t) (hle : t ≤ max p.elapsed p.cues.probeAt) :
    p.probeLapse = p.probeWaitExpiry := if_pos (by rw [h]; exact decide_eq_true hle)

/-- What is left once an input's cue has been made anew: its repeat timer starts again. -/
theorem Part.repeatDue_eq {p : Part} {i t : Nat} (h : p.cues.repeats[i]? = some (some t)) : p.repeatDue i =
    (let q := ((p.advanceTo t).removeQueued fun c => c.input == some (i + 1)).makeInputCue i
     (q.setRepeat i (if (p.inputConfig i).interval = 0 then none else some (max p.elapsed t + (p.inputConfig i).interval))).ended
       false) := by
  have hframe (q : Part) : (((q.removeQueued fun c => c.input == some (i + 1)).makeInputCue i).beyondCues) = q.beyondCues :=
    Part.placeOrDrop_beyondCues _ _
  have hrestart (q : Part) (hq : q.beyondCues = (p.advanceTo t).begin.beyondCues) : q.startRepeat i =
      q.setRepeat i (if (p.inputConfig i).interval = 0 then none else some (max p.elapsed t + (p.inputConfig i).interval)) := by
    have hcfg : q.inputConfig i = p.inputConfig i := congrArg (fun st : Store => inputConfigIn st.working i)
      ((Part.store_of_cues hq).trans rfl)
    have helapsed : q.elapsed = max p.elapsed t := Part.elapsed_of_cues hq
    rw [Part.startRepeat, hcfg, helapsed]
    simp only [beq_iff_eq]
  have hget : p.cues.repeats.getD i none = some t := by rw [List.getD_eq_getElem?_getD, h]; rfl
  rw [Part.repeatDue, hget]
  dsimp only
  rw [Part.inputRepeat, Part.removeInputQueued, hrestart _ (hframe _)]
  have hmade (e : Event) : (((p.advanceTo t).withEv e).removeQueued fun c => c.input == some (i + 1)).makeInputCue i =
      (((p.advanceTo t).removeQueued fun c => c.input == some (i + 1)).makeInputCue i).withEv e :=
    Part.placeOrDrop_withEv ((p.advanceTo t).removeQueued fun c => c.input == some (i + 1)) e _
  refine Part.Like.finish (told := false) ⟨(p.advanceTo t).begin.ev, ?_⟩ ?_
  · exact congrArg (Part.setRepeat · i _) (hmade (p.advanceTo t).begin.ev)
  · exact (congrArg Event.wallTold (Part.ev_of_cues (hframe (p.advanceTo t).begin)))

/-- Settles O50: the silence count, the waits and the timers. -/
theorem cueWaitsAndTimersRunOut : Obligations.CueWaitsAndTimersRunOut := by
  unfold Obligations.CueWaitsAndTimersRunOut
  refine ⟨fun p => ⟨Part.bumpSilence_counts, fun h hup hnodup => ?loses⟩, ?waits⟩
  case loses =>
    have hlaw := Part.loseAnnouncer_law (p := p.modCues fun q => { q with silence := min 3 (p.cues.silence + 1) }) hnodup
    rw [Part.bumpSilence_loses h hup]
    obtain ⟨hlost, hsilence, hzones, hpool, hports, hframe⟩ := hlaw
    have hport (l : Link) : (p.modCues fun q => { q with silence := min 3 (p.cues.silence + 1) }).port l = p.port l := by
      cases l <;> rfl
    refine ⟨hlost, hsilence, hzones, hpool, fun l => ?_, hframe⟩
    have h := hports l
    rwa [hport] at h
  case waits =>
    intro s hp
    refine ⟨?records, ?probeWait, ?probe, ?reserved, ?repeats⟩
    case records =>
      intro id c hc
      refine ⟨fun limit hf hl => ?_, fun t hf => ?_, fun t hf => ?_, fun why t hf => ?_⟩
      · exact leaves_act (·.cueAgeOut id) rfl hp (Part.cueAgeOut_eq hc hf hl)
      · exact leaves_act (·.acceptWaitExpiry id) rfl hp (Part.acceptWaitExpiry_eq hc hf)
      · exact leaves_act (·.endedWaitExpiry id) rfl hp (Part.endedWaitExpiry_eq hc hf)
      · exact leaves_act (·.stopWaitExpiry id) rfl hp (Part.stopWaitExpiry_eq hc hf)
    case probeWait =>
      intro t ht
      exact leaves_act Part.probeWaitExpiry rfl hp (Part.probeWaitExpiry_eq ht)
    case probe =>
      intro sends lapses
      refine ⟨fun h => ?_, fun t u h hu => ?_⟩
      · refine leaves_act Part.probe rfl hp ?_
        rw [Part.probe, Part.probeLapse_of_not h]
        rfl
      · have hu : s.part.probeWaitExpiry = u := hu.part_eq Part.probeWaitExpiry rfl hp
        refine leaves_act Part.probe rfl hp ?_
        rw [Part.probe, Part.probeLapse_of h.1 h.2, hu]
        rfl
    case reserved =>
      intro id t h p
      refine leaves_act (·.reservedRelease id) rfl hp ?_
      show s.part.reservedRelease id = _
      rw [Part.reservedRelease, h]
      rfl
    case repeats =>
      intro i t h
      exact leaves_act (·.repeatDue i) rfl hp (Part.repeatDue_eq h)

end Sys2Proof.Machine
end

section
/-! A reference put into the queues of some zones that have room (R153). -/

namespace Sys2Proof.Machine

/-! ## The queues -/

theorem CueSched.queue_mem {q : CueSched} {z w : Nat} (h : w ∈ q.queue z) : q.queue z ∈ q.queues := by
  unfold CueSched.queue at h ⊢
  rw [List.getD_eq_getElem?_getD] at h ⊢
  cases hq : q.queues[z - 1]? with
  | none =>
    rw [hq] at h
    cases h
  | some l => exact List.mem_of_getElem? hq

theorem CueSched.queue_length {q : CueSched} (hok : q.ok) (z : Nat) : (q.queue z).length ≤ 6 := by
  obtain ⟨-, -, -, -, hqueues⟩ := hok
  cases hq : q.queue z with
  | nil => exact Nat.zero_le _
  | cons w l =>
    rw [← hq]
    exact hqueues _ (CueSched.queue_mem (w := w) (hq ▸ List.mem_cons_self))

/-- The reference `v` taken out of the queue of zone `z`. -/
def CueSched.unqueue (q : CueSched) (v z : Nat) : CueSched :=
  { q with queues := updateAt q.queues (z - 1) fun (l : List Nat) => l.filter (· != v) }

/-- What a victim's loss of its reference leaves: the scheduler without it, the record freed when it has no other. -/
theorem Part.dropReference_cues (p : Part) (v z : Nat) : (p.dropReference v z).cues =
    (let q := (p.cues.unqueue v z).modCue v (·.setOutcome (· == z) .dropped)
     if q.queues.any (·.contains v) then q else q.free v) := rfl

/-- Freeing a record that is in no queue leaves the queues. -/
theorem CueSched.free_queues {q : CueSched} {v : Nat} (h : ¬q.queues.any (·.contains v) = true) : (q.free v).queues = q.queues := by
  refine (List.map_congr_left fun l hl => ?_).trans (List.map_id _)
  refine List.filter_eq_self.mpr fun w hw => ?_
  rw [bne_iff_ne]
  rintro rfl
  exact h (List.any_eq_true.mpr ⟨l, hl, List.contains_iff_mem.mpr hw⟩)

theorem Part.dropReference_queues (p : Part) (v z : Nat) : (p.dropReference v z).cues.queues = (p.cues.unqueue v z).queues := by
  rw [Part.dropReference_cues]
  dsimp only
  split
  · rfl
  · next h => exact CueSched.free_queues h

/-- The class of a record that is in some queue. -/
def CueSched.classOf (q : CueSched) (id : Nat) : Option CueClass := (q.cue? id).map (·.cls)

theorem CueSched.classOf_modCue {q : CueSched} {v : Nat} {f : Cue → Cue} (hid : ∀ c, (f c).id = c.id) (hcls : ∀ c, (f c).cls = c.cls)
    (w : Nat) : (q.modCue v f).classOf w = q.classOf w := by
  unfold CueSched.classOf
  rw [CueSched.cue?_modCue hid, Option.map_map]
  congr 1
  funext c
  simp only [Function.comp]
  split
  · exact hcls c
  · rfl

theorem Part.dropReference_classOf (p : Part) (v z : Nat) {w : Nat} {l : List Nat} (hl : l ∈ (p.dropReference v z).cues.queues)
    (hw : w ∈ l) : (p.dropReference v z).cues.classOf w = p.cues.classOf w := by
  have hmod : ((p.cues.unqueue v z).modCue v (·.setOutcome (· == z) .dropped)).classOf w = p.cues.classOf w :=
    CueSched.classOf_modCue (q := p.cues.unqueue v z) (f := (·.setOutcome (· == z) .dropped)) (fun _ => rfl) (fun _ => rfl) w
  rw [Part.dropReference_queues] at hl
  rw [Part.dropReference_cues]
  dsimp only
  split
  · exact hmod
  · next h =>
    have hne : v ≠ w := by
      rintro rfl
      exact h (List.any_eq_true.mpr ⟨l, hl, List.contains_iff_mem.mpr hw⟩)
    rw [← hmod]
    unfold CueSched.classOf
    rw [(CueSched.sameOwn_free _ hne).cue?]

/-- A queue's room depends on the queue and on the class of the record at its end. -/
theorem CueSched.hasRoom_congr {q r : CueSched} {z : Nat} (hqueue : r.queue z = q.queue z)
    (hclass : ∀ w ∈ q.queue z, r.classOf w = q.classOf w) (cls : CueClass) : r.hasRoom z cls = q.hasRoom z cls := by
  have hisSome (q : CueSched) : (q.zoneVictim z cls).isSome =
      (q.queue z).getLast?.any fun w => (q.classOf w).any fun d => decide (cls.code < d.code) := by
    unfold CueSched.zoneVictim CueSched.classOf
    cases (q.queue z).getLast? with
    | none => rfl
    | some w =>
      dsimp only [Option.bind_some, Option.any_some]
      cases q.cue? w with
      | none => rfl
      | some c =>
        dsimp only [Option.map_some, Option.any_some]
        split
        · next h => rw [decide_eq_true h]; rfl
        · next h => rw [decide_eq_false h]; rfl
  have hlast : (q.queue z).getLast?.any (fun w => (r.classOf w).any fun d => decide (cls.code < d.code)) =
      (q.queue z).getLast?.any fun w => (q.classOf w).any fun d => decide (cls.code < d.code) := by
    cases hl : (q.queue z).getLast? with
    | none => rfl
    | some w =>
      rw [Option.any_some, Option.any_some, hclass w (List.mem_of_getLast? hl)]
  rw [CueSched.hasRoom, CueSched.hasRoom, hisSome, hisSome, hqueue, hlast]

/-! ## One reference -/

/-- The part in which zone `z` has room for one more reference. -/
def Part.roomMade (p : Part) (cls : CueClass) (z : Nat) : Part :=
  if (p.cues.queue z).length < 6 then p
  else
    match p.cues.zoneVictim z cls with
    | some v => p.dropReference v z
    | none => p

theorem Part.insertReference_eq (p : Part) (id : Nat) (cls : CueClass) (z : Nat) : p.insertReference id cls z =
    if ((p.roomMade cls z).cues.queue z).length < 6 then (p.roomMade cls z).modCues fun q =>
      { q with queues := updateAt q.queues (z - 1) (insertBy q.refBefore id) } else p.roomMade cls z := rfl

theorem CueSched.unqueue_queue_same {q : CueSched} (v : Nat) {z : Nat} (hz : z - 1 < q.queues.length) :
    (q.unqueue v z).queue z = (q.queue z).filter (· != v) := updateAt_getD_same _ _ _ _ hz

theorem CueSched.unqueue_queue_other (q : CueSched) (v : Nat) {z y : Nat} (h1 : 1 ≤ z) (h2 : 1 ≤ y) (h : y ≠ z) :
    (q.unqueue v z).queue y = q.queue y := updateAt_getD_other _ _ _ _ _ (by omega)

section
variable {p : Part} {cls : CueClass} {z : Nat} (hok : p.cues.ok) (hz1 : 1 ≤ z) (hz : z - 1 < p.cues.queues.length)
  (hroom : p.cues.hasRoom z cls = true)
include hok hz1 hz hroom

/-- Making room: the queue of the zone is short, the other queues and the classes are as they were. -/
theorem Part.roomMade_law : ((p.roomMade cls z).cues.queue z).length < 6 ∧
    (∀ y, 1 ≤ y → y ≠ z → (p.roomMade cls z).cues.queue y = p.cues.queue y) ∧
    (p.roomMade cls z).cues.queues.length = p.cues.queues.length ∧
    (∀ l ∈ (p.roomMade cls z).cues.queues, ∀ w ∈ l, (p.roomMade cls z).cues.classOf w = p.cues.classOf w) ∧
    (p.roomMade cls z).cues.zones = p.cues.zones := by
  unfold Part.roomMade
  split
  · next hlt => exact ⟨hlt, fun _ _ _ => rfl, rfl, fun _ _ _ _ => rfl, rfl⟩
  · next hfull =>
    rw [CueSched.hasRoom, Bool.or_eq_true, decide_eq_true_eq] at hroom
    obtain ⟨v, hv⟩ := Option.isSome_iff_exists.mp (hroom.resolve_left hfull)
    rw [hv]
    dsimp only
    have hqueue (y : Nat) : (p.dropReference v z).cues.queue y = (p.cues.unqueue v z).queue y := by
      unfold CueSched.queue
      rw [Part.dropReference_queues]
    refine ⟨?_, fun y hy hne => ?_, ?_, fun l hl w hw => Part.dropReference_classOf p v z hl hw, ?_⟩
    · rw [hqueue, CueSched.unqueue_queue_same v hz]
      have hlast := (CueSched.zoneVictim_some hv).1
      have hlt : ((p.cues.queue z).filter (· != v)).length < (p.cues.queue z).length :=
        List.length_filter_lt_length_iff_exists.mpr ⟨v, List.mem_of_getLast? hlast, by simp⟩
      have hle := CueSched.queue_length hok z
      omega
    · rw [hqueue, CueSched.unqueue_queue_other _ _ hz1 hy hne]
    · rw [Part.dropReference_queues]
      exact updateAt_length _ _ _
    · rw [Part.dropReference_cues]
      dsimp only
      split <;> rfl

/-- One reference put into a queue with room. -/
theorem Part.insertReference_law (id : Nat) : let q := (p.insertReference id cls z).cues
    id ∈ q.queue z ∧ (∀ y, 1 ≤ y → y ≠ z → q.queue y = p.cues.queue y ∧ (∀ cls, q.hasRoom y cls = p.cues.hasRoom y cls)) ∧
      q.queues.length = p.cues.queues.length ∧ q.zones = p.cues.zones := by
  intro q
  obtain ⟨hlt, hothers, hlen, hclass, hzones⟩ := Part.roomMade_law hok hz1 hz hroom
  have hq : q = { (p.roomMade cls z).cues with
      queues := updateAt (p.roomMade cls z).cues.queues (z - 1) (insertBy (p.roomMade cls z).cues.refBefore id) } := by
    show (p.insertReference id cls z).cues = _
    rw [Part.insertReference_eq, if_pos hlt]
    rfl
  rw [hq]
  have hother (y : Nat) (hy : 1 ≤ y) (hne : y ≠ z) : ({ (p.roomMade cls z).cues with
      queues := updateAt (p.roomMade cls z).cues.queues (z - 1) (insertBy (p.roomMade cls z).cues.refBefore id) } : CueSched).queue y =
      p.cues.queue y := (updateAt_getD_other _ _ _ _ _ (by omega)).trans (hothers y hy hne)
  refine ⟨?_, fun y hy hne => ⟨hother y hy hne, fun cls' => CueSched.hasRoom_congr (hother y hy hne) (fun w hw => ?_) cls'⟩,
    (updateAt_length _ _ _).trans hlen, hzones⟩
  · have hsame : ({ (p.roomMade cls z).cues with
        queues := updateAt (p.roomMade cls z).cues.queues (z - 1) (insertBy (p.roomMade cls z).cues.refBefore id) } : CueSched).queue z =
        insertBy (p.roomMade cls z).cues.refBefore id ((p.roomMade cls z).cues.queue z) :=
      updateAt_getD_same _ _ _ _ (hlen.symm ▸ hz)
    rw [hsame, mem_insertBy]
    exact .inl rfl
  · have hmem : w ∈ (p.roomMade cls z).cues.queue y := (hothers y hy hne).symm ▸ hw
    exact hclass _ (CueSched.queue_mem hmem) w hmem

end

/-! ## Several references -/

theorem Part.insertReferences_law {id : Nat} {cls : CueClass} (zones : List Nat) {p : Part} (hok : p.cues.ok) (hnodup : zones.Nodup)
    (hz : ∀ z ∈ zones, 1 ≤ z ∧ z - 1 < p.cues.queues.length ∧ p.cues.hasRoom z cls = true) :
    let q := (zones.foldl (fun p z => p.insertReference id cls z) p).cues
    (∀ z ∈ zones, id ∈ q.queue z) ∧ (∀ y, 1 ≤ y → y ∉ zones → q.queue y = p.cues.queue y) ∧ q.zones = p.cues.zones := by
  induction zones generalizing p with
  | nil => exact ⟨fun _ h => (List.not_mem_nil h).elim, fun _ _ _ => rfl, rfl⟩
  | cons z zones ih =>
    obtain ⟨hz1, hzlen, hzroom⟩ := hz z List.mem_cons_self
    obtain ⟨hfresh, hnodup⟩ := List.nodup_cons.mp hnodup
    obtain ⟨hin, hothers, hlen, hzones⟩ := Part.insertReference_law hok hz1 hzlen hzroom id
    have hok' : (p.insertReference id cls z).cues.ok := (p.keeps_insertReference id cls z).cues.ok hok
    have hz' : ∀ y ∈ zones, 1 ≤ y ∧ y - 1 < (p.insertReference id cls z).cues.queues.length ∧
        (p.insertReference id cls z).cues.hasRoom y cls = true := by
      intro y hy
      obtain ⟨hy1, hylen, hyroom⟩ := hz y (List.mem_cons_of_mem z hy)
      have hne : y ≠ z := fun h => hfresh (h ▸ hy)
      exact ⟨hy1, hlen.symm ▸ hylen, ((hothers y hy1 hne).2 cls).trans hyroom⟩
    obtain ⟨hall, hrest, hzones'⟩ := ih hok' hnodup hz'
    refine ⟨fun y hy => ?_, fun y hy1 hy => ?_, hzones'.trans hzones⟩
    · rcases List.mem_cons.mp hy with rfl | hy
      · rw [List.foldl_cons, hrest y hz1 hfresh]
        exact hin
      · exact hall y hy
    · rw [List.mem_cons, not_or] at hy
      exact (hrest y hy1 hy.2).trans (hothers y hy1 hy.1).1

end Sys2Proof.Machine
end

section
/-! A preempted record that is replayed (R165), the waits taken before an answer (log 2), and what the end of an event keeps of a
record in flight. -/

namespace Sys2Proof.Machine

/-! ## The end of an event and the records of one id -/

/-- No record of the id `id` has a wait that has passed at the instant `now`, but for STOP waits that are still running. -/
def CueSched.Settled (q : CueSched) (id now : Nat) : Prop :=
  ∀ c ∈ q.pool, c.id = id → ∃ why t, c.flight = .stopping why t ∧ now ≤ t

theorem CueSched.Settled.of_sameOwn {q r : CueSched} {id now : Nat} (h : q.Settled id now) (hown : q.SameOwn id r) :
    r.Settled id now := by
  intro c hc hid
  have hmem : c ∈ r.pool.filter (·.id == id) := List.mem_filter.mpr ⟨hc, beq_iff_eq.mpr hid⟩
  rw [hown] at hmem
  exact h c (List.mem_filter.mp hmem).1 hid

/-- A release changes the record released alone. -/
theorem Part.sameOwn_releaseCue {p : Part} {c : Cue} {id : Nat} (h : c.id ≠ id) : p.cues.SameOwn id (p.releaseCue c).cues := by
  have hcues : (p.releaseCue c).cues.pool = (p.cues.modCue c.id fun x =>
      { x.setOutcome (c.pendingZones.filter fun z => p.cues.zone z == .offline).contains .failed with
        flight := .sent (p.elapsed + 2000) }).pool := by
    have htell (q : Part) : (q.tellPlay c).cues = q.cues := by
      unfold Part.tellPlay
      split <;> rfl
    unfold Part.releaseCue
    dsimp only
    rw [htell]
    split
    · dsimp only [Part.modCues]
      rw [foldl_setZone_frame]
      rfl
    · dsimp only [Part.modCues, Part.latchNat, Part.latch]
      rw [foldl_setZone_frame]
      rfl
  unfold CueSched.SameOwn
  rw [hcues]
  exact CueSched.sameOwn_modCue p.cues h fun _ => rfl

/-- An examination leaves the records of an id of which none is queued. -/
theorem Part.sameOwn_examine {p : Part} {id : Nat} (h : ∀ c ∈ p.cues.pool, c.id = id → c.isQueued = false) :
    p.cues.SameOwn id p.examine.cues := by
  have hne : ∀ c ∈ sortBy cueBefore (p.cues.pool.filter p.eligibleCue), c.id ≠ id := by
    intro c hc hid
    rw [mem_sortBy, List.mem_filter] at hc
    obtain ⟨hmem, heligible⟩ := hc
    have hqueued := h c hmem hid
    simp [Part.eligibleCue, hqueued] at heligible
  unfold Part.examine
  generalize sortBy cueBefore (p.cues.pool.filter p.eligibleCue) = l at hne
  clear h
  induction l generalizing p with
  | nil => rfl
  | cons c l ih =>
    have hone := Part.sameOwn_releaseCue (p := p) (hne c List.mem_cons_self)
    exact (ih (p := p.releaseCue c) fun d hd => hne d (List.mem_cons_of_mem c hd)).trans hone

theorem Part.settled_ended {p : Part} {id now : Nat} (h : p.cues.Settled id now) (told : Bool) : (p.ended told).cues.Settled id now := by
  have hnamed (q : Part) (hq : q.cues = p.cues) : q.nameGenerations.cues.Settled id now := by
    intro c hc hid
    obtain ⟨d, hd, rfl⟩ := List.mem_map.mp hc
    rw [hq] at hd
    by_cases hname : (d.template == some .change && d.required.isNone) = true
    · rw [if_pos hname] at hid ⊢
      exact h d hd hid
    · rw [if_neg hname] at hid ⊢
      exact h d hd hid
  have hexamined (q : Part) (hq : q.cues = p.cues) : q.nameGenerations.examine.cues.Settled id now := by
    refine (hnamed q hq).of_sameOwn (Part.sameOwn_examine fun c hc hid => ?_)
    obtain ⟨why, t, hf, -⟩ := hnamed q hq c hc hid
    rw [Cue.isQueued, hf]
    rfl
  unfold Part.ended Part.finish
  dsimp only
  split
  · exact hexamined _ rfl
  · exact hexamined _ rfl

theorem Part.settled_bumpSilence {p : Part} {id now : Nat} (h : p.cues.Settled id now) : p.bumpSilence.cues.Settled id now := by
  rw [Part.bumpSilence_eq]
  split
  · intro c hc hid
    have hpool := congrArg CueSched.pool
      (Part.foldl_failCue_cues p.cues.flightIds (p.modCues fun q => { q with silence := min 3 (p.cues.silence + 1) })).1
    have hc := (congrArg (c ∈ ·) hpool).mp hc
    exact h c (List.mem_filter.mp hc).1 hid
  · exact h

/-! ## The waits before an answer (log 2) -/

/-- No wait of the record that an answer names has passed. -/
def Part.InTime (p : Part) (id : Nat) : Prop := ∀ c, p.cues.cue? id = some c → ∀ t,
  (c.flight = .sent t ∨ c.flight = .accepted t ∨ ∃ why, c.flight = .stopping why t) → p.elapsed ≤ t

theorem Part.waitLapse_of_inTime {p : Part} {id : Nat} (h : p.InTime id) : p.waitLapse id = p := by
  rcases p.waitLapse_cases id with hp | ⟨c, hc, hlapse⟩
  · exact hp
  · exfalso
    rcases hlapse with ⟨t, hf, hlt, -⟩ | ⟨t, hf, hlt, -⟩ | ⟨why, t, hf, hlt, -⟩
    · exact absurd (h c hc t (.inl hf)) (Nat.not_le.mpr hlt)
    · exact absurd (h c hc t (.inr (.inl hf))) (Nat.not_le.mpr hlt)
    · exact absurd (h c hc t (.inr (.inr ⟨why, hf⟩))) (Nat.not_le.mpr hlt)

theorem Part.inTime_of_settled {p : Part} {id : Nat} (h : p.cues.Settled id p.elapsed) : p.InTime id := by
  intro c hc t ht
  obtain ⟨hmem, hid⟩ := CueSched.cue?_mem hc
  obtain ⟨why, t', hf, hle⟩ := h c hmem hid
  rw [hf] at ht
  rcases ht with ht | ht | ⟨why', ht⟩
  · cases ht
  · cases ht
  · injection ht with _ ht
    exact ht ▸ hle

theorem CueSched.settled_free (q : CueSched) (id now : Nat) : (q.free id).Settled id now := by
  intro c hc hid
  have hne := (List.mem_filter.mp hc).2
  simp [hid] at hne

/-- The end of a record's wait leaves no wait of the record that has passed. -/
theorem Part.settled_bumped {p : Part} {id now : Nat} (h : p.cues.Settled id now) : (p.bumpSilence.ended false).cues.Settled id now :=
  Part.settled_ended (Part.settled_bumpSilence h) false

section
variable {p : Part} {id t : Nat} {c : Cue} (hc : p.cues.cue? id = some c)
include hc

theorem Part.waitLapse_sent (hf : c.flight = .sent t) (h : t < p.elapsed) : p.waitLapse id = p.acceptWaitExpiry id := by
  rw [Part.waitLapse, hc, Option.map_some, hf]
  exact if_pos h

theorem Part.waitLapse_accepted (hf : c.flight = .accepted t) (h : t < p.elapsed) : p.waitLapse id = p.endedWaitExpiry id := by
  rw [Part.waitLapse, hc, Option.map_some, hf]
  exact if_pos h

theorem Part.waitLapse_stopping {why : StopReason} (hf : c.flight = .stopping why t) (h : t < p.elapsed) :
    p.waitLapse id = p.stopWaitExpiry id := by
  rw [Part.waitLapse, hc, Option.map_some, hf]
  exact if_pos h

theorem Part.settled_acceptWaitExpiry (hf : c.flight = .sent t) (now : Nat) : (p.acceptWaitExpiry id).cues.Settled id now := by
  rw [Part.acceptWaitExpiry_eq hc hf]
  exact Part.settled_bumped (CueSched.settled_free _ id now)

theorem Part.settled_stopWaitExpiry {why : StopReason} (hf : c.flight = .stopping why t) (now : Nat) :
    (p.stopWaitExpiry id).cues.Settled id now := by
  rw [Part.stopWaitExpiry_eq hc hf]
  dsimp only
  split
  · exact Part.settled_bumped (CueSched.settled_free _ id now)
  · exact Part.settled_bumped (CueSched.settled_free (p.cues.idleZonesOf id) id now)

theorem Part.settled_endedWaitExpiry (hf : c.flight = .accepted t) :
    (p.endedWaitExpiry id).cues.Settled id (max p.elapsed t) := by
  rw [Part.endedWaitExpiry_eq hc hf]
  refine Part.settled_bumped fun d hd hid => ?_
  obtain ⟨e, -, rfl⟩ := List.mem_map.mp hd
  split at hid
  · next h =>
    rw [if_pos h]
    exact ⟨.timeout, max p.elapsed t + 5000, rfl, by omega⟩
  · next h => exact absurd (beq_iff_eq.mpr hid) h

end

/-! ## The zones at the end of an event -/

/-- No zone is STOPPING the record `id`. -/
def CueSched.Unstopped (q : CueSched) (id : Nat) : Prop := ZoneState.stopping id ∉ q.zones

theorem CueSched.unstopped_idleZonesOf (q : CueSched) (id : Nat) : (q.idleZonesOf id).Unstopped id := by
  intro h
  obtain ⟨st, -, heq⟩ := List.mem_map.mp h
  split at heq
  · cases heq
  · next hno => simp [heq] at hno

theorem Part.unstopped_releaseCue {p : Part} {id : Nat} (h : p.cues.Unstopped id) (c : Cue) : (p.releaseCue c).cues.Unstopped id := by
  have hset (on : List Nat) (q : CueSched) (hq : q.Unstopped id) :
      (on.foldl (fun q z => q.setZone z (.playing c.id)) q).Unstopped id := by
    refine foldl_invariant (CueSched.Unstopped · id) (fun q z => q.setZone z (.playing c.id)) (fun r z hr => ?_) on q hq
    intro hmem
    have hall := updateAt_all (· ≠ ZoneState.stopping id) r.zones (z - 1) (fun _ => ZoneState.playing c.id)
      (fun st hst heq => hr (heq ▸ hst)) (fun _ _ => by simp)
    exact hall _ hmem rfl
  have htell (q : Part) : (q.tellPlay c).cues = q.cues := by
    unfold Part.tellPlay
    split <;> rfl
  unfold Part.releaseCue
  dsimp only
  rw [htell]
  split
  · exact hset _ _ h
  · exact hset _ _ h

theorem Part.unstopped_ended {p : Part} {id : Nat} (h : p.cues.Unstopped id) (told : Bool) : (p.ended told).cues.Unstopped id := by
  have hexamine (q : Part) (hq : q.cues.Unstopped id) : q.nameGenerations.examine.cues.Unstopped id :=
    foldl_invariant (fun r : Part => r.cues.Unstopped id) Part.releaseCue (fun r c hr => Part.unstopped_releaseCue hr c) _ _ hq
  unfold Part.ended Part.finish
  dsimp only
  split
  · exact hexamine _ h
  · exact hexamine _ h

/-! ## The replay of a preempted record (R165) -/

/-- A zone that is IDLE preempts nothing. -/
theorem Part.foldl_preemptZone_idle {p : Part} (zones : List Nat) (h : ∀ z ∈ zones, p.cues.zone z = .idle) :
    zones.foldl (fun p z => p.preemptZone z) p = p := by
  induction zones with
  | nil => rfl
  | cons z zones ih =>
    have hone : p.preemptZone z = p := by rw [Part.preemptZone, h z List.mem_cons_self]
    rw [List.foldl_cons, hone]
    exact ih fun y hy => h y (List.mem_cons_of_mem z hy)

theorem CueSched.zone_idleZonesOf {q : CueSched} {id z : Nat} (h : q.zone z = .stopping id) : (q.idleZonesOf id).zone z = .idle := by
  unfold CueSched.zone CueSched.idleZonesOf at *
  rw [List.getD_eq_getElem?_getD] at h ⊢
  rw [List.getElem?_map]
  cases hq : q.zones[z - 1]? with
  | none => rfl
  | some st =>
    rw [hq] at h
    have hst : st = .stopping id := h
    rw [Option.map_some, hst]
    simp

/-- The scheduler but for its pool and its queues. -/
def CueSched.beyondQueues (q : CueSched) : CueSched := { q with pool := [], queues := [] }

theorem Part.insertReference_beyondQueues (p : Part) (id : Nat) (cls : CueClass) (z : Nat) :
    (p.insertReference id cls z).cues.beyondQueues = p.cues.beyondQueues := by
  have hmade : (p.roomMade cls z).cues.beyondQueues = p.cues.beyondQueues := by
    unfold Part.roomMade
    split
    · rfl
    · split
      · rw [Part.dropReference_cues]
        dsimp only
        split <;> rfl
      · rfl
  rw [Part.insertReference_eq, ← hmade]
  split <;> rfl

/-- The record as the replay queues it. -/
def Cue.asReplayed (c : Cue) (left kept : List Nat) : Cue :=
  { (c.setOutcome left.contains .dropped).setOutcome kept.contains .pending with replayed := true, flight := .queued }

theorem Cue.asReplayed_eq (c : Cue) {left kept : List Nat} : c.asReplayed left kept = { c with
    zones := c.zones.map fun y => (y.1, if y.1 ∈ kept then .pending else if y.1 ∈ left then .dropped else y.2)
    replayed := true, flight := .queued } := by
  have hzones : ((c.setOutcome left.contains .dropped).setOutcome kept.contains .pending).zones =
      c.zones.map fun y => (y.1, if y.1 ∈ kept then .pending else if y.1 ∈ left then .dropped else y.2) := by
    simp only [Cue.setOutcome, List.map_map]
    refine List.map_congr_left fun y _ => ?_
    simp only [Function.comp, List.contains_iff_mem]
    split <;> split <;> simp_all
  unfold Cue.asReplayed
  dsimp only
  rw [hzones]
  rfl

theorem CueSched.stoppingZones_nodup (q : CueSched) (id : Nat) : (q.stoppingZones id).Nodup := by
  have h : (numbersFrom 1 8).Nodup := by decide
  exact h.filter _

theorem CueSched.mem_stoppingZones {q : CueSched} {id z : Nat} : z ∈ q.stoppingZones id ↔ 1 ≤ z ∧ z ≤ 8 ∧ q.zone z = .stopping id := by
  rw [CueSched.stoppingZones, List.mem_filter, mem_numbersFrom, beq_iff_eq, and_assoc, show 1 + 8 = 9 from rfl, Nat.lt_succ_iff]

/-- The part whose preempted record `c` is queued again, but without its references. -/
def Part.requeued (p : Part) (c : Cue) (left kept : List Nat) : Part :=
  (p.modCues (·.idleZonesOf c.id)).modCues (·.modCue c.id (·.asReplayed left kept))

theorem Part.replay_eq (p : Part) (c : Cue) (left : List Nat) : p.replay c left =
    (let kept := left.filter fun z => p.cues.hasRoom z c.cls
     if kept.isEmpty then (p.modCues (·.idleZonesOf c.id)).dropCue c.id else (p.requeued c left kept).insertCue c.id c.cls kept) := rfl

section
variable {p : Part} {c : Cue} (hc : p.cues.cue? c.id = some c) (left kept : List Nat)
include hc

theorem Part.requeued_cue? : (p.requeued c left kept).cues.cue? c.id = some (c.asReplayed left kept) :=
  CueSched.cue?_modCue_same (q := p.cues.idleZonesOf c.id) (f := (·.asReplayed left kept)) (fun _ => rfl) hc

theorem Part.requeued_ownClass : (p.requeued c left kept).cues.OwnClass c.id c.cls := by
  intro d hd
  rw [Part.requeued_cue? hc] at hd
  obtain rfl := Option.some.inj hd
  rfl

/-- However the replay goes, each record of that id has been replayed and no zone is STOPPING it. -/
theorem Part.replay_replayed : (∀ x ∈ (p.replay c left).cues.pool, x.id = c.id → x.replayed = true) ∧
    (p.replay c left).cues.Unstopped c.id := by
  rw [Part.replay_eq]
  dsimp only
  split
  · exact ⟨fun x hx hid => absurd hid (bne_iff_ne.mp (List.mem_filter.mp hx).2), CueSched.unstopped_idleZonesOf p.cues c.id⟩
  · have hinserted := Part.inserted_insertCue (Part.requeued_ownClass hc left (left.filter fun z => p.cues.hasRoom z c.cls))
      (left.filter fun z => p.cues.hasRoom z c.cls)
    refine ⟨fun x hx hid => ?_, hinserted.unstopped (CueSched.unstopped_idleZonesOf p.cues c.id)⟩
    have hmem := List.mem_filter (p := fun x : Cue => x.id == c.id).mpr ⟨hx, beq_iff_eq.mpr hid⟩
    rw [hinserted.own] at hmem
    obtain ⟨y, -, rfl⟩ := List.mem_map.mp (List.mem_filter.mp hmem).1
    split
    · rfl
    · next hne =>
      rw [if_neg hne] at hid
      exact absurd (beq_iff_eq.mpr hid) hne

/-- A replay in zones that have room. -/
theorem Part.replay_law (hok : p.cues.ok) (hqueues : p.cues.queues.length = 8)
    (hkept : kept = (p.cues.stoppingZones c.id).filter fun z => p.cues.hasRoom z c.cls) (hne : kept ≠ []) :
    let q := p.replay c (p.cues.stoppingZones c.id)
    c.asReplayed (p.cues.stoppingZones c.id) kept ∈ q.cues.pool ∧ (∀ z ∈ kept, c.id ∈ q.cues.queue z) ∧
      q.cues.zones = (p.cues.idleZonesOf c.id).zones ∧ q.beyondCues = p.beyondCues ∧
      q.cues = { p.cues with pool := q.cues.pool, queues := q.cues.queues, zones := q.cues.zones } := by
  intro q
  have hq : q = (p.requeued c (p.cues.stoppingZones c.id) kept).insertCue c.id c.cls kept := by
    show p.replay _ _ = _
    rw [Part.replay_eq, ← hkept]
    exact if_neg (by simpa using hne)
  have hok' : (p.requeued c (p.cues.stoppingZones c.id) kept).cues.ok :=
    ((p.cues.shrinks_idleZonesOf c.id).trans (CueSched.shrinks_modCue (f := (·.asReplayed (p.cues.stoppingZones c.id) kept)) _ c.id
      fun d => ((d.setOutcome _ .dropped).key_setOutcome kept.contains .pending).trans (d.key_setOutcome _ _))).keeps.ok hok
  have hroom (z : Nat) : (p.requeued c (p.cues.stoppingZones c.id) kept).cues.hasRoom z c.cls = p.cues.hasRoom z c.cls :=
    CueSched.hasRoom_congr (q := p.cues) (r := (p.requeued c (p.cues.stoppingZones c.id) kept).cues) rfl (fun w _ => CueSched.classOf_modCue (q := p.cues.idleZonesOf c.id)
      (f := (·.asReplayed (p.cues.stoppingZones c.id) kept)) (fun _ => rfl) (fun _ => rfl) w) _
  have hzone : ∀ z ∈ kept, 1 ≤ z ∧ z ≤ 8 ∧ p.cues.zone z = .stopping c.id ∧ p.cues.hasRoom z c.cls = true := by
    intro z hz
    rw [hkept, List.mem_filter, CueSched.mem_stoppingZones] at hz
    obtain ⟨⟨h1, h8, hst⟩, hr⟩ := hz
    exact ⟨h1, h8, hst, hr⟩
  have hnodup : kept.Nodup := hkept ▸ (p.cues.stoppingZones_nodup c.id).filter _
  obtain ⟨hin, -, hzones⟩ := Part.insertReferences_law (id := c.id) (cls := c.cls) kept hok' hnodup fun z hz => by
    obtain ⟨h1, h8, -, hr⟩ := hzone z hz
    exact ⟨h1, by show z - 1 < p.cues.queues.length; omega, (hroom z).trans hr⟩
  have hidle : ∀ z ∈ kept, (kept.foldl (fun p z => p.insertReference c.id c.cls z)
      (p.requeued c (p.cues.stoppingZones c.id) kept)).cues.zone z = .idle := by
    intro z hz
    rw [CueSched.zone, hzones]
    exact CueSched.zone_idleZonesOf (hzone z hz).2.2.1
  have hinsert : q = kept.foldl (fun p z => p.insertReference c.id c.cls z) (p.requeued c (p.cues.stoppingZones c.id) kept) := by
    rw [hq, Part.insertCue, Part.foldl_preemptZone_idle kept hidle, ite_self]
  have hinserted := Part.inserted_insertCue (Part.requeued_ownClass hc (p.cues.stoppingZones c.id) kept) kept
  have hmem := hinserted.own.mem (CueSched.cue?_mem (Part.requeued_cue? hc (p.cues.stoppingZones c.id) kept)).1 rfl
  have hbeyond : q.cues.beyondQueues = (p.cues.idleZonesOf c.id).beyondQueues := by
    rw [hinsert]
    exact foldl_keeps (fun r : Part => r.cues.beyondQueues) (fun p z => p.insertReference c.id c.cls z)
      (fun r z => r.insertReference_beyondQueues c.id c.cls z) kept _
  refine ⟨hq ▸ hmem, fun z hz => hinsert ▸ hin z hz, ?_, ?_, ?_⟩
  · rw [hinsert, hzones]
    rfl
  · rw [hq, Part.insertCue_beyondCues]
    rfl
  · exact (congrArg (fun r : CueSched => { r with pool := q.cues.pool, queues := q.cues.queues, zones := q.cues.zones }) hbeyond :)

end

end Sys2Proof.Machine
end

section
/-! The announcer's frames (R159 to R162, R165). -/

namespace Sys2Proof.Machine

/-! ## An answer after a wait that has passed (log 2) -/

theorem Part.bumped_frame (p : Part) :
    (p.bumpSilence.ended false).powered = p.powered ∧ (p.bumpSilence.ended false).elapsed = p.elapsed := by
  have h := p.bumpSilence_beyondCues
  have hended := p.bumpSilence.ended_eq false
  have hpowered : (p.bumpSilence.ended false).powered = p.bumpSilence.powered := (congrArg Part.powered hended :)
  have helapsed : (p.bumpSilence.ended false).elapsed = p.bumpSilence.elapsed := (congrArg Part.elapsed hended :)
  exact ⟨hpowered.trans (Part.powered_of_cues h), helapsed.trans (Part.elapsed_of_cues h)⟩

/-- The wait of the record `id` that an answer takes first: its limit, and the command of its end. -/
def Part.WaitOf (p : Part) (id t : Nat) (e : Instr) : Prop := ∃ c, p.cues.cue? id = some c ∧
  ((c.flight = .sent t ∧ e = .acceptWaitExpiry id) ∨ (c.flight = .accepted t ∧ e = .endedWaitExpiry id) ∨
    (∃ why, c.flight = .stopping why t) ∧ e = .stopWaitExpiry id)

/-- The end of the wait, in an event of its own, leaves no wait of the record that has passed. -/
theorem Part.waitLapse_law {s : State} {id t : Nat} {e : Instr} {u : Part} (hp : s.part.powered = true) (h : s.part.WaitOf id t e)
    (hlt : t < s.part.elapsed) (hu : Leaves e s u) : s.part.waitLapse id = u ∧ u.powered = true ∧ u.InTime id := by
  obtain ⟨c, hc, hwait⟩ := h
  rcases hwait with ⟨hf, rfl⟩ | ⟨hf, rfl⟩ | ⟨⟨why, hf⟩, rfl⟩
  · obtain rfl := hu.part_eq (·.acceptWaitExpiry id) rfl hp
    refine ⟨Part.waitLapse_sent hc hf hlt, ?_, Part.inTime_of_settled (Part.settled_acceptWaitExpiry hc hf _)⟩
    show (s.part.acceptWaitExpiry id).powered = true
    rw [Part.acceptWaitExpiry_eq hc hf]
    exact (Part.bumped_frame _).1.trans hp
  · obtain rfl := hu.part_eq (·.endedWaitExpiry id) rfl hp
    have helapsed : (s.part.endedWaitExpiry id).elapsed = max s.part.elapsed t := by
      rw [Part.endedWaitExpiry_eq hc hf]
      exact (Part.bumped_frame _).2
    refine ⟨Part.waitLapse_accepted hc hf hlt, ?_, Part.inTime_of_settled (helapsed ▸ Part.settled_endedWaitExpiry hc hf)⟩
    show (s.part.endedWaitExpiry id).powered = true
    rw [Part.endedWaitExpiry_eq hc hf]
    exact (Part.bumped_frame _).1.trans hp
  · obtain rfl := hu.part_eq (·.stopWaitExpiry id) rfl hp
    refine ⟨Part.waitLapse_stopping hc hf hlt, ?_, Part.inTime_of_settled (Part.settled_stopWaitExpiry hc hf _)⟩
    show (s.part.stopWaitExpiry id).powered = true
    rw [Part.stopWaitExpiry_eq hc hf]
    refine (Part.bumped_frame _).1.trans ?_
    split <;> exact hp

/-! ## The handlers -/

/-- A frame heard, by what its handling makes of the part. -/
theorem Part.hear_eq {p r : Part} {f : Part → Part} (h : f p.heardFrame.begin = r.withEv p.heardFrame.begin.ev) :
    p.hear f = r.ended false := by
  rw [Part.hear, h]
  exact (r.like_withEv p.heardFrame.begin.ev).finish rfl

/-- The commands of the frames that name a cue. -/
def Instr.Answers (id : Nat) (c : Instr) : Prop :=
  c = .cuePortAccept id ∨ (∃ r, c = .cuePortReject id r) ∨ ∃ o, c = .cuePortEnded id o

theorem exec_answer {id : Nat} {c : Instr} (h : Instr.Answers id c) : ∃ f, ∀ s, exec c s = act (fun p => p.hearAnswer id f) s := by
  rcases h with rfl | ⟨r, rfl⟩ | ⟨o, rfl⟩
  · exact ⟨(·.cueAccept id), fun _ => rfl⟩
  · exact ⟨(·.cueReject id r), fun _ => rfl⟩
  · exact ⟨(·.cueEnded id o), fun _ => rfl⟩

/-- What an answer that comes in time leaves. -/
theorem leaves_answer {s : State} {id : Nat} {c : Instr} {r : Part} (f : Part → Part)
    (hc : exec c s = act (fun p => p.hearAnswer id f) s) (hp : s.part.powered = true) (ht : s.part.InTime id)
    (h : f s.part.heardFrame.begin = r.withEv s.part.heardFrame.begin.ev) : Leaves c s (r.ended false) := by
  refine leaves_act (·.hearAnswer id f) hc hp ?_
  show s.part.hearAnswer id f = _
  rw [Part.hearAnswer, Part.waitLapse_of_inTime ht]
  exact Part.hear_eq h

theorem leaves_heard {s : State} {c : Instr} {r : Part} (f : Part → Part) (hc : exec c s = act (fun p => p.hear f) s)
    (hp : s.part.powered = true) (h : f s.part.heardFrame.begin = r.withEv s.part.heardFrame.begin.ev) : Leaves c s (r.ended false) :=
  leaves_act (·.hear f) hc hp (Part.hear_eq h)

section
variable {p : Part} {id : Nat} {c : Cue} (hc : p.cues.cue? id = some c)
include hc

theorem Part.cueAccept_sent {t : Nat} (hf : c.flight = .sent t) : p.cueAccept id =
    p.modCues (·.modCue id fun c => { c with flight := .accepted (p.elapsed + 3000 * c.tokens.length + 10000) }) := by
  rw [Part.cueAccept, hc]
  dsimp only
  rw [hf]

theorem Part.cueAccept_other (hf : ∀ t, c.flight ≠ .sent t) : p.cueAccept id = p := by
  rw [Part.cueAccept, hc]
  dsimp only
  split
  · next t ht => exact absurd ht (hf t)
  · rfl
  · rfl
  · rfl

theorem Part.cueReject_fails (reason : Byte)
    (hf : (∃ t, c.flight = .sent t ∨ c.flight = .accepted t) ∨ ∃ t, c.flight = .stopping .preemption t) :
    p.cueReject id reason = (p.keepReason reason).failCue id := by
  rw [Part.cueReject, hc]
  dsimp only
  rcases hf with ⟨t, hf | hf⟩ | ⟨t, hf⟩ <;> rw [hf]

theorem Part.cueReject_quiet (reason : Byte) (hf : (∃ t, c.flight = .stopping .cancellation t) ∨ ∃ t, c.flight = .stopping .timeout t) :
    p.cueReject id reason = (p.keepReason reason).endQuietly id := by
  rw [Part.cueReject, hc]
  dsimp only
  rcases hf with ⟨t, hf⟩ | ⟨t, hf⟩ <;> rw [hf]

theorem Part.cueEnded_complete : p.cueEnded id .complete = (p.freeReserved id).cueComplete c := by
  have hc' : (p.freeReserved id).cues.cue? id = some c := hc
  rw [Part.cueEnded]
  dsimp only
  rw [hc']

theorem Part.cueEnded_stopped : p.cueEnded id .stopped = (p.freeReserved id).cueStopped c := by
  have hc' : (p.freeReserved id).cues.cue? id = some c := hc
  rw [Part.cueEnded]
  dsimp only
  rw [hc']

end

/-- A record that is not in flight is not in the pool or queued. -/
theorem CueSched.grounded {q : CueSched} {id : Nat} (h : ¬∃ c, q.cue? id = some c ∧ c.flight ≠ .queued) :
    q.cue? id = none ∨ ∃ c, q.cue? id = some c ∧ c.flight = .queued := by
  cases hc : q.cue? id with
  | none => exact .inl rfl
  | some c => exact .inr ⟨c, rfl, by_contra fun hf => h ⟨c, hc, hf⟩⟩

section
variable {p : Part} {id : Nat} (h : p.cues.cue? id = none ∨ ∃ c, p.cues.cue? id = some c ∧ c.flight = .queued)
include h

theorem Part.cueReject_grounded (reason : Byte) : p.cueReject id reason = p := by
  rw [Part.cueReject]
  rcases h with h | ⟨c, hc, hf⟩
  · rw [h]
  · rw [hc]
    dsimp only
    rw [hf]

theorem Part.cueEnded_grounded (o : EndOutcome) : p.cueEnded id o = p.freeReserved id := by
  have hcue : (p.freeReserved id).cues.cue? id = p.cues.cue? id := rfl
  rw [Part.cueEnded, hcue]
  rcases h with h | ⟨c, hc, hf⟩
  · rw [h]
  · rw [hc]
    cases o
    · dsimp only
      rw [Part.cueComplete, hf]
    · dsimp only
      rw [Part.cueStopped, hf]

end

/-! ## ENDED for a preempted record (R165) -/

/-- A preempted record that is dropped instead of replayed. -/
theorem Part.endPreempted_drops {p : Part} {c : Cue}
    (h : c.replayed = true ∨ p.cues.superseded c = true ∨ (c.origin = .auto ∧ p.orphaned c = true ∧ p.feed.state ≠ .live)) :
    p.endPreempted c = (p.modCues (·.idleZonesOf c.id)).dropCue c.id := by
  refine if_pos ?_
  simpa [or_assoc, and_assoc] using h

theorem Part.endPreempted_replays {p : Part} {c : Cue} (hr : c.replayed = false) (hs : p.cues.superseded c = false)
    (h : c.origin ≠ .auto ∨ p.orphaned c = false ∨ p.feed.state = .live) :
    p.endPreempted c = p.replay c (p.cues.stoppingZones c.id) := by
  refine if_neg ?_
  rw [hr, hs]
  simp only [Bool.or_self, Bool.false_or, Bool.and_eq_true, beq_iff_eq, bne_iff_ne, ne_eq, not_and, not_not]
  rintro ⟨ho, hor⟩
  rcases h with h | h | h
  · exact absurd ho h
  · rw [h] at hor
    cases hor
  · exact h

theorem Part.replay_withEv (p : Part) (e : Event) (c : Cue) (left : List Nat) :
    (p.withEv e).replay c left = (p.replay c left).withEv e := by
  have hinsert := (p.requeued c left (left.filter fun z => p.cues.hasRoom z c.cls)).insertCue_withEv e c.id c.cls
    (left.filter fun z => p.cues.hasRoom z c.cls)
  have hcues : (p.withEv e).cues = p.cues := rfl
  rw [Part.replay_eq, Part.replay_eq, hcues]
  dsimp only
  split
  · rfl
  · exact hinsert

theorem Part.endPreempted_withEv (p : Part) (e : Event) (c : Cue) : (p.withEv e).endPreempted c = (p.endPreempted c).withEv e := by
  have hcues : (p.withEv e).cues = p.cues := rfl
  have horphaned : (p.withEv e).orphaned c = p.orphaned c := rfl
  have hfeed : (p.withEv e).feed = p.feed := rfl
  unfold Part.endPreempted
  rw [hcues, horphaned, hfeed]
  split
  · rfl
  · exact p.replay_withEv e c _

theorem Part.cueComplete_withEv (p : Part) (e : Event) (c : Cue) : (p.withEv e).cueComplete c = (p.cueComplete c).withEv e := by
  unfold Part.cueComplete
  split <;> rfl

theorem Part.cueStopped_withEv (p : Part) (e : Event) (c : Cue) : (p.withEv e).cueStopped c = (p.cueStopped c).withEv e := by
  unfold Part.cueStopped
  split
  · rfl
  · rfl
  · rfl
  · exact p.endPreempted_withEv e c
  · rfl
  · rfl

/-- However a preempted record ends, no record of its id that was not replayed is left, and no zone STOPPING it. -/
theorem Part.endPreempted_left {p : Part} {c : Cue} (hc : p.cues.cue? c.id = some c) :
    (∀ x ∈ (p.endPreempted c).cues.pool, x.id = c.id → x.replayed = true) ∧ (p.endPreempted c).cues.Unstopped c.id := by
  unfold Part.endPreempted
  split
  · exact ⟨fun x hx hid => absurd hid (bne_iff_ne.mp (List.mem_filter.mp hx).2), CueSched.unstopped_idleZonesOf p.cues c.id⟩
  · exact Part.replay_replayed hc _

/-- The end of an event leaves of each record whether it was replayed. -/
theorem Part.ended_replayed {p : Part} {id : Nat} (h : ∀ x ∈ p.cues.pool, x.id = id → x.replayed = true) (told : Bool) :
    ∀ x ∈ (p.ended told).cues.pool, x.id = id → x.replayed = true := by
  intro x hx hid
  have hmem : x.beyondRelease ∈ p.cues.pool.map Cue.beyondRelease := p.ended_pool told ▸ List.mem_map_of_mem hx
  obtain ⟨y, hy, heq⟩ := List.mem_map.mp hmem
  obtain ⟨hyid, -, -, -, -, -, -, -, -, -, hreplayed⟩ := Cue.fields_of_beyondRelease heq
  rw [← hreplayed]
  exact h y hy (hyid.trans hid)

/-- The part that has heard an ENDED: the id named is no longer reserved. -/
def Part.heardEnded (p : Part) (id : Nat) : Part :=
  { p with cues := { p.cues with silence := 0, reserved := p.cues.reserved.filter (·.1 != id) } }

section
variable {s : State} {c : Cue} (hp : s.part.powered = true) (ht : s.part.InTime c.id) (hc : s.part.cues.cue? c.id = some c)
include hp ht hc

theorem leaves_complete : Leaves (.cuePortEnded c.id .complete) s (((s.part.heardEnded c.id).cueComplete c).ended false) := by
  refine leaves_answer (·.cueEnded c.id .complete) rfl hp ht ?_
  exact (Part.cueEnded_complete (p := s.part.heardFrame.begin) hc).trans
    ((s.part.heardEnded c.id).cueComplete_withEv s.part.heardFrame.begin.ev c)

theorem leaves_stopped : Leaves (.cuePortEnded c.id .stopped) s (((s.part.heardEnded c.id).cueStopped c).ended false) := by
  refine leaves_answer (·.cueEnded c.id .stopped) rfl hp ht ?_
  exact (Part.cueEnded_stopped (p := s.part.heardFrame.begin) hc).trans
    ((s.part.heardEnded c.id).cueStopped_withEv s.part.heardFrame.begin.ev c)

theorem leaves_preempted {t : Nat} (hf : c.flight = .stopping .preemption t) :
    Leaves (.cuePortEnded c.id .stopped) s (((s.part.heardEnded c.id).endPreempted c).ended false) := by
  have h := leaves_stopped hp ht hc
  rwa [Part.cueStopped, hf] at h

/-- The record that was preempted is queued again in zones that have room. -/
theorem leaves_replay {t : Nat} (hf : c.flight = .stopping .preemption t) (hr : c.replayed = false)
    (hs : s.part.cues.superseded c = false) (h : c.origin ≠ .auto ∨ s.part.orphaned c = false ∨ s.part.feed.state = .live)
    {left kept : List Nat} (hleft : left = (s.part.heardEnded c.id).cues.stoppingZones c.id)
    (hkept : kept = left.filter fun z => (s.part.heardEnded c.id).cues.hasRoom z c.cls) (hne : kept ≠ [])
    (hok : (s.part.heardEnded c.id).cues.ok) (hqueues : s.part.cues.queues.length = 8) : ∃ q : Part,
      Leaves (.cuePortEnded c.id .stopped) s (q.ended false) ∧ c.asReplayed left kept ∈ q.cues.pool ∧
      (∀ z ∈ kept, c.id ∈ q.cues.queue z) ∧ q.cues.zones = (s.part.cues.idleZonesOf c.id).zones ∧
      q.beyondCues = s.part.beyondCues ∧
      q.cues = { (s.part.heardEnded c.id).cues with pool := q.cues.pool, queues := q.cues.queues, zones := q.cues.zones } := by
  subst hleft
  have hleaves := leaves_preempted hp ht hc hf
  rw [Part.endPreempted_replays (p := s.part.heardEnded c.id) hr hs h] at hleaves
  obtain ⟨hmem, hin, hzones, hframe, hsched⟩ := Part.replay_law (p := s.part.heardEnded c.id) hc kept hok hqueues hkept hne
  exact ⟨_, hleaves, hmem, hin, hzones, hframe, hsched⟩

end

/-! ## ZONE_STATE and PROBE_REPLY (R159, R162) -/

theorem Part.zoneState_outside {p : Part} {z : Nat} (h : z = 0 ∨ 8 < z) (r : ZoneReport) : p.zoneState z r = p :=
  if_pos (by simpa using h)

section
variable {p : Part} {z : Nat} (h1 : 1 ≤ z) (h8 : z ≤ 8)
include h1 h8

theorem Part.zoneState_fault : p.zoneState z .fault = p.zoneFault z := if_neg (by simp; omega)

theorem Part.zoneState_ok : p.zoneState z .ok = if p.cues.zone z == .offline then p.modCues (·.setZone z .idle) else p :=
  if_neg (by simp; omega)

end

theorem Part.zoneFault_cue {p : Part} {z c : Nat} (h : p.cues.zone z = .playing c ∨ p.cues.zone z = .stopping c) : p.zoneFault z =
    (p.modCues fun q => (q.setZone z .offline).modCue c (·.setOutcome (· == z) .failed)).latchNat .cueFailed c := by
  rw [Part.zoneFault]
  rcases h with h | h
  · rw [h]
    rfl
  · rw [h]
    rfl

theorem Part.probeReplyLapse_of_inTime {p : Part} (h : ∀ t, p.cues.probeWait = some t → p.elapsed ≤ t) : p.probeReplyLapse = p := by
  refine if_neg fun hany => ?_
  cases hw : p.cues.probeWait with
  | none =>
    rw [hw] at hany
    cases hany
  | some t =>
    rw [hw] at hany
    exact absurd (of_decide_eq_true hany) (Nat.not_lt.mpr (h t hw))

/-- The end of the probe reply wait leaves no such wait. -/
theorem Part.probeWaitExpiry_over {p : Part} {t : Nat} (h : p.cues.probeWait = some t) :
    (p.probeWaitExpiry).cues.probeWait = none ∧ (p.probeWaitExpiry).powered = p.powered := by
  rw [Part.probeWaitExpiry_eq h]
  refine ⟨?_, (Part.bumped_frame _).1⟩
  rw [Part.ended_sched]
  show (Part.bumpSilence _).cues.probeWait = none
  rw [Part.bumpSilence_eq]
  split
  · have hcues := (Part.foldl_failCue_cues p.cues.flightIds
      (((p.advanceTo t).modCues fun q => { q with probeWait := none }).modCues fun q => { q with silence := min 3 (p.cues.silence + 1) })).1
    exact (congrArg CueSched.probeWait hcues :)
  · rfl

theorem Part.eq_of_beyondCues {p q : Part} (h : p.beyondCues = q.beyondCues) :
    p = { q with cues := p.cues, info := p.info, ctl := p.ctl, ev := p.ev } :=
  (congrArg (fun x : Part => { x with cues := p.cues, info := p.info, ctl := p.ctl, ev := p.ev }) h :)

/-- Settles O49: the frames of the announcer. -/
theorem announcerFramesAreTaken : Obligations.AnnouncerFramesAreTaken := by
  unfold Obligations.AnnouncerFramesAreTaken
  intro s id hp heard flights with_ freed inFlight stopped answers expiry inTime
  have hwait {t : Nat} {e : Instr} (h : s.part.WaitOf id t e) : expiry t e := by
    obtain ⟨c, hc, h | h | h⟩ := h
    · exact .inl ⟨⟨c, hc, h.1⟩, h.2⟩
    · exact .inr (.inl ⟨⟨c, hc, h.1⟩, h.2⟩)
    · exact .inr (.inr ⟨⟨c, hc, h.1⟩, h.2⟩)
  have hwaitOf {t : Nat} {e : Instr} (h : expiry t e) : s.part.WaitOf id t e := by
    rcases h with ⟨⟨c, hc, hf⟩, he⟩ | ⟨⟨c, hc, hf⟩, he⟩ | ⟨⟨c, hc, hf⟩, he⟩
    · exact ⟨c, hc, .inl ⟨hf, he⟩⟩
    · exact ⟨c, hc, .inr (.inl ⟨hf, he⟩)⟩
    · exact ⟨c, hc, .inr (.inr ⟨hf, he⟩)⟩
  have hinTime (h : inTime) : s.part.InTime id := by
    rintro c hc t (hf | hf | hf)
    · exact h t _ (hwait ⟨c, hc, .inl ⟨hf, rfl⟩⟩)
    · exact h t _ (hwait ⟨c, hc, .inr (.inl ⟨hf, rfl⟩)⟩)
    · exact h t _ (hwait ⟨c, hc, .inr (.inr ⟨hf, rfl⟩)⟩)
  refine ⟨?late, ?accept, ?acceptOther, ?reject, ?ended, ?probe, ?probeLate, ?zones, ?zoneOutside, ?broken, ?unexpected⟩
  case late =>
    intro t e c u he hlt ha hu
    obtain ⟨hlapse, hpu, hu'⟩ := Part.waitLapse_law hp (hwaitOf he) hlt hu
    obtain ⟨f, hf⟩ := exec_answer ha
    rw [hf, hf, act_powered _ s hp, act_powered _ { s with part := u } hpu]
    unfold Part.hearAnswer
    rw [hlapse, Part.waitLapse_of_inTime hu']
  case accept =>
    rintro ht ⟨c, hc, t, hf⟩
    refine leaves_answer (·.cueAccept id) rfl hp (hinTime ht) ?_
    exact Part.cueAccept_sent (p := s.part.heardFrame.begin) hc hf
  case acceptOther =>
    intro ht hno
    refine leaves_answer (·.cueAccept id) rfl hp (hinTime ht) ?_
    show s.part.heardFrame.begin.cueAccept id = _
    cases hc : s.part.cues.cue? id with
    | none =>
      have hc' : s.part.heardFrame.begin.cues.cue? id = none := hc
      rw [Part.cueAccept, hc']
      rfl
    | some c =>
      exact Part.cueAccept_other (p := s.part.heardFrame.begin) hc fun t hf => hno ⟨c, hc, t, hf⟩
  case reject =>
    intro reason ht kept
    refine ⟨?_, ?_, fun hno => ?_⟩
    · rintro ⟨c, hc, hf⟩
      refine leaves_answer (·.cueReject id reason) rfl hp (hinTime ht) ?_
      exact Part.cueReject_fails (p := s.part.heardFrame.begin) hc reason hf
    · rintro ⟨c, hc, hf⟩
      refine leaves_answer (·.cueReject id reason) rfl hp (hinTime ht) ?_
      exact Part.cueReject_quiet (p := s.part.heardFrame.begin) hc reason hf
    · refine leaves_answer (·.cueReject id reason) rfl hp (hinTime ht) ?_
      exact Part.cueReject_grounded (p := s.part.heardFrame.begin) (CueSched.grounded hno) reason
  case ended =>
    intro ht kept
    refine ⟨?done, ?doneLate, ?failed, ?quiet, ?preempted, ?grounded⟩
    case done =>
      rintro ⟨c, hc, hf⟩
      obtain rfl := (CueSched.cue?_mem hc).2
      have h := leaves_complete hp (hinTime ht) hc
      unfold Part.cueComplete at h
      rcases hf with ⟨t, hf | hf⟩ | ⟨t, hf⟩ | ⟨t, hf⟩ <;> rw [hf] at h <;> exact h
    case doneLate =>
      rintro ⟨c, hc, t, hf⟩
      obtain rfl := (CueSched.cue?_mem hc).2
      have h := leaves_complete hp (hinTime ht) hc
      rw [Part.cueComplete, hf] at h
      exact h
    case failed =>
      rintro ⟨c, hc, t, hf⟩
      obtain rfl := (CueSched.cue?_mem hc).2
      have h := leaves_stopped hp (hinTime ht) hc
      unfold Part.cueStopped at h
      rcases hf with hf | hf <;> rw [hf] at h <;> exact h
    case quiet =>
      rintro ⟨c, hc, hf⟩
      obtain rfl := (CueSched.cue?_mem hc).2
      have h := leaves_stopped hp (hinTime ht) hc
      unfold Part.cueStopped at h
      rcases hf with ⟨t, hf⟩ | ⟨t, hf⟩ <;> rw [hf] at h <;> exact h
    case grounded =>
      intro o hno
      refine leaves_answer (·.cueEnded id o) rfl hp (hinTime ht) ?_
      exact Part.cueEnded_grounded (p := s.part.heardFrame.begin) (CueSched.grounded hno) o
    case preempted =>
      rintro c hc ⟨t, hf⟩
      obtain rfl := (CueSched.cue?_mem hc).2
      have hleaves := leaves_preempted hp (hinTime ht) hc hf
      refine ⟨fun h => ?drops, ?left, fun hr hs h => ?replays⟩
      case drops =>
        rw [Part.endPreempted_drops (p := s.part.heardEnded c.id) h] at hleaves
        exact hleaves
      case left =>
        obtain ⟨hreplayed, hunstopped⟩ := Part.endPreempted_left (p := s.part.heardEnded c.id) hc
        exact ⟨_, hleaves, Part.ended_replayed hreplayed false, Part.unstopped_ended hunstopped false⟩
      case replays =>
        intro left open_
        refine ⟨fun hnone => ?_, fun hsome hok hqueues _ => ?_⟩
        · have hdrops : (s.part.heardEnded c.id).endPreempted c =
              ((s.part.heardEnded c.id).modCues (·.idleZonesOf c.id)).dropCue c.id :=
            (Part.endPreempted_replays (p := s.part.heardEnded c.id) hr hs h).trans
              ((Part.replay_eq _ _ _).trans (if_pos (List.isEmpty_iff.mpr hnone)))
          rw [hdrops] at hleaves
          exact hleaves
        · obtain ⟨q, hq, hmem, hin, hzones, hframe, hsched⟩ := leaves_replay hp (hinTime ht) hc hf hr hs h (left := left)
            (kept := open_) rfl rfl hsome hok hqueues
          rw [Cue.asReplayed_eq] at hmem
          exact ⟨q, hq, hmem, hin, hzones, Part.eq_of_beyondCues hframe, hsched⟩
  case probe =>
    intro up h
    refine leaves_act (·.probeReplyLapse.hear Part.probeReply) rfl hp ?_
    show s.part.probeReplyLapse.hear Part.probeReply = _
    rw [Part.probeReplyLapse_of_inTime h]
    refine Part.hear_eq ?_
    by_cases hlost : s.part.cues.announcer = .lost
    · rw [if_pos hlost]
      exact if_pos (beq_iff_eq.mpr hlost)
    · rw [if_neg hlost]
      exact if_neg (mt beq_iff_eq.mp hlost)
  case probeLate =>
    intro t u h hlt hu
    obtain rfl := hu.part_eq Part.probeWaitExpiry rfl hp
    obtain ⟨hover, hpowered⟩ := Part.probeWaitExpiry_over h
    have hexec (s : State) : exec .cuePortProbeReply s = act (fun p => p.probeReplyLapse.hear Part.probeReply) s := rfl
    have hlapse : s.part.probeReplyLapse = s.part.probeWaitExpiry := if_pos (by rw [h]; exact decide_eq_true hlt)
    have hnone : s.part.probeWaitExpiry.probeReplyLapse = s.part.probeWaitExpiry :=
      Part.probeReplyLapse_of_inTime fun t ht => by
        rw [hover] at ht
        cases ht
    rw [hexec, hexec, act_powered _ s hp, act_powered _ { s with part := s.part.probeWaitExpiry } (hpowered.trans hp), hlapse, hnone]
  case zones =>
    intro z h1 h8
    have hzone {r : ZoneReport} {x : Part} (h : s.part.heardFrame.begin.zoneState z r = x.withEv s.part.heardFrame.begin.ev) :=
      leaves_heard (c := .cuePortZoneState z r) (·.zoneState z r) rfl hp h
    have hfault := Part.zoneState_fault (p := s.part.heardFrame.begin) h1 h8
    have hok := Part.zoneState_ok (p := s.part.heardFrame.begin) h1 h8
    have hcues : s.part.heardFrame.begin.cues.zone z = s.part.cues.zone z := rfl
    refine ⟨fun h => ⟨hzone (hfault.trans ?_), hzone (hok.trans (if_pos (beq_iff_eq.mpr h)))⟩,
      fun h => hzone (hok.trans (if_neg (mt beq_iff_eq.mp h))), fun h => hzone (hfault.trans ?_), fun c h => hzone (hfault.trans ?_)⟩
    · rw [Part.zoneFault, hcues, h]
      rfl
    · rw [Part.zoneFault, hcues, h]
      rfl
    · exact Part.zoneFault_cue (p := s.part.heardFrame.begin) h
  case zoneOutside =>
    intro z r h
    refine leaves_heard (·.zoneState z r) rfl hp ?_
    exact Part.zoneState_outside (p := s.part.heardFrame.begin) h r
  case broken => exact leaves_act (·.cueDiscard .broken) rfl hp rfl
  case unexpected => exact leaves_act (·.cueDiscard .unexpectedKind) rfl hp rfl

end Sys2Proof.Machine
end

section
/-! The releases of an examination, one after another (R156 to R158). -/

namespace Sys2Proof.Machine

/-! ## Eligibility (R156) -/

/-- The zones of a record in which its release is still to come. -/
def CueSched.waitingZones (q : CueSched) (c : Cue) : List Nat := c.pendingZones.filter fun z => q.zone z != .offline

theorem Cue.mem_pendingZones {c : Cue} {z : Nat} : z ∈ c.pendingZones ↔ (z, ZoneOutcome.pending) ∈ c.zones := by
  unfold Cue.pendingZones
  simp

theorem CueSched.mem_waitingZones {q : CueSched} {c : Cue} {z : Nat} : z ∈ q.waitingZones c ↔ q.waitsIn c z := by
  rw [CueSched.waitingZones, List.mem_filter, Cue.mem_pendingZones, bne_iff_ne]
  exact Iff.rfl

theorem Part.gateOpen_iff (p : Part) (service required : Nat) : p.gateOpen service required = true ↔ p.gateLaw service required := by
  have hline (n : Nat) : ((!p.chain.showing n || ((p.image.linesOf n).filter fun l => l.content.service == some service).isEmpty ||
        (notOlder (p.chain.delivered n) required && ((p.image.linesOf n).filter fun l => l.content.service == some service).all fun l =>
          notOlder (p.chain.delivered n) l.generation)) = true) ↔
      (p.chain.showing n = true → ∀ l ∈ p.image.linesOf n, l.content.service = some service →
        notOlder (p.chain.delivered n) required = true ∧ notOlder (p.chain.delivered n) l.generation = true) := by
    have hmem {l : WallLine} : l ∈ (p.image.linesOf n).filter (fun l => l.content.service == some service) ↔
        l ∈ p.image.linesOf n ∧ l.content.service = some service := by rw [List.mem_filter, beq_iff_eq]
    rw [Bool.or_eq_true, Bool.or_eq_true, Bool.not_eq_true', ← Bool.not_eq_true, List.isEmpty_iff, Bool.and_eq_true, List.all_eq_true]
    constructor
    · rintro ((hs | hnone) | ⟨hr, hall⟩) hshow l hl hservice
      · exact absurd hshow hs
      · exact absurd (hmem.mpr ⟨hl, hservice⟩) (hnone ▸ List.not_mem_nil)
      · exact ⟨hr, hall l (hmem.mpr ⟨hl, hservice⟩)⟩
    · intro h
      by_cases hshow : p.chain.showing n = true
      · cases hmine : (p.image.linesOf n).filter fun l => l.content.service == some service with
        | nil => exact .inl (.inr rfl)
        | cons a l =>
          rw [← hmine]
          have ha : a ∈ (p.image.linesOf n).filter fun l => l.content.service == some service := hmine ▸ List.mem_cons_self
          exact .inr ⟨(h hshow a (hmem.mp ha).1 (hmem.mp ha).2).1, fun l hl => (h hshow l (hmem.mp hl).1 (hmem.mp hl).2).2⟩
      · exact .inl (.inl hshow)
  have hidle : (!p.chain.test.isRunning) = true ↔ p.chain.test.phase = .idle := by simp [LinkTest.isRunning]
  rw [Part.gateOpen, Bool.and_eq_true, hidle, List.all_eq_true]
  refine and_congr_right fun _ => ⟨fun h n h1 h12 => (hline n).mp (h n (mem_numbersFrom.mpr (by omega))), fun h n hn => ?_⟩
  obtain ⟨h1, h12⟩ := mem_numbersFrom.mp hn
  exact (hline n).mpr (h n h1 (by omega))

theorem Part.eligibleCue_iff (p : Part) (c : Cue) : p.eligibleCue c = true ↔ p.mayRelease c := by
  have hgate : (c.template != some .change || (match c.required, c.service with
      | some g, some id => p.gateOpen id g
      | _, _ => false)) = true ↔
      (c.template = some .change → ∃ g id, c.required = some g ∧ c.service = some id ∧ p.gateLaw id g) := by
    rw [Bool.or_eq_true, bne_iff_ne]
    by_cases htemplate : c.template = some .change
    · rw [or_iff_right (not_not.mpr htemplate), forall_prop_of_true htemplate]
      cases hr : c.required with
      | none => simp
      | some g =>
        cases hs : c.service with
        | none => simp
        | some id => simp [Part.gateOpen_iff]
    · exact ⟨fun _ h => absurd h htemplate, fun _ => .inl htemplate⟩
  have hsome : (!(p.cues.waitingZones c).isEmpty) = true ↔ ∃ z, p.cues.waitsIn c z := by
    rw [Bool.not_eq_true', ← Bool.not_eq_true, List.isEmpty_iff, ← Ne, List.ne_nil_iff_exists_cons]
    constructor
    · rintro ⟨z, l, h⟩
      exact ⟨z, CueSched.mem_waitingZones.mp (h ▸ List.mem_cons_self)⟩
    · rintro ⟨z, h⟩
      exact List.exists_cons_of_ne_nil (List.ne_nil_of_mem (CueSched.mem_waitingZones.mpr h))
  have hall : ((p.cues.waitingZones c).all fun z => p.cues.zone z == .idle && (p.cues.queue z).head? == some c.id) = true ↔
      ∀ z, p.cues.waitsIn c z → p.cues.zone z = .idle ∧ (p.cues.queue z).head? = some c.id := by
    simp only [List.all_eq_true, Bool.and_eq_true, beq_iff_eq, CueSched.mem_waitingZones]
  have heligible : p.eligibleCue c = (c.isQueued && p.cues.announcer == .up && !(p.cues.waitingZones c).isEmpty &&
      (p.cues.waitingZones c).all (fun z => p.cues.zone z == .idle && (p.cues.queue z).head? == some c.id) &&
      (c.template != some .change || (match c.required, c.service with
        | some g, some id => p.gateOpen id g
        | _, _ => false))) := rfl
  rw [heligible, Bool.and_eq_true, hgate, Bool.and_eq_true, hall, Bool.and_eq_true, hsome, Bool.and_eq_true, beq_iff_eq, Cue.isQueued,
    beq_iff_eq]
  unfold Part.mayRelease
  simp only [and_assoc]

/-! ## One release -/

/-- The release of a record with the zones in which it plays and those in which it fails given (R158). -/
def Part.releaseIn (p : Part) (off : Nat → Bool) (c : Cue) : Part :=
  let failed := c.pendingZones.filter fun z => off z
  let on := c.pendingZones.filter fun z => !off z
  let p := p.modCues fun q =>
    let q := { q with queues := q.queues.map fun (l : List Nat) => l.filter (· != c.id) }
    let q := on.foldl (fun q z => q.setZone z (.playing c.id)) q
    let q := q.modCue c.id fun c => { c.setOutcome failed.contains .failed with flight := .sent (p.elapsed + 2000) }
    q.transmit fun t => .play t c.id on c.tokens
  let p := if failed.isEmpty then p else p.latchNat .cueFailed c.id
  p.tellPlay c

/-- The zones that are OFFLINE. -/
def CueSched.offline (q : CueSched) (z : Nat) : Bool := q.zone z == .offline

theorem Part.releaseCue_eq (p : Part) (c : Cue) : p.releaseCue c = p.releaseIn p.cues.offline c := by
  have hoff : (fun z => p.cues.zone z == ZoneState.offline) = fun z => p.cues.offline z := rfl
  have hon : (fun z => p.cues.zone z != ZoneState.offline) = fun z => !p.cues.offline z := rfl
  unfold Part.releaseCue Part.releaseIn
  rw [hoff, hon]

/-- Some zones PLAYING a record. -/
def setPlaying (zones : List ZoneState) (on : List Nat) (id : Nat) : List ZoneState :=
  on.foldl (fun zs z => updateAt zs (z - 1) fun _ => .playing id) zones

theorem foldl_setZone_zones (on : List Nat) (id : Nat) (q : CueSched) :
    (on.foldl (fun q z => q.setZone z (.playing id)) q).zones = setPlaying q.zones on id := by
  induction on generalizing q with
  | nil => rfl
  | cons z on ih => exact ih (q.setZone z (.playing id))

/-- The record as its release leaves it. -/
def Cue.released (c : Cue) (off : Nat → Bool) (src : Cue) (limit : Nat) : Cue :=
  { c.setOutcome (src.pendingZones.filter off).contains .failed with flight := .sent limit }

theorem Part.tellPlay_cues (p : Part) (c : Cue) : (p.tellPlay c).cues = p.cues := by
  unfold Part.tellPlay
  split <;> rfl

theorem Part.releaseIn_cues (p : Part) (off : Nat → Bool) (c : Cue) : (p.releaseIn off c).cues = { p.cues with
    pool := p.cues.pool.map fun x => if x.id == c.id then x.released off c (p.elapsed + 2000) else x
    queues := p.cues.queues.map fun (l : List Nat) => l.filter (· != c.id)
    zones := setPlaying p.cues.zones (c.pendingZones.filter fun z => !off z) c.id
    tx := p.cues.tx ++ [.play p.cues.tag c.id (c.pendingZones.filter fun z => !off z) c.tokens]
    tag := (p.cues.tag + 1) % 256 } := by
  have hlatch (q : Part) (b : Prop) [Decidable b] : (if b then q else q.latchNat .cueFailed c.id).cues = q.cues := by
    split <;> rfl
  unfold Part.releaseIn
  dsimp only
  rw [Part.tellPlay_cues, hlatch]
  dsimp only [Part.modCues]
  rw [foldl_setZone_frame, foldl_setZone_zones]
  rfl

theorem Part.releaseIn_table (p : Part) (off : Nat → Bool) (c : Cue) : (p.releaseIn off c).table = (p.tellPlay c).table := by
  have htell (q : Part) (h : q.table = p.table) : (q.tellPlay c).table = (p.tellPlay c).table := by
    unfold Part.tellPlay
    unfold Part.modRecord Part.mapRecords
    split
    · dsimp only
      rw [h]
    · exact h
  unfold Part.releaseIn
  dsimp only
  refine htell _ ?_
  split <;> rfl

theorem Part.releaseIn_elapsed (p : Part) (off : Nat → Bool) (c : Cue) : (p.releaseIn off c).elapsed = p.elapsed := by
  have htell (q : Part) : (q.tellPlay c).elapsed = q.elapsed := by
    unfold Part.tellPlay
    split <;> rfl
  unfold Part.releaseIn
  dsimp only
  rw [htell]
  split <;> rfl

theorem Part.releaseIn_port (p : Part) (off : Nat → Bool) (c : Cue) (l : Link) : (p.releaseIn off c).port l =
    if (c.pendingZones.filter fun z => off z).isEmpty then p.port l else (p.port l).latch .cueFailed (BitVec.ofNat 16 c.id) := by
  have htell (q : Part) : (q.tellPlay c).port l = q.port l := by
    unfold Part.tellPlay
    split
    · cases l <;> rfl
    · rfl
  unfold Part.releaseIn
  dsimp only
  rw [htell]
  split
  · cases l <;> rfl
  · cases l <;> rfl

/-- The state of a zone once some zones have been set to PLAYING. -/
theorem setPlaying_getElem? (zones : List ZoneState) (on : List Nat) (id i : Nat) :
    (setPlaying zones on id)[i]? = zones[i]?.map fun st => if ∃ z ∈ on, z - 1 = i then .playing id else st := by
  induction on generalizing zones with
  | nil => simp [setPlaying]
  | cons z on ih =>
    have hstep : setPlaying zones (z :: on) id = setPlaying (updateAt zones (z - 1) fun _ => .playing id) on id := rfl
    rw [hstep, ih, updateAt_getElem?]
    by_cases hz : z - 1 = i
    · rw [if_pos hz, Option.map_map]
      congr 1
      funext st
      rw [if_pos ⟨z, List.mem_cons_self, hz⟩]
      exact ite_self _
    · rw [if_neg hz]
      congr 1
      funext st
      simp [hz]

/-! ## The releases one after another -/

theorem Part.releaseIn_offline {p : Part} (c : Cue) : (p.releaseIn p.cues.offline c).cues.offline = p.cues.offline := by
  funext z
  unfold CueSched.offline CueSched.zone
  rw [Part.releaseIn_cues, List.getD_eq_getElem?_getD, List.getD_eq_getElem?_getD, setPlaying_getElem?]
  cases hst : p.cues.zones[z - 1]? with
  | none => rfl
  | some st =>
    rw [Option.map_some, Option.getD_some, Option.getD_some]
    split
    · next hon =>
      obtain ⟨y, hy, hyz⟩ := hon
      have hoff := (List.mem_filter.mp hy).2
      simp only [List.getD_eq_getElem?_getD, hyz, hst, Option.getD_some, Bool.not_eq_true'] at hoff
      rw [hoff]
      rfl
    · rfl

/-- During an examination the zones that are OFFLINE stay the same. -/
theorem Part.foldl_releaseCue (l : List Cue) {p : Part} {off : Nat → Bool} (h : p.cues.offline = off) :
    l.foldl Part.releaseCue p = l.foldl (fun p c => p.releaseIn off c) p := by
  induction l generalizing p with
  | nil => rfl
  | cons c l ih =>
    subst h
    rw [List.foldl_cons, List.foldl_cons, Part.releaseCue_eq]
    exact ih (Part.releaseIn_offline c)

section
variable (off : Nat → Bool) (l : List Cue)

/-- The zones in which a record plays when it is released. -/
def Cue.playsIn (c : Cue) (off : Nat → Bool) : List Nat := c.pendingZones.filter fun z => !off z

/-- The zones in which a record fails when it is released. -/
def Cue.failsIn (c : Cue) (off : Nat → Bool) : List Nat := c.pendingZones.filter fun z => off z

theorem Part.releases_elapsed (p : Part) : (l.foldl (fun p c => p.releaseIn off c) p).elapsed = p.elapsed :=
  foldl_keeps Part.elapsed (fun p c => p.releaseIn off c) (fun p c => p.releaseIn_elapsed off c) l p

theorem Part.releases_tx (p : Part) : (l.foldl (fun p c => p.releaseIn off c) p).cues.tx = p.cues.tx ++
    (l.zip (List.range l.length)).map fun ck =>
      .play (times ck.2 (fun t => (t + 1) % 256) p.cues.tag) ck.1.id (ck.1.playsIn off) ck.1.tokens := by
  induction l generalizing p with
  | nil => simp
  | cons c l ih =>
    rw [List.foldl_cons, ih, Part.releaseIn_cues, List.length_cons, List.range_succ_eq_map, List.zip_cons_cons, List.map_cons,
      List.append_assoc, List.singleton_append, List.zip_map_right, List.map_map]
    rfl

theorem Part.releases_queues (p : Part) : (l.foldl (fun p c => p.releaseIn off c) p).cues.queues =
    p.cues.queues.map fun q => q.filter fun id => l.all fun c => id != c.id := by
  induction l generalizing p with
  | nil => simp
  | cons c l ih =>
    rw [List.foldl_cons, ih, Part.releaseIn_cues, List.map_map]
    refine List.map_congr_left fun q _ => ?_
    simp only [Function.comp, List.filter_filter, List.all_cons, Bool.and_comm]

/-- A zone in which the records that play have one id. -/
theorem Part.releases_zone (p : Part) (i : Nat) : (l.foldl (fun p c => p.releaseIn off c) p).cues.zones[i]? =
    p.cues.zones[i]?.map fun st => l.foldl (fun st c => if ∃ z ∈ c.playsIn off, z - 1 = i then .playing c.id else st) st := by
  induction l generalizing p with
  | nil => simp
  | cons c l ih =>
    rw [List.foldl_cons, ih, Part.releaseIn_cues, setPlaying_getElem?, Option.map_map]
    rfl

theorem Part.releases_pool (p : Part) : (l.foldl (fun p c => p.releaseIn off c) p).cues.pool =
    p.cues.pool.map fun x => l.foldl (fun x c => if x.id == c.id then x.released off c (p.elapsed + 2000) else x) x := by
  induction l generalizing p with
  | nil => simp
  | cons c l ih =>
    rw [List.foldl_cons, ih, Part.releaseIn_cues, Part.releaseIn_elapsed, List.map_map]
    rfl

/-- The flag that a PLAY sets in a record of the table (R82). -/
def Record.told (r : Record) (c : Cue) : Record :=
  if c.template = some .change ∧ c.service = some r.id then { r with mark := r.mark.map fun m => { m with announced := true } } else r

theorem Part.tellPlay_table (p : Part) (c : Cue) :
    (p.tellPlay c).table = { p.table with records := p.table.records.map fun r => r.told c } := by
  have hid {f : Record → Record} (h : ∀ r, f r = r) : p.table = { p.table with records := p.table.records.map f } := by
    rw [List.map_congr_left fun r _ => h r, List.map_id']
  unfold Part.tellPlay
  split
  · next id ht hs =>
    unfold Part.modRecord Part.mapRecords
    dsimp only
    congr 1
    refine List.map_congr_left fun r _ => ?_
    rw [Record.told, ht, hs]
    by_cases h : r.id = id
    · rw [if_pos (beq_iff_eq.mpr h), if_pos ⟨rfl, congrArg some h.symm⟩]
    · rw [if_neg (mt beq_iff_eq.mp h), if_neg fun hs => h (Option.some.inj hs.2).symm]
  · next hno =>
    refine hid fun r => if_neg ?_
    rintro ⟨ht, hs⟩
    exact hno r.id ht hs

theorem Part.releases_table (p : Part) : (l.foldl (fun p c => p.releaseIn off c) p).table =
    { p.table with records := p.table.records.map fun r => l.foldl Record.told r } := by
  induction l generalizing p with
  | nil => simp
  | cons c l ih =>
    rw [List.foldl_cons, ih, Part.releaseIn_table, Part.tellPlay_table]
    dsimp only
    rw [List.map_map]
    rfl

theorem Part.releases_isLatched (p : Part) (k : Link) : ((l.foldl (fun p c => p.releaseIn off c) p).port k).isLatched .cueFailed =
    ((p.port k).isLatched .cueFailed || l.any fun c => !(c.failsIn off).isEmpty) := by
  induction l generalizing p with
  | nil => simp
  | cons c l ih =>
    rw [List.foldl_cons, ih, Part.releaseIn_port, List.any_cons]
    split
    · next h =>
      have hnone : (c.failsIn off).isEmpty = true := h
      rw [hnone, Bool.not_true, Bool.false_or]
    · next h =>
      have hsome : (c.failsIn off).isEmpty = false := Bool.eq_false_iff.mpr h
      rw [hsome, Port.latch_isLatched_same]
      simp

end

/-! ## Each record and each zone -/

/-- A record of the table of which several cues are played is told once. -/
theorem Record.foldl_told (l : List Cue) (r : Record) : l.foldl Record.told r =
    if ∃ c ∈ l, c.template = some .change ∧ c.service = some r.id then { r with mark := r.mark.map fun m => { m with announced := true } }
    else r := by
  induction l generalizing r with
  | nil => simp
  | cons c l ih =>
    rw [List.foldl_cons, ih]
    by_cases h : c.template = some .change ∧ c.service = some r.id
    · have htold : r.told c = { r with mark := r.mark.map fun m => { m with announced := true } } := if_pos h
      have hexists : ∃ d ∈ c :: l, d.template = some .change ∧ d.service = some r.id := ⟨c, List.mem_cons_self, h⟩
      rw [htold, if_pos hexists]
      split
      · cases r.mark <;> rfl
      · rfl
    · have htold : r.told c = r := if_neg h
      rw [htold]
      simp only [List.mem_cons, exists_eq_or_imp, h, false_or]

theorem Cue.foldl_released_none {l : List Cue} {x : Cue} (h : ∀ c ∈ l, c.id ≠ x.id) (off : Nat → Bool) (limit : Nat) :
    l.foldl (fun x c => if x.id == c.id then x.released off c limit else x) x = x := by
  induction l with
  | nil => rfl
  | cons c l ih =>
    rw [List.foldl_cons, if_neg (by rw [beq_iff_eq]; exact (h c List.mem_cons_self).symm)]
    exact ih fun d hd => h d (List.mem_cons_of_mem c hd)

/-- A record of a pool of unique ids is released by itself alone. -/
theorem Cue.foldl_released {l : List Cue} {x : Cue} (hself : ∀ c ∈ l, c.id = x.id → c = x) (hnodup : l.Nodup) (off : Nat → Bool)
    (limit : Nat) : l.foldl (fun x c => if x.id == c.id then x.released off c limit else x) x =
      if x ∈ l then x.released off x limit else x := by
  induction l with
  | nil => rfl
  | cons c l ih =>
    obtain ⟨hfresh, hnodup⟩ := List.nodup_cons.mp hnodup
    rw [List.foldl_cons]
    by_cases hid : c.id = x.id
    · obtain rfl := hself c List.mem_cons_self hid
      rw [if_pos (beq_self_eq_true _), if_pos List.mem_cons_self]
      refine Cue.foldl_released_none (x := c.released off c limit) (fun d hd hdid => ?_) off limit
      exact hfresh (hself d (List.mem_cons_of_mem c hd) hdid ▸ hd)
    · have hne : x ≠ c := fun h => hid (h ▸ rfl)
      rw [if_neg (by rw [beq_iff_eq]; exact Ne.symm hid), ih (fun d hd => hself d (List.mem_cons_of_mem c hd)) hnodup]
      simp only [List.mem_cons, hne, false_or]

/-- The state of a zone in which every record that plays has the id of `c`. -/
theorem foldl_playing {l : List Cue} {off : Nat → Bool} {i : Nat} {c : Cue} (hc : c ∈ l) (hplays : ∃ z ∈ c.playsIn off, z - 1 = i)
    (hid : ∀ d ∈ l, (∃ z ∈ d.playsIn off, z - 1 = i) → d.id = c.id) (st : ZoneState) :
    l.foldl (fun st c => if ∃ z ∈ c.playsIn off, z - 1 = i then .playing c.id else st) st = .playing c.id := by
  have hstays (m : List Cue) (hm : ∀ d ∈ m, d ∈ l) :
      m.foldl (fun st c => if ∃ z ∈ c.playsIn off, z - 1 = i then ZoneState.playing c.id else st) (.playing c.id) =
        ZoneState.playing c.id := by
    induction m with
    | nil => rfl
    | cons d m ih =>
      have hone : (if ∃ z ∈ d.playsIn off, z - 1 = i then ZoneState.playing d.id else .playing c.id) = .playing c.id := by
        split
        · next h => rw [hid d (hm d List.mem_cons_self) h]
        · rfl
      rw [List.foldl_cons, hone]
      exact ih fun e he => hm e (List.mem_cons_of_mem d he)
  obtain ⟨before, after, rfl⟩ := List.append_of_mem hc
  rw [List.foldl_append, List.foldl_cons, if_pos hplays]
  exact hstays after fun d hd => List.mem_append_right _ (List.mem_cons_of_mem c hd)

theorem foldl_playing_none {l : List Cue} {off : Nat → Bool} {i : Nat} (h : ∀ c ∈ l, ∀ z ∈ c.playsIn off, z - 1 ≠ i) (st : ZoneState) :
    l.foldl (fun st c => if ∃ z ∈ c.playsIn off, z - 1 = i then .playing c.id else st) st = st := by
  induction l with
  | nil => rfl
  | cons c l ih =>
    have hno : ¬∃ z ∈ c.playsIn off, z - 1 = i := fun ⟨z, hz, hzi⟩ => h c List.mem_cons_self z hz hzi
    rw [List.foldl_cons, if_neg hno]
    exact ih fun d hd => h d (List.mem_cons_of_mem c hd)

end Sys2Proof.Machine
end

section
/-! The lines of the wall (section 7): what a composition puts on each line. -/

namespace Sys2Proof.Machine

/-! ## Texts -/

theorem fit_eq_padded (n : Nat) (t : Text) : fit n t = padded n t := by
  unfold fit padded
  rw [List.take_append, List.take_replicate]
  congr 2
  omega

theorem printable_eq (c : Byte) : printable c = if 0x20 ≤ c.toNat ∧ c.toNat ≤ 0x7E then c else 0x20 := by
  unfold printable
  simp only [Bool.and_eq_true, decide_eq_true_eq]

theorem inColumns_eq (t : Text) : inColumns t = onLine t := by
  unfold inColumns onLine
  rw [fit_eq_padded]
  exact List.map_congr_left fun c _ => printable_eq c

theorem padded_of_length {n : Nat} {t : Text} (h : t.length = n) : padded n t = t := by
  unfold padded
  rw [List.take_append_of_le_length (by omega), List.take_of_length_le (by omega)]

/-- A text of 48 characters on a line. -/
theorem onLine_of_length {t : Text} (h : t.length = 48) : onLine t = t.map printable := by
  unfold onLine
  rw [padded_of_length h]
  exact (List.map_congr_left fun c _ => printable_eq c).symm

theorem onLine_nil : onLine [] = blankText := by decide

theorem joinNames_eq (l : List Text) : joinNames l = List.intercalate [44, 32] l := by
  induction l with
  | nil => rfl
  | cons a l ih =>
    cases l with
    | nil => simp [joinNames, List.intercalate]
    | cons b l =>
      rw [joinNames, ih]
      · simp [List.intercalate]
      · exact List.cons_ne_nil b l

theorem hhmm_eq (h : Nat) (t : Int) : hhmm h t = timeShown h t := rfl

/-! ## Roles (R104, R105) -/

/-- The code of the role of wall line `n`, counted from 0. -/
def Part.roleCode (p : Part) (n : Nat) : Nat := if n < 32 then byteField (p.row 2) n else byteField (p.row 3) (n - 32)

theorem Part.layoutRole_eq (p : Part) (n : Nat) : p.layoutRole (n + 1) = roleOfByte (p.roleCode n) := by
  unfold Part.layoutRole Part.roleCode
  by_cases h : n < 32
  · rw [if_pos h, if_pos (by omega)]
    rfl
  · rw [if_neg h, if_neg (by omega)]
    congr 2

theorem roleOfByte_departure {b k : Nat} (h1 : 1 ≤ k) (h40 : k ≤ 40) : roleOfByte b = .departure k ↔ b = k + 1 := by
  unfold roleOfByte
  simp only [beq_iff_eq]
  split
  · simp; omega
  · split
    · simp; omega
    · split
      · simp; omega
      · split <;> simp <;> omega

theorem roleOfByte_detail {b k : Nat} (h1 : 1 ≤ k) (h40 : k ≤ 40) : roleOfByte b = .detail k ↔ b = k + 41 := by
  unfold roleOfByte
  simp only [beq_iff_eq]
  split
  · simp; omega
  · split
    · simp; omega
    · split
      · simp; omega
      · split <;> simp <;> omega

theorem roleOfByte_blank {b : Nat} (h : 81 < b) : roleOfByte b = .blank := by
  unfold roleOfByte
  rw [if_neg (by rw [beq_iff_eq]; omega), if_neg (by rw [beq_iff_eq]; omega), if_neg (by omega), if_neg (by omega)]

/-- A role that only one line may have (R105). -/
def Role.isRow : Role → Bool
  | .departure _ | .detail _ => true
  | .banner | .clock | .blank => false

theorem roleOfByte_isRow {b : Nat} (h2 : 2 ≤ b) (h81 : b ≤ 81) : (roleOfByte b).isRow = true := by
  unfold roleOfByte
  rw [if_neg (by rw [beq_iff_eq]; omega), if_neg (by rw [beq_iff_eq]; omega)]
  split
  · rfl
  · rfl

/-- Codes of rows that name one role are the same. -/
theorem roleOfByte_inj {a b : Nat} (h2 : 2 ≤ b) (h81 : b ≤ 81) : roleOfByte a = roleOfByte b ↔ a = b := by
  refine ⟨fun h => ?_, fun h => h ▸ rfl⟩
  by_cases hb : b ≤ 41
  · have hrole : roleOfByte b = .departure (b - 1) := (roleOfByte_departure (by omega) (by omega)).mpr (by omega)
    have := (roleOfByte_departure (by omega) (by omega)).mp (h.trans hrole)
    omega
  · have hrole : roleOfByte b = .detail (b - 41) := (roleOfByte_detail (by omega) (by omega)).mpr (by omega)
    have := (roleOfByte_detail (by omega) (by omega)).mp (h.trans hrole)
    omega

/-- The role of a line after R105: a row's role that a lower line has is blank. -/
theorem dedupRoles_getElem? (seen roles : List Role) (n : Nat) : (dedupRoles seen roles)[n]? = roles[n]?.map fun r =>
    if r.isRow = true ∧ (r ∈ seen ∨ ∃ m, m < n ∧ roles[m]? = some r) then .blank else r := by
  induction roles generalizing seen n with
  | nil => rfl
  | cons r rs ih =>
    have hlater (seen' : List Role) (hseen : ∀ x : Role, x.isRow = true → (x ∈ seen' ↔ x = r ∨ x ∈ seen)) (n : Nat) :
        (dedupRoles seen' rs)[n]? = rs[n]?.map fun x =>
          if x.isRow = true ∧ (x ∈ seen ∨ ∃ m, m < n + 1 ∧ (r :: rs)[m]? = some x) then .blank else x := by
      rw [ih]
      congr 1
      funext x
      refine if_congr (and_congr_right fun hx => ?_) rfl rfl
      have hsplit : (∃ m, m < n + 1 ∧ (r :: rs)[m]? = some x) ↔ x = r ∨ ∃ m, m < n ∧ rs[m]? = some x := by
        constructor
        · rintro ⟨m, hm, hget⟩
          cases m with
          | zero => exact .inl (Option.some.inj hget).symm
          | succ m => exact .inr ⟨m, by omega, hget⟩
        · rintro (rfl | ⟨m, hm, hget⟩)
          · exact ⟨0, by omega, rfl⟩
          · exact ⟨m + 1, by omega, hget⟩
      rw [hseen x hx, hsplit]
      tauto
    have hplain (h : r.isRow = false) : (r :: dedupRoles seen rs)[n]? = (r :: rs)[n]?.map fun x =>
        if x.isRow = true ∧ (x ∈ seen ∨ ∃ m, m < n ∧ (r :: rs)[m]? = some x) then .blank else x := by
      cases n with
      | zero => simp [h]
      | succ n =>
        refine hlater seen (fun x hx => ⟨.inr, fun hor => hor.resolve_left ?_⟩) n
        rintro rfl
        rw [h] at hx
        cases hx
    have hrow (h : r.isRow = true) : (if seen.contains r then Role.blank :: dedupRoles seen rs else r :: dedupRoles (r :: seen) rs)[n]? =
        (r :: rs)[n]?.map fun x => if x.isRow = true ∧ (x ∈ seen ∨ ∃ m, m < n ∧ (r :: rs)[m]? = some x) then .blank else x := by
      by_cases hin : r ∈ seen
      · rw [if_pos (List.contains_iff_mem.mpr hin)]
        cases n with
        | zero => simp [h, hin]
        | succ n =>
          refine hlater seen (fun x _ => ⟨.inr, fun hor => hor.elim (fun he => he ▸ hin) id⟩) n
      · rw [if_neg (mt List.contains_iff_mem.mp hin)]
        cases n with
        | zero => simp [hin]
        | succ n => exact hlater (r :: seen) (fun x _ => List.mem_cons) n
    cases r with
    | banner => exact hplain rfl
    | clock => exact hplain rfl
    | blank => exact hplain rfl
    | departure k => exact hrow rfl
    | detail k => exact hrow rfl

/-- The role code of line `n` is that of a lower line too. -/
def Part.roleRepeated (p : Part) (n : Nat) : Prop := ∃ m, m < n ∧ p.roleCode m = p.roleCode n

theorem Part.roles_getElem? (p : Part) {n : Nat} (hn : n < 48) :
    ((2 ≤ p.roleCode n ∧ p.roleCode n ≤ 81) ∧ p.roleRepeated n → p.roles[n]? = some .blank) ∧
    (¬((2 ≤ p.roleCode n ∧ p.roleCode n ≤ 81) ∧ p.roleRepeated n) → p.roles[n]? = some (roleOfByte (p.roleCode n))) := by
  have hget {m : Nat} (hm : m < 48) : ((numbersFrom 1 48).map p.layoutRole)[m]? = some (roleOfByte (p.roleCode m)) := by
    rw [List.getElem?_map, numbersFrom, List.getElem?_map, List.getElem?_range hm, Option.map_some, Option.map_some, Nat.add_comm,
      Part.layoutRole_eq]
  have hroles : p.roles[n]? = some (if (roleOfByte (p.roleCode n)).isRow = true ∧ (roleOfByte (p.roleCode n) ∈ ([] : List Role) ∨
      ∃ m, m < n ∧ ((numbersFrom 1 48).map p.layoutRole)[m]? = some (roleOfByte (p.roleCode n))) then .blank
      else roleOfByte (p.roleCode n)) := by
    rw [Part.roles, dedupRoles_getElem?, hget hn, Option.map_some]
  have hiff : ((roleOfByte (p.roleCode n)).isRow = true ∧ (roleOfByte (p.roleCode n) ∈ ([] : List Role) ∨
      ∃ m, m < n ∧ ((numbersFrom 1 48).map p.layoutRole)[m]? = some (roleOfByte (p.roleCode n)))) ↔
      (2 ≤ p.roleCode n ∧ p.roleCode n ≤ 81) ∧ p.roleRepeated n := by
    rw [or_iff_right List.not_mem_nil]
    by_cases hrow : 2 ≤ p.roleCode n ∧ p.roleCode n ≤ 81
    · obtain ⟨h2, h81⟩ := hrow
      refine and_congr (iff_of_true (roleOfByte_isRow h2 h81) ⟨h2, h81⟩) (exists_congr fun m => and_congr_right fun hm => ?_)
      rw [hget (by omega), Option.some.injEq, roleOfByte_inj h2 h81]
    · refine iff_of_false (fun h => ?_) fun h => hrow h.1
      have hnot : (roleOfByte (p.roleCode n)).isRow = false := by
        unfold roleOfByte
        simp only [beq_iff_eq]
        split
        · rfl
        · split
          · rfl
          · rw [if_neg (by omega), if_neg (by omega)]
            rfl
      rw [hnot] at h
      exact Bool.false_ne_true h.1
  exact ⟨fun h => hroles.trans (congrArg some (if_pos (hiff.mpr h))), fun h => hroles.trans (congrArg some (if_neg (mt hiff.mp h)))⟩

/-! ## The banner (R100, R102) -/

theorem Part.actionsInForce_iff (p : Part) (i : Nat) : p.actionsInForce i = true ↔ p.acts i := by
  simp only [Part.actionsInForce, Part.acts, Bool.and_eq_true, Bool.or_eq_true, beq_iff_eq]

theorem Part.noticeText_law (p : Part) (n : Notice) : p.noticeLaw n (p.noticeText n) := by
  have hrecord {r : Record} (hr : n.service.bind p.record? = some r) (h : n.kind ≠ .posted ∧ n.kind ≠ .stale) :
      p.noticeText n = p.recordNoticeText n.kind r := by
    unfold Part.noticeText
    cases hk : n.kind with
    | posted => exact absurd hk h.1
    | stale => exact absurd hk h.2
    | _ => rw [hr]
  refine ⟨fun h => ?_, fun h => ?_, fun r hr => ⟨fun h q hq => ?_, fun h hq => ?_, fun h => ?_, fun h m hm => ?_, fun h => ?_⟩⟩
  · rw [Part.noticeText, h]
  · rw [Part.noticeText, h]
    rfl
  · rw [hrecord hr (by rw [h]; decide), h, Part.recordNoticeText, hq]
    rfl
  · rw [hrecord hr (by rw [h]; decide), h, Part.recordNoticeText, hq]
    rfl
  · rw [hrecord hr (by rw [h]; decide), h, Part.recordNoticeText]
    rfl
  · rw [hrecord hr (by rw [h]; decide), h, Part.recordNoticeText, hm]
    rfl
  · rw [hrecord hr (by rw [h]; decide), h, Part.recordNoticeText]
    rfl

/-- The input that speaks on the banner. -/
def Part.speaker? (p : Part) : Option Nat := (List.range 4).find? fun i => p.actionsInForce i && (p.inputConfig i).banner != .noChoice

theorem Part.speaks_iff (p : Part) (i : Nat) : (p.actionsInForce i && (p.inputConfig i).banner != .noChoice) = true ↔
    p.acts i ∧ (p.inputConfig i).banner ≠ .noChoice := by
  rw [Bool.and_eq_true, Part.actionsInForce_iff, bne_iff_ne]

theorem Part.speaker?_some {p : Part} {i : Nat} (hi : i < 4) (h : p.acts i ∧ (p.inputConfig i).banner ≠ .noChoice)
    (hfirst : ∀ j, j < i → ¬(p.acts j ∧ (p.inputConfig j).banner ≠ .noChoice)) : p.speaker? = some i := by
  rw [Part.speaker?, List.find?_eq_some_iff_getElem]
  refine ⟨(p.speaks_iff i).mpr h, i, by simpa using hi, by simp, fun j hj => ?_⟩
  rw [Bool.not_eq_true', ← Bool.not_eq_true, List.getElem_range, p.speaks_iff]
  exact hfirst j hj

theorem Part.speaker?_none {p : Part} (h : ∀ i, i < 4 → ¬(p.acts i ∧ (p.inputConfig i).banner ≠ .noChoice)) : p.speaker? = none := by
  rw [Part.speaker?, List.find?_eq_none]
  exact fun i hi hs => h i (List.mem_range.mp hi) ((p.speaks_iff i).mp hs)

theorem Part.bannerText_input {p : Part} {i : Nat} (h : p.speaker? = some i) :
    p.bannerText = p.textRow (if (p.inputConfig i).banner = .textA then 6 else 7) := by
  have hsource : p.bannerSource = .input (i + 1) := by
    unfold Part.bannerSource
    rw [show ((List.range 4).find? fun i => p.actionsInForce i && (p.inputConfig i).banner != .noChoice) = some i from h]
  rw [Part.bannerText, hsource]
  dsimp only
  rw [Nat.add_sub_cancel]
  by_cases hb : (p.inputConfig i).banner = .textA
  · rw [if_pos hb, if_pos (beq_iff_eq.mpr hb)]
  · rw [if_neg hb, if_neg (mt beq_iff_eq.mp hb)]

theorem Part.bannerSource_of_silence {p : Part} (h : p.speaker? = none) : p.bannerSource =
    if p.feed.state == .lost then .fallback else if p.effectiveBanner.enabled then .override
    else if p.notices.shown.isSome then .rotation else .blank := by
  unfold Part.bannerSource
  rw [show ((List.range 4).find? fun i => p.actionsInForce i && (p.inputConfig i).banner != .noChoice) = none from h]

theorem Part.bannerText_law (p : Part) : p.bannerLaw p.bannerText := by
  refine ⟨fun i hi hs hfirst => Part.bannerText_input (Part.speaker?_some hi hs hfirst), fun hnone => ?_⟩
  have hsource := Part.bannerSource_of_silence (Part.speaker?_none hnone)
  refine ⟨fun hl => ?_, fun hl he => ?_, fun hl he => ?_⟩
  · rw [Part.bannerText, hsource.trans (if_pos (beq_iff_eq.mpr hl))]
    rfl
  · have hsource := (hsource.trans (if_neg (mt beq_iff_eq.mp hl))).trans (if_pos he)
    rw [Part.bannerText, hsource]
    rfl
  · have hoff : ¬p.effectiveBanner.enabled = true := by
      rw [show p.effectiveBanner.enabled = false from he]
      exact Bool.false_ne_true
    have hsource := (hsource.trans (if_neg (mt beq_iff_eq.mp hl))).trans (if_neg hoff)
    refine ⟨fun hshown => ?_, fun x n hx hn => ?_⟩
    · rw [hshown] at hsource
      rw [Part.bannerText, hsource]
      rfl
    · rw [hx] at hsource
      refine ⟨p.noticeText n, p.noticeText_law n, ?_⟩
      rw [Part.bannerText, hsource]
      show p.rotationText = _
      rw [Part.rotationText, hx]
      dsimp only
      rw [hn]
      rfl

/-! ## The lines (R106 to R112) -/

theorem blankLine_eq (role : Role) :
    blankLine role = { text := onLine [], blink := 0, highlight := 0, role := role, service := none } := by
  rw [onLine_nil]
  rfl

theorem Part.blanked_iff (p : Part) : p.blanked = true ↔ ∃ i, i < 4 ∧ p.acts i ∧ (p.inputConfig i).blank = true := by
  rw [Part.blanked, List.any_eq_true]
  simp only [List.mem_range, Bool.and_eq_true, Part.actionsInForce_iff]

theorem Part.visible_eq (p : Part) : p.visible = p.table.records.filter fun r => p.feed.state != .lost || r.ctl.isSome := by
  unfold Part.visible
  by_cases h : p.feed.state = .lost
  · rw [if_pos (beq_iff_eq.mpr h), h]
    rfl
  · rw [if_neg (mt beq_iff_eq.mp h)]
    refine (List.filter_eq_self.mpr fun r _ => ?_).symm
    rw [Bool.or_eq_true, bne_iff_ne]
    exact .inl h

theorem printable_of_range {c : Byte} (h : 0x20 ≤ c.toNat ∧ c.toNat ≤ 0x7E) : printable c = c := by
  rw [printable_eq, if_pos h]

theorem map_printable_self {t : Text} (h : ∀ c ∈ t, 0x20 ≤ c.toNat ∧ c.toNat ≤ 0x7E) : t.map printable = t :=
  (List.map_congr_left fun c hc => printable_of_range (h c hc)).trans (List.map_id' _)

theorem digits_printable {n : Nat} (h : n < 100) : ∀ c ∈ digits n, 0x20 ≤ c.toNat ∧ c.toNat ≤ 0x7E := by
  intro c hc
  have hdigit {d : Nat} (hd : d < 10) : 0x20 ≤ (BitVec.ofNat 8 (48 + d)).toNat ∧ (BitVec.ofNat 8 (48 + d)).toNat ≤ 0x7E := by
    rw [BitVec.toNat_ofNat]
    omega
  simp only [digits, List.mem_cons, List.not_mem_nil, or_false] at hc
  rcases hc with rfl | rfl
  · exact hdigit (by omega)
  · exact hdigit (by omega)

/-- The clock line (R111). -/
theorem Part.clockLine_eq {p : Part} (hs : p.time.second < 86400) : p.clockLine =
    { text := onLine (List.replicate 20 32 ++
        if p.time.valid then digits (p.time.second / 3600) ++ [58] ++ digits (p.time.second / 60 % 60) ++ [58] ++ digits (p.time.second % 60)
        else [45, 45, 58, 45, 45, 58, 45, 45])
      blink := 0, highlight := 0, role := .clock, service := none } := by
  have hpad {t : Text} (hlen : t.length = 8) (ht : ∀ c ∈ t, 0x20 ≤ c.toNat ∧ c.toNat ≤ 0x7E) :
      onLine (List.replicate 20 32 ++ t) = List.replicate 20 32 ++ t ++ List.replicate 20 32 := by
    have hwhole : padded 48 (List.replicate 20 32 ++ t) = List.replicate 20 32 ++ t ++ List.replicate 20 32 := by
      unfold padded
      rw [List.take_append, List.take_of_length_le (by simp [hlen]), List.take_replicate]
      simp [hlen]
    rw [← inColumns_eq, inColumns, fit_eq_padded, hwhole]
    refine map_printable_self fun c hc => ?_
    have h32 : 0x20 ≤ (32 : Byte).toNat ∧ (32 : Byte).toNat ≤ 0x7E := by decide
    simp only [List.mem_append, List.mem_replicate] at hc
    rcases hc with (⟨-, rfl⟩ | hc) | ⟨-, rfl⟩
    · exact h32
    · exact ht c hc
    · exact h32
  unfold Part.clockLine blankLine
  dsimp only
  congr 1
  by_cases h : p.time.valid = true
  · rw [if_pos h, if_pos h, hpad rfl ?_]
    · rfl
    · have hcolon : 0x20 ≤ (58 : Byte).toNat ∧ (58 : Byte).toNat ≤ 0x7E := by decide
      intro c hc
      simp only [List.mem_append, List.mem_singleton] at hc
      rcases hc with (((hc | rfl) | hc) | rfl) | hc
      · exact digits_printable (by omega) c hc
      · exact hcolon
      · exact digits_printable (by omega) c hc
      · exact hcolon
      · exact digits_printable (by omega) c hc
  · rw [if_neg h, if_neg h, hpad rfl (by decide)]
    rfl

/-- The detail line of a record (R110). -/
theorem Part.detailLine_eq (p : Part) (role : Role) (r : Record) : p.detailLine role r =
    { text := onLine (p.callsText r), blink := 0, highlight := 0, role := role, service := some r.id } := by
  have htext : p.detailText r = txtCallingAt ++ if r.calls = [] then p.table.names.getD r.dest [] ++ txtOnly
      else List.intercalate [44, 32] (r.calls.map fun i => p.table.names.getD i []) := by
    unfold Part.detailText
    by_cases h : r.calls = []
    · rw [if_pos (List.isEmpty_iff.mpr h), if_pos h, List.append_assoc]
      rfl
    · rw [if_neg (mt List.isEmpty_iff.mp h), if_neg h, joinNames_eq]
      rfl
  have hcut (t : Text) : (if t.length ≤ 48 then fit 48 t else t.take 47 ++ [62]).map printable =
      onLine (if t.length ≤ 48 then t else t.take 47 ++ [62]) := by
    split
    · exact inColumns_eq t
    · next hlong =>
      refine (onLine_of_length ?_).symm
      rw [List.length_append, List.length_take, List.length_singleton]
      omega
  unfold Part.detailLine Part.callsText blankLine
  dsimp only
  rw [htext, hcut]

theorem platformText_of_small {n : Nat} (h : n ≤ 32) :
    platformText (some n) = [32, if n < 10 then 32 else BitVec.ofNat 8 (48 + n / 10), BitVec.ofNat 8 (48 + n % 10)] := by
  interval_cases n <;> rfl

/-- A departure row (R108). -/
theorem Part.departureRow_text {p : Part} {r : Record} (h : ∀ q, r.running.platform = some q → q ≤ 32) (role : Role) :
    (p.departureRow role r).text = onLine (p.rowText r) := by
  have hplatform : platformText r.running.platform = (match r.running.platform with
      | none => [32, 32, 45]
      | some n => [32, if n < 10 then 32 else BitVec.ofNat 8 (48 + n / 10), BitVec.ofNat 8 (48 + n % 10)]) := by
    cases hp : r.running.platform with
    | none => rfl
    | some n => exact platformText_of_small (h n hp)
  have hrow : hhmm p.time.startHour r.sched ++ [32] ++ fit 24 (p.stationName r.dest) ++ [32] ++ platformText r.running.platform ++ [32] ++
      fit 10 (statusText p.time.startHour r) ++ [32] ++ [if r.mark.isSome then 42 else 32] ++ [32] = p.rowText r := by
    unfold Part.rowText
    rw [hplatform, fit_eq_padded, fit_eq_padded, hhmm_eq]
    simp only [List.append_assoc, List.singleton_append]
    rfl
  have hlen : (p.rowText r).length = 48 := by
    rw [← hrow]
    simp
  rw [onLine_of_length hlen, ← hrow]
  rfl

theorem Part.departureRow_bits {p : Part} (role : Role) (r : Record) {c : Nat} (h1 : 1 ≤ c) (h48 : c ≤ 48) :
    (p.departureRow role r).blink.getLsbD (48 - c) = (r.mark.isSome && decide (32 ≤ c ∧ c ≤ 34)) ∧
      (p.departureRow role r).highlight.getLsbD (48 - c) = decide (r.display = .cancelled) := by
  have hblink : platformBlink.getLsbD (48 - c) = decide (32 ≤ c ∧ c ≤ 34) := by
    interval_cases c <;> decide
  constructor
  · show (if r.mark.isSome then platformBlink else 0).getLsbD (48 - c) = _
    cases r.mark with
    | none => simp
    | some m => simpa using hblink
  · show (if r.display == .cancelled then BitVec.allOnes 48 else 0).getLsbD (48 - c) = _
    by_cases hd : r.display = .cancelled
    · rw [if_pos (beq_iff_eq.mpr hd), BitVec.getLsbD_allOnes, decide_eq_true hd, decide_eq_true (by omega)]
    · rw [if_neg (mt beq_iff_eq.mp hd), decide_eq_false hd]
      simp

/-! ## One composed line -/

/-- What a composition puts on a line whose role is that of a row. -/
theorem Part.composeLine_row {p : Part} {role : Role} {k : Nat} (hrole : role = .departure k ∨ role = .detail k) :
    (p.blanked = true ∨ p.visible.length < k → 1 ≤ k → p.composeLine role = blankLine role) ∧
    (p.blanked = false → ∀ r, p.visible[k - 1]? = some r →
      (role = .departure k → p.composeLine role = p.departureRow role r) ∧
      (role = .detail k → p.composeLine role = p.detailLine role r)) := by
  refine ⟨fun h h1 => ?_, fun h r hr => ⟨fun hd => ?_, fun hd => ?_⟩⟩
  · have hnone (hlt : p.visible.length < k) : p.visible[k - 1]? = none := List.getElem?_eq_none (by omega)
    rcases hrole with rfl | rfl
    · rw [Part.composeLine]
      split
      · rfl
      · next hb => rw [hnone (h.resolve_left hb)]
    · rw [Part.composeLine]
      split
      · rfl
      · next hb => rw [hnone (h.resolve_left hb)]
  · subst hd
    rw [Part.composeLine, if_neg (by rw [h]; exact Bool.false_ne_true), hr]
  · subst hd
    rw [Part.composeLine, if_neg (by rw [h]; exact Bool.false_ne_true), hr]

/-- Each line of a composition shows what the law of the lines says (R104 to R112). -/
theorem Part.lineLaw_composed {p : Part} {n : Nat} {x : LineContent} (hs : p.time.second < 86400) (hx : p.composeAll[n]? = some x) :
    p.lineLaw n x := by
  have hn : n < 48 := by
    have := (List.getElem?_eq_some_iff.mp hx).1
    rwa [Part.composeAll_length] at this
  obtain ⟨hrepeated, hunique⟩ := p.roles_getElem? hn
  have hline {role : Role} (h : p.roles[n]? = some role) : x = p.composeLine role := by
    rw [Part.composeAll, List.getElem?_map, h] at hx
    exact (Option.some.inj hx).symm
  have hplain (h : ¬(2 ≤ p.roleCode n ∧ p.roleCode n ≤ 81)) : x = p.composeLine (roleOfByte (p.roleCode n)) :=
    hline (hunique fun hr => h hr.1)
  refine ⟨fun h => ?banner, fun h => ?clock, fun h => ?blank, fun k h1 h40 hno => ?rows⟩
  case banner =>
    have h : p.roleCode n = 0 := h
    refine ⟨p.bannerText, p.bannerText_law, ?_⟩
    rw [hplain (by omega), h]
    show { blankLine .banner with text := inColumns p.bannerText } = _
    rw [inColumns_eq]
    rfl
  case clock =>
    have h : p.roleCode n = 1 := h
    rw [hplain (by omega), h]
    exact Part.clockLine_eq hs
  case blank =>
    have h : 81 < p.roleCode n ∨ (2 ≤ p.roleCode n ∧ p.roleRepeated n) := h
    have hblank : x = p.composeLine .blank := by
      by_cases h81 : 81 < p.roleCode n
      · rw [hplain (by omega), roleOfByte_blank h81]
      · obtain ⟨h2, hr⟩ := h.resolve_left h81
        exact hline (hrepeated ⟨⟨h2, by omega⟩, hr⟩)
    rw [hblank]
    exact blankLine_eq .blank
  case rows =>
    have hno : ¬p.roleRepeated n := hno
    have hx : x = p.composeLine (roleOfByte (p.roleCode n)) := hline (hunique fun hr => hno hr.2)
    have hdep (h : p.roleCode n = k + 1) : roleOfByte (p.roleCode n) = .departure k := (roleOfByte_departure h1 h40).mpr h
    have hdet (h : p.roleCode n = k + 41) : roleOfByte (p.roleCode n) = .detail k := (roleOfByte_detail h1 h40).mpr h
    refine ⟨fun role hrole hnone => ?empty, fun hblanking r hr => ?shown⟩
    case empty =>
      have hrole : (p.roleCode n = k + 1 ∧ role = .departure k) ∨ (p.roleCode n = k + 41 ∧ role = .detail k) := hrole
      have hkind : role = .departure k ∨ role = .detail k := hrole.imp (·.2) (·.2)
      have hcode : roleOfByte (p.roleCode n) = role := by
        rcases hrole with ⟨h, rfl⟩ | ⟨h, rfl⟩
        · exact hdep h
        · exact hdet h
      rw [hx, hcode, (Part.composeLine_row hkind).1 (hnone.imp p.blanked_iff.mpr fun h => by rw [Part.visible_eq]; exact h) h1]
      exact blankLine_eq role
    case shown =>
      have hoff : p.blanked = false := by
        rw [← Bool.not_eq_true, p.blanked_iff]
        exact hblanking
      have hr : p.visible[k - 1]? = some r := by
        rw [Part.visible_eq]
        exact hr
      refine ⟨fun h => ?_, fun h hplatform => ?_⟩
      · have hrow := ((Part.composeLine_row (p := p) (.inr (hdet h))).2 hoff r hr).2 (hdet h)
        rw [hx, hrow, hdet h]
        exact p.detailLine_eq _ r
      · have hrow := ((Part.composeLine_row (p := p) (.inl (hdep h))).2 hoff r hr).1 (hdep h)
        rw [hx, hrow, hdep h]
        refine ⟨?_, fun c hc1 hc48 => Part.departureRow_bits _ r hc1 hc48⟩
        show p.departureRow (.departure k) r = { text := onLine (p.rowText r), blink := _, highlight := _, role := .departure k, service := _ }
        rw [← Part.departureRow_text hplatform (.departure k)]
        rfl

/-! ## The image (R114, R116) -/

/-- A recomposition of an image of 48 lines. -/
theorem Image.take_law {i : Image} {new : List LineContent} (hlen : i.lines.length = new.length) :
    (i.lines.map (·.content) = new → i.take new = i) ∧
    (i.lines.map (·.content) ≠ new → (i.take new).generation = countNext i.generation ∧ (i.take new).lines.map (·.content) = new ∧
      ∀ (k : Nat) (old x : WallLine), i.lines[k]? = some old → (i.take new).lines[k]? = some x →
        x.generation = if x.content = old.content then old.generation else (i.take new).generation) := by
  refine ⟨fun h => if_pos (beq_iff_eq.mpr h), fun h => ?_⟩
  have htake : i.take new = { generation := countNext i.generation, lines := (new.zip i.lines).map fun nl =>
      if nl.1 == nl.2.content then nl.2 else { content := nl.1, generation := countNext i.generation } } := if_neg (mt beq_iff_eq.mp h)
  rw [htake]
  refine ⟨rfl, ?_, fun k old x hold hx => ?_⟩
  · rw [List.map_map]
    have hfst : (new.zip i.lines).map Prod.fst = new := List.map_fst_zip (by omega)
    refine Eq.trans (List.map_congr_left fun nl _ => ?_) hfst
    simp only [Function.comp]
    split
    · next heq => exact (beq_iff_eq.mp heq).symm
    · rfl
  · dsimp only at hx
    rw [List.getElem?_map] at hx
    obtain ⟨⟨c, o⟩, hzip, rfl⟩ := Option.map_eq_some_iff.mp hx
    obtain ⟨-, hget⟩ := List.getElem?_zip_eq_some.mp hzip
    obtain rfl : old = o := Option.some.inj (hold.symm.trans hget)
    dsimp only
    by_cases heq : c = old.content
    · rw [if_pos (beq_iff_eq.mpr heq), if_pos rfl]
    · rw [if_neg (mt beq_iff_eq.mp heq), if_neg heq]

end Sys2Proof.Machine
end

section
/-! What the end of an event leaves (R115, R117, R157): the obligation. -/

namespace Sys2Proof.Machine

/-- The record once the Composer has named its generation (R117). -/
def Cue.named (c : Cue) (generation : Nat) : Cue :=
  if c.template = some .change ∧ c.required = none then { c with required := some generation } else c

theorem Cue.named_zones (c : Cue) (g : Nat) : (c.named g).zones = c.zones := by
  unfold Cue.named
  split <;> rfl

theorem Cue.named_id (c : Cue) (g : Nat) : (c.named g).id = c.id := by
  unfold Cue.named
  split <;> rfl

/-- The part that the examination at the end of an event finds. -/
def Part.seen (p : Part) (image : Image) : Part :=
  { p with image := image, cues := { p.cues with pool := p.cues.pool.map (·.named image.generation) } }

/-- The records that the end of an event releases, in their order. -/
def Part.outgoing (p : Part) : List Cue := sortBy cueBefore (p.cues.pool.filter p.eligibleCue)

theorem Part.nameGenerations_eq (p : Part) : p.nameGenerations = p.seen p.image := by
  have hname (c : Cue) : (if c.template == some .change && c.required.isNone then { c with required := some p.image.generation } else c) =
      c.named p.image.generation := by
    simp only [Cue.named, Bool.and_eq_true, beq_iff_eq, Option.isNone_iff_eq_none]
  have hpool := List.map_congr_left (l := p.cues.pool) fun c _ => hname c
  exact congrArg (fun pool => ({ p with cues := { p.cues with pool := pool } } : Part)) hpool

/-- The end of an event: the examination of the part it finds, the marks of the event being forgotten. -/
theorem Part.ended_examined (p : Part) (told : Bool) :
    p.ended told = { (p.seen (p.ended told).image).examine with ev := noEvent } := by
  have hexamine (q : Part) (i : Image) (e : Event) : ({ q with image := i, ev := e } : Part).nameGenerations.examine =
      (q.seen i).examine.withEv e := by
    rw [Part.nameGenerations_eq]
    exact (q.seen i).examine_withEv e
  rw [Part.ended_image]
  unfold Part.ended Part.finish
  dsimp only
  cases told with
  | false => exact congrArg (fun q : Part => { q with ev := noEvent }) (hexamine p p.image _)
  | true => exact congrArg (fun q : Part => { q with ev := noEvent }) (hexamine p (p.image.take p.composeAll) _)

theorem Part.ended_releases (p : Part) (told : Bool) : p.ended told =
    { (p.seen (p.ended told).image).outgoing.foldl (fun q c => q.releaseIn p.cues.offline c) (p.seen (p.ended told).image) with
      ev := noEvent } := by
  have hfold := Part.foldl_releaseCue (p.seen (p.ended told).image).outgoing (p := p.seen (p.ended told).image) (off := p.cues.offline) rfl
  exact (p.ended_examined told).trans (congrArg (fun q : Part => { q with ev := noEvent }) hfold)

theorem Part.mem_outgoing {p : Part} {c : Cue} : c ∈ p.outgoing ↔ c ∈ p.cues.pool ∧ p.eligibleCue c = true := by
  rw [Part.outgoing, mem_sortBy, List.mem_filter]

/-- Settles O4: what the end of an event leaves. -/
theorem eventEndFrame : Obligations.EventEndFrame := by
  unfold Obligations.EventEndFrame
  intro p told q named seen out offline playing
  have hq : q = { out.foldl (fun q c => q.releaseIn p.cues.offline c) seen with ev := noEvent } := p.ended_releases told
  have hmem (c : Cue) : c ∈ out ↔ c ∈ seen.cues.pool ∧ seen.eligibleCue c = true := Part.mem_outgoing
  have hreleased := (Part.finish_law { p with ev := { noEvent with wallTold := told } }).2
  refine ⟨p.ended_eq told, fun h => ?kept, fun h hlen => ?composed, fun c _ => seen.eligibleCue_iff c, hmem, ?tx, ?queues, ?zones, ?pool,
    p.ended_sched told, hreleased.names, ?records, ?info, ?ctl, fun l => ?ports⟩
  case kept =>
    rw [show q.image = _ from p.ended_image told, h]
    rfl
  case composed =>
    have himage : q.image = p.image.take p.composeAll := by
      rw [show q.image = _ from p.ended_image told, h]
      rfl
    obtain ⟨hsame, hnew⟩ := Image.take_law (i := p.image) (new := p.composeAll) (hlen.trans p.composeAll_length.symm)
    have hcontents : q.image.lines.map (·.content) = p.composeAll := by
      rw [himage]
      by_cases heq : p.image.lines.map (·.content) = p.composeAll
      · rw [hsame heq, heq]
      · exact (hnew heq).2.1
    refine ⟨fun heq => himage.trans (hsame heq), fun hne => ?_, fun hs n line hline => ?_⟩
    · rw [himage]
      exact hnew hne
    · refine Part.lineLaw_composed hs ?_
      rw [← hcontents, List.getElem?_map, hline]
      rfl
  case tx =>
    rw [hq]
    exact Part.releases_tx p.cues.offline out seen
  case queues =>
    rw [hq]
    exact Part.releases_queues p.cues.offline out seen
  case zones =>
    intro z hz1 hz hrange
    have hplaying {c : Cue} (hc : c ∈ out) {y : Nat} (hy : y ∈ c.playsIn p.cues.offline) (hyz : y - 1 = z - 1) : y = z := by
      obtain ⟨hpool, -⟩ := (hmem c).mp hc
      obtain ⟨d, hd, rfl⟩ := List.mem_map.mp hpool
      have hmem := Cue.mem_pendingZones.mp (List.mem_filter.mp hy).1
      have hzones : (named d).zones = d.zones := d.named_zones q.image.generation
      rw [hzones] at hmem
      have hpos := (hrange d hd _ hmem).1
      have hpos : 1 ≤ y := hpos
      omega
    have hzone : q.cues.zone z = (p.cues.zones[z - 1]?.map fun st => out.foldl (fun st c =>
        if ∃ y ∈ c.playsIn p.cues.offline, y - 1 = z - 1 then .playing c.id else st) st).getD .idle := by
      rw [hq, CueSched.zone, List.getD_eq_getElem?_getD]
      exact congrArg (·.getD ZoneState.idle) (Part.releases_zone p.cues.offline out seen (z - 1))
    obtain ⟨st, hst⟩ : ∃ st, p.cues.zones[z - 1]? = some st := ⟨_, List.getElem?_eq_getElem (by omega)⟩
    rw [hst, Option.map_some, Option.getD_some] at hzone
    refine ⟨fun c hc hcz => ?_, fun hnone => ?_⟩
    · refine hzone.trans (foldl_playing hc ⟨z, hcz, rfl⟩ (fun d hd hdz => ?_) st)
      obtain ⟨y, hy, hyz⟩ := hdz
      obtain rfl := hplaying hd hy hyz
      have hhead {e : Cue} (he : e ∈ out) (hey : y ∈ e.playsIn p.cues.offline) : (seen.cues.queue y).head? = some e.id := by
        obtain ⟨-, -, -, hall, -⟩ := (seen.eligibleCue_iff e).mp ((hmem e).mp he).2
        exact (hall y (CueSched.mem_waitingZones.mp hey)).2
      exact Option.some.inj ((hhead hd hy).symm.trans (hhead hc hcz))
    · refine (hzone.trans (foldl_playing_none (fun c hc y hy hyz => ?_) st)).trans ?_
      · exact hnone c hc (hplaying hc hy hyz ▸ hy)
      · rw [CueSched.zone, List.getD_eq_getElem?_getD, hst]
        rfl
  case pool =>
    intro hnodup
    have hseen : (seen.cues.pool.map (·.id)).Nodup := by
      have hids : seen.cues.pool.map (·.id) = p.cues.pool.map (·.id) := by
        show (p.cues.pool.map _).map _ = _
        rw [List.map_map]
        exact List.map_congr_left fun c _ => c.named_id q.image.generation
      rwa [hids]
    have hout : out.Nodup := (sortBy_perm _ _).nodup_iff.mpr ((List.Nodup.of_map _ hseen).filter _)
    have hpool : q.cues.pool = _ := (congrArg (fun q : Part => q.cues.pool) hq).trans (Part.releases_pool p.cues.offline out seen)
    rw [hpool]
    refine List.map_congr_left fun x hx => ?_
    refine Cue.foldl_released (fun c hc hid => ?_) hout p.cues.offline _
    have hinj := (List.nodup_map_iff_inj_on (List.Nodup.of_map _ hseen)).1 hseen
    exact hinj c ((hmem c).mp hc).1 x hx hid
  case records =>
    have htable : q.table = _ := (congrArg (fun q : Part => q.table) hq).trans (Part.releases_table p.cues.offline out seen)
    rw [htable]
    exact List.map_congr_left fun r _ => Record.foldl_told out r
  case info => exact (p.ended_port told .information).frame
  case ctl => exact (p.ended_port told .control).frame
  case ports =>
    refine ⟨?_, fun k hk => (p.ended_port told l).other k hk⟩
    have hport : q.port l = (out.foldl (fun q c => q.releaseIn p.cues.offline c) seen).port l := by
      rw [hq]
      cases l <;> rfl
    have hseen : seen.port l = p.port l := by cases l <;> rfl
    rw [hport, Part.releases_isLatched, hseen]
    rfl

end Sys2Proof.Machine
end

section
/-! The state a reset leaves in every block (O7, O8). -/

namespace Sys2Proof.Machine

/-! ## A port reset, on which some kinds have latched since (R196) -/

/-- A port as a reset leaves it, on which only events of the kinds `sel` have latched since. -/
structure Port.Anew (sel : EventKind → Prop) (subject : BitVec 16) (rate : Nat) (q : Port) : Prop where
  latches : (resetPort subject rate).Latches sel q
  noticeDue : q.noticeDue = false

theorem Port.anew_resetPort (sel : EventKind → Prop) (subject : BitVec 16) (rate : Nat) :
    (resetPort subject rate).Anew sel subject rate := ⟨.refl _ _, rfl⟩

/-- The mask of a reset holds every kind, so no later event raises a notice. -/
theorem resetMask_getLsbD (k : EventKind) : (0x1FFFFFFF#32).getLsbD k.code = true := by
  cases k <;> rfl

section
variable {sel : EventKind → Prop} {subject : BitVec 16} {rate : Nat} {q r : Port}

theorem Port.Anew.mask (h : q.Anew sel subject rate) : q.mask = 0x1FFFFFFF :=
  (congrArg Port.mask h.latches.frame :)

theorem Port.Anew.latch (h : q.Anew sel subject rate) {k : EventKind} (hk : sel k) (x : BitVec 16) :
    (q.latch k x).Anew sel subject rate := by
  refine ⟨h.latches.trans (q.latches_latch hk x), ?_⟩
  have hmask : q.mask.getLsbD k.code = true := h.mask ▸ resetMask_getLsbD k
  rw [← Bool.not_eq_true, Port.latch_noticeDue, h.noticeDue, hmask]
  simp

theorem resetPort_isLatched {k : EventKind} : (resetPort subject rate).isLatched k = decide (k = .resetDone) := by
  exact (EventKind.getLsbD_bit .resetDone k.code).trans (decide_eq_decide.mpr ⟨fun h => EventKind.code_inj h, congrArg EventKind.code⟩)

/-- What a reset promises of a port holds until an event latches, and then but for that event. -/
theorem Port.Anew.law (h : q.Anew sel subject rate) (hsel : ¬sel .resetDone) :
    (q.isLatched .resetDone = true ∧ q.mask = 0x1FFFFFFF ∧ q.resetSeen = true ∧ q.linkError = false ∧ q.frameErrors = 0 ∧
      q.buffer = [] ∧ q.tx = [] ∧ q.waiting = none ∧ q.noticeDue = false ∧ q.rate = rate) ∧
    q.subject .resetDone = subject ∧ ∀ k, k ≠ .resetDone → ¬sel k → q.isLatched k = false := by
  have hf := h.latches.frame
  refine ⟨⟨?_, h.mask, (congrArg Port.resetSeen hf :), (congrArg Port.linkError hf :), (congrArg Port.frameErrors hf :),
    (congrArg Port.buffer hf :), (congrArg Port.tx hf :), (congrArg Port.waiting hf :), h.noticeDue, (congrArg Port.rate hf :)⟩,
    (h.latches.other _ hsel).2.trans rfl, fun k hk hno => ?_⟩
  · rw [(h.latches.other _ hsel).1, resetPort_isLatched]
    rfl
  · rw [(h.latches.other _ hno).1, resetPort_isLatched]
    exact decide_eq_false hk

end

/-! ## SETTINGS_FAULT at a reset (R201) -/

theorem Part.latchFailed_beyondPorts (p : Part) : p.latchFailed.beyondPorts = p.beyondPorts :=
  foldl_keeps Part.beyondPorts
    (fun (p : Part) r => if (p.store.storedRow r).failed then p.latchNat .settingsFault r else p)
    (fun p r => by split <;> rfl) _ p

/-- Both ports after the failed rows have latched. -/
def Store.latchFailed (st : Store) (q : Port) : Port :=
  (List.range 11).foldl (fun q r => if (st.storedRow r).failed then q.latch .settingsFault (BitVec.ofNat 16 r) else q) q

theorem Part.latchFailed_eq (p : Part) : p.latchFailed =
    { p with info := p.store.latchFailed p.info, ctl := p.store.latchFailed p.ctl } := by
  have h (l : List Nat) : ∀ p : Part,
      l.foldl (fun (p : Part) r => if (p.store.storedRow r).failed then p.latchNat .settingsFault r else p) p =
      { p with
        info := l.foldl (fun q r => if (p.store.storedRow r).failed then q.latch .settingsFault (BitVec.ofNat 16 r) else q) p.info
        ctl := l.foldl (fun q r => if (p.store.storedRow r).failed then q.latch .settingsFault (BitVec.ofNat 16 r) else q) p.ctl } := by
    induction l with
    | nil => intro p; rfl
    | cons r l ih =>
      intro p
      rw [List.foldl_cons, ih]
      by_cases hr : (p.store.storedRow r).failed = true
      · simp only [List.foldl_cons, if_pos hr]
        rfl
      · simp only [List.foldl_cons, if_neg hr]
  exact h _ p

theorem Store.latchFailed_anew {sel : EventKind → Prop} (hsel : sel .settingsFault) {subject : BitVec 16} {rate : Nat} {q : Port}
    (h : q.Anew sel subject rate) (st : Store) : (st.latchFailed q).Anew sel subject rate :=
  foldl_invariant (Port.Anew sel subject rate) _ (fun q r h => by
    split
    · exact h.latch hsel _
    · exact h) _ q h

theorem Store.latchFailed_isLatched (st : Store) (q : Port) (h : q.isLatched .settingsFault = false) :
    (st.latchFailed q).isLatched .settingsFault = (List.range 11).any fun r => (st.storedRow r).failed := by
  have hfold (l : List Nat) : ∀ q : Port,
      (l.foldl (fun (q : Port) r => if (st.storedRow r).failed then q.latch .settingsFault (BitVec.ofNat 16 r) else q) q).isLatched
        .settingsFault = (q.isLatched .settingsFault || l.any fun r => (st.storedRow r).failed) := by
    induction l with
    | nil => intro q; simp
    | cons r l ih =>
      intro q
      rw [List.foldl_cons, ih, List.any_cons]
      by_cases hr : (st.storedRow r).failed = true
      · rw [if_pos hr, Port.latch_isLatched_same, hr]
        simp
      · rw [if_neg hr, Bool.eq_false_iff.mpr hr, Bool.false_or]
  exact (hfold _ q).trans (by rw [h, Bool.false_or])

/-! ## The image composed anew (R113, R117) -/

theorem Part.composeLine_service {p : Part} (h : p.table.records = []) (role : Role) : (p.composeLine role).service = none := by
  have hv : p.visible = [] := by
    rw [Part.visible_eq, h]
    rfl
  unfold Part.composeLine
  split
  case h_3 | h_4 =>
    split
    · rfl
    · rw [hv]
      rfl
  all_goals rfl

theorem Part.composeFresh_lines {p : Part} (h : p.table.records = []) (g : Nat) {l : WallLine}
    (hl : l ∈ (p.composeFresh g).image.lines) : l.generation = g ∧ l.content.service = none := by
  obtain ⟨c, hc, rfl⟩ := List.mem_map.mp hl
  obtain ⟨role, _, rfl⟩ := List.mem_map.mp hc
  exact ⟨rfl, Part.composeLine_service h role⟩

/-! ## What both resets leave -/

/-- What either reset, begun at `now`, leaves beyond the ports (O7). -/
structure Part.ResetAt (now : Nat) (p : Part) : Prop where
  table : p.table = resetTable
  own : p.own = resetOwnership (p.cfg 0 7)
  notices : p.notices = resetNotices
  feed : p.feed = { state := .live, lastToggle := none, heartbeatAt := some (now + p.heartbeatPeriod), staleAt := none }
  resetDue : p.resetDue = false
  elapsed : p.elapsed = now
  frozen : p.store.frozen = false
  working : p.store.working = (p.store.stored.zip (List.range 11)).map fun xr => loadedRow xr.2 xr.1
  positions : p.chain.positions = p.cfg 0 5
  panels : p.chain.panels = List.replicate 13 resetPanel
  fitted : p.chain.fitted = (p.cfg 0 6 % 2 == 1)
  duty : p.chain.duty = if p.chain.fitted then .standby else .notFitted
  mode : p.chain.mode = if p.cfg 0 6 / 2 % 2 == 1 then .automatic else .released
  test : p.chain.test = resetTest
  announcer : p.cues.announcer = .lost
  silence : p.cues.silence = 0
  lastReject : p.cues.lastReject = none
  zones : p.cues.zones = List.replicate 8 .idle
  pool : ∀ x ∈ p.cues.pool, x.origin = .input
  lines : ∀ l ∈ p.image.lines, l.generation = p.image.generation ∧ l.content.service = none

/-- STOP frames fill only the send queue. -/
theorem CueSched.stops_sched (ids : List Nat) (q : CueSched) : (ids.foldl (fun q id => q.transmit fun t => .stop t id) q) =
    { q with tx := (ids.foldl (fun q id => q.transmit fun t => .stop t id) q).tx,
             tag := (ids.foldl (fun q id => q.transmit fun t => .stop t id) q).tag } := by
  induction ids generalizing q with
  | nil => rfl
  | cons id ids ih =>
    rw [List.foldl_cons, ih]
    rfl

theorem Part.resetCues_sched (p : Part) (next : Nat) : (p.resetCues next).cues =
    { p.cues.fresh next p.elapsed with tx := (p.resetCues next).cues.tx, tag := (p.resetCues next).cues.tag } := by
  rw [Part.resetCues_cues]
  exact CueSched.stops_sched _ _

/-! ## Power-on reset -/

theorem Part.powerOnBlocks_port (q : Part) (l : Link) :
    q.powerOnBlocks.port l = q.store.latchFailed (resetPort 0 (q.cfg 0 1)) := by
  unfold Part.powerOnBlocks
  rw [Part.latchFailed_eq]
  cases l <;> rfl

theorem Part.powerOnBlocks_anew (q : Part) (l : Link) :
    (q.powerOnBlocks.port l).Anew (· = .settingsFault) 0 (q.powerOnBlocks.cfg 0 1) := by
  have hcfg : q.powerOnBlocks.cfg 0 1 = q.cfg 0 1 := by
    unfold Part.powerOnBlocks
    rw [Part.latchFailed_eq]
    rfl
  rw [Part.powerOnBlocks_port, hcfg]
  exact Store.latchFailed_anew (sel := (· = .settingsFault)) rfl (Port.anew_resetPort _ _ _) _

theorem Part.powerOnBlocks_store (q : Part) : q.powerOnBlocks.store = q.store ∧ q.powerOnBlocks.elapsed = q.elapsed := by
  unfold Part.powerOnBlocks
  rw [Part.latchFailed_eq]
  exact ⟨rfl, rfl⟩

theorem Part.powerOnBlocks_cues (q : Part) : ∃ tx tag, q.powerOnBlocks.cues =
    { q.cues.fresh 1 q.elapsed with tx := tx, tag := tag } := by
  unfold Part.powerOnBlocks
  rw [Part.latchFailed_eq]
  exact ⟨_, _, Part.resetCues_sched _ 1⟩

/-- The part just before power-on reset composes the image. -/
def Part.uncomposed (q : Part) : Part :=
  let p : Part := { (q.resetLinks 0).latchFailed with powered := true, time := resetTimebase q.elapsed (q.cfg 0 0) }
  let p := (p.resetTables.freshInputs.modCues fun q => { q with tx := [] }).resetCues 1
  (p.modChain fun c => { c with poll := none, lastSent := none }).resetChain.freshClocks

theorem Part.powerOnBlocks_uncomposed (q : Part) : q.powerOnBlocks.image = (q.uncomposed.composeFresh 1).image := by
  unfold Part.powerOnBlocks Part.uncomposed
  rw [Part.latchFailed_eq]
  rfl

theorem Part.powerOnBlocks_image (q : Part) : ∃ r : Part, r.table.records = [] ∧
    q.powerOnBlocks.image = (r.composeFresh 1).image := by
  refine ⟨_, ?_, q.powerOnBlocks_uncomposed⟩
  unfold Part.uncomposed
  rfl

theorem Part.resetAt_powerOnBlocks {q : Part} (hfrozen : q.store.frozen = false)
    (hworking : q.store.working = (q.store.stored.zip (List.range 11)).map fun xr => loadedRow xr.2 xr.1) :
    q.powerOnBlocks.ResetAt q.elapsed := by
  obtain ⟨hstore, helapsed⟩ := q.powerOnBlocks_store
  obtain ⟨tx, tag, hcues⟩ := q.powerOnBlocks_cues
  refine
    { frozen := by rw [hstore, hfrozen], working := by rw [hstore, ← hworking], elapsed := helapsed
      announcer := (congrArg CueSched.announcer hcues).trans rfl, silence := (congrArg CueSched.silence hcues).trans rfl
      lastReject := (congrArg CueSched.lastReject hcues).trans rfl, zones := (congrArg CueSched.zones hcues).trans rfl
      pool := fun x hx => ?pool, lines := fun l hl => ?lines
      table := ?rest_table, own := ?rest_own, notices := ?rest_notices, feed := ?rest_feed, resetDue := ?rest_resetDue, positions := ?rest_positions, panels := ?rest_panels, fitted := ?rest_fitted, duty := ?rest_duty, mode := ?rest_mode, test := ?rest_test }
  case pool =>
    rw [hcues] at hx
    exact (List.not_mem_nil hx).elim
  case lines =>
    obtain ⟨r, hr, himage⟩ := q.powerOnBlocks_image
    rw [himage] at hl ⊢
    exact Part.composeFresh_lines hr 1 hl
  all_goals
    unfold Part.powerOnBlocks
    rw [Part.latchFailed_eq]
    rfl

/-- What power-on reset alone leaves of the blocks it takes from the loaded row set and the levels (O8). -/
theorem Part.powerOnBlocks_law (q : Part) :
    let p := q.powerOnBlocks
    p.powered = true ∧ p.time = resetTimebase q.elapsed (p.cfg 0 0) ∧ p.image.generation = 1 ∧ p.chain.poll = none ∧
      p.clocks = { lines := (List.range 4).map (q.freshLine p.store.recordValid), park := none, recordValid := p.store.recordValid } ∧
      p.inputs = (q.inputs.zip (List.range 4)).map fun wi => p.freshInput wi.2 wi.1 := by
  unfold Part.powerOnBlocks
  rw [Part.latchFailed_eq]
  exact ⟨rfl, rfl, rfl, rfl, rfl, rfl⟩

/-! ## The row set that power-on reset loads (R201, R203) -/

/-- The part after the tear of a write, the decay of worn rows, the start-up check and the load. -/
def Part.loadedPart (p : Part) : Part := p.tearWrite.decayRows.startUpCheck.loadRows

theorem Part.powerOn_eq (p : Part) : p.powerOn = p.loadedPart.powerOnBlocks := rfl

theorem Part.decayRows_frame (p : Part) : p.decayRows.elapsed = p.elapsed ∧ p.decayRows.inputs = p.inputs := by
  unfold Part.decayRows
  split <;> exact ⟨rfl, rfl⟩

theorem Part.loadedPart_frame (p : Part) : p.loadedPart.elapsed = p.elapsed ∧ p.loadedPart.inputs = p.inputs := by
  have htear : p.tearWrite.elapsed = p.elapsed := by rw [p.tearWrite_frame]
  have htear' : p.tearWrite.inputs = p.inputs := by rw [p.tearWrite_frame]
  obtain ⟨hdecay, hdecay'⟩ := p.tearWrite.decayRows_frame
  exact ⟨hdecay.trans htear, hdecay'.trans htear'⟩

theorem Part.loadedPart_failed {p : Part} {x : StoredRow} (hx : x ∈ p.loadedPart.store.stored) : x.failed = !x.passes := by
  obtain ⟨y, _, rfl⟩ := List.mem_map.mp hx
  rfl

/-! ## Clock lines and inputs at power-on (R182, R200) -/

theorem Part.freshLine_congr {p q : Part} (h : p.store = q.store) (record : Bool) (i : Nat) :
    p.freshLine record i = q.freshLine record i := by
  unfold Part.freshLine Part.clockConfig Part.cfg Part.row
  rw [h]

theorem Part.freshLine_law (p : Part) (record : Bool) (i : Nat) :
    let k := p.freshLine record i
    k.state = (if (p.clockConfig i).enabled then .stopped else .disabled) ∧ k.dial = (p.clockConfig i).dial ∧
      k.position = (if record then parkedPosition (p.row 10) i k.dial else none) ∧ k.uncertain = false ∧
      k.impulse = none ∧ k.retryAt = none ∧ k.faults = 0 ∧
      k.polarity = (if record = true ∧ byteField (p.row 10) (3 + 3 * i) = 1 then .minus else .plus) := by
  refine ⟨rfl, rfl, rfl, rfl, rfl, rfl, rfl, ?_⟩
  unfold Part.freshLine
  simp only [Bool.and_eq_true, beq_iff_eq]

theorem Part.freshInput_cases (p : Part) (i : Nat) (w : WallInput) :
    (p.freshInput i w).asserted = w.asserted ∧
    ((p.inputConfig i).mode = .off ∨ w.asserted = false → (p.freshInput i w).state = .idle ∧ (p.freshInput i w).timer = none) ∧
    ((p.inputConfig i).mode ≠ .off → w.asserted = true → (p.freshInput i w).state = .qualifying ∧
      (p.freshInput i w).timer = some (p.elapsed + (p.inputConfig i).qualify)) := by
  unfold Part.freshInput
  by_cases h : ((p.inputConfig i).mode != .off && w.asserted) = true
  · obtain ⟨hmode, hw⟩ := Bool.and_eq_true _ _ ▸ h
    rw [if_pos h]
    refine ⟨rfl, fun ho => ?_, fun _ _ => ⟨rfl, rfl⟩⟩
    rcases ho with ho | ho
    · exact absurd ho (bne_iff_ne.mp hmode)
    · exact absurd (hw.symm.trans ho) Bool.noConfusion
  · rw [if_neg h]
    refine ⟨rfl, fun _ => ⟨rfl, rfl⟩, fun hmode hw => absurd ?_ h⟩
    rw [hw, Bool.and_true, bne_iff_ne]
    exact hmode

/-- A list of four numbered from 0. -/
theorem getElem_zip_four {α : Type} {l : List α} (h : l.length = 4) {β : Type} (f : α × Nat → β) (d : β) (e : α) {i : Nat} (hi : i < 4) :
    ((l.zip (List.range 4)).map f).getD i d = f (l.getD i e, i) := by
  have hl : i < l.length := h ▸ hi
  rw [List.getD_eq_getElem _ _ (by simp [h, hi]), List.getElem_map, List.getElem_zip, List.getElem_range,
    List.getD_eq_getElem _ _ hl]

/-- Settles O8: each block's state after the load, the ports from the latches of the failed rows. -/
theorem powerOnResetLeaves : Obligations.PowerOnResetLeaves := by
  unfold Obligations.PowerOnResetLeaves
  intro s
  refine ⟨_, leaves_powerOnReset s, ?_⟩
  rw [Part.powerOn_eq]
  obtain ⟨helapsed, hinputs⟩ := s.part.loadedPart_frame
  have hfailed : ∀ x ∈ s.part.loadedPart.store.stored, x.failed = !x.passes := fun _ => Part.loadedPart_failed
  generalize s.part.loadedPart = q at helapsed hinputs hfailed ⊢
  obtain ⟨hstore, hnow⟩ := q.powerOnBlocks_store
  obtain ⟨tx, tag, hcues⟩ := q.powerOnBlocks_cues
  obtain ⟨hpowered, htime, himage, hpoll, hclocks, hin⟩ := q.powerOnBlocks_law
  refine ⟨hpowered, helapsed ▸ htime, himage, (congrArg CueSched.pool hcues).trans rfl, (congrArg CueSched.nextId hcues).trans rfl,
    (congrArg CueSched.nextArrival hcues).trans rfl, hpoll, fun x hx => hfailed x (hstore ▸ hx), fun l => ?ports,
    by rw [hclocks], by rw [hclocks], fun i hi => ?clocks, fun hlen i hi => ?inputs⟩
  case ports =>
    have hanew := q.powerOnBlocks_anew l
    obtain ⟨-, hsubject, hquiet⟩ := hanew.law (by decide)
    refine ⟨hsubject, ?_, fun k h0 hk => hquiet k h0 hk⟩
    rw [Part.powerOnBlocks_port, hstore]
    exact q.store.latchFailed_isLatched _ (by rw [resetPort_isLatched]; rfl)
  case clocks =>
    have hline : q.powerOnBlocks.clocks.line i = q.powerOnBlocks.freshLine q.powerOnBlocks.store.recordValid i := by
      rw [hclocks, Part.freshLine_congr hstore, Clocks.line, List.getD_eq_getElem _ _ (by simp [hi]), List.getElem_map,
        List.getElem_range]
    have hvalid : q.powerOnBlocks.clocks.recordValid = q.powerOnBlocks.store.recordValid := by rw [hclocks]
    generalize q.powerOnBlocks = p at hline hvalid ⊢
    have h := p.freshLine_law p.store.recordValid i
    rw [← hline, ← hvalid] at h
    exact h
  case inputs =>
    have hone : q.powerOnBlocks.input i = q.powerOnBlocks.freshInput i (s.part.input i) := by
      rw [Part.input, hin, hinputs]
      exact getElem_zip_four hlen _ _ resetInput hi
    generalize q.powerOnBlocks = p at hone hnow ⊢
    have h := p.freshInput_cases i (s.part.input i)
    rw [← hone, hnow, helapsed] at h
    obtain ⟨hsame, hidle, hqualify⟩ := h
    exact ⟨hsame, fun h => hidle (hsame ▸ h), fun hmode h => hqualify hmode (hsame ▸ h)⟩

end Sys2Proof.Machine
end

section
/-! All four clock lines evaluated in turn (R172), as a soft reset does it. -/

namespace Sys2Proof.Machine

/-- What the evaluation of a line does to that line depends on nothing else than these. -/
theorem Part.evaluate_line_congr {p q : Part} {i : Nat} (hp : i < p.clocks.lines.length) (hq : i < q.clocks.lines.length)
    (hline : p.clocks.line i = q.clocks.line i) (hrows : p.store.working = q.store.working) (htime : p.time = q.time)
    (hnow : p.elapsed = q.elapsed) (boundary retry : Bool) :
    (p.evaluate i boundary retry).clocks.line i = (q.evaluate i boundary retry).clocks.line i := by
  by_cases hleft : (p.clocks.line i).isFaulted = true ∨ (p.clocks.line i).state = .parked
  · rw [Part.evaluate_left hleft, Part.evaluate_left (hline ▸ hleft), hline]
  · have hleft' := hleft
    rw [hline, not_or, Bool.not_eq_true] at hleft'
    rw [not_or, Bool.not_eq_true] at hleft
    have hconfig : p.clockConfig i = q.clockConfig i := by
      unfold Part.clockConfig Part.cfg Part.row
      rw [hrows]
    rw [Part.evaluate_line hp hleft.1 hleft.2, Part.evaluate_line hq hleft'.1 hleft'.2]
    unfold Part.evaluated Part.decision Part.newImpulse Part.lag
    rw [hline, hconfig, htime, hnow]

theorem Part.evaluate_lines_length (p : Part) (i : Nat) (boundary retry : Bool) :
    (p.evaluate i boundary retry).clocks.lines.length = p.clocks.lines.length := by
  by_cases hleft : (p.clocks.line i).isFaulted = true ∨ (p.clocks.line i).state = .parked
  · rw [Part.evaluate_left hleft]
  · rw [not_or, Bool.not_eq_true] at hleft
    rw [Part.evaluate_clocks hleft.1 hleft.2]
    exact updateAt_length _ _ _

theorem Part.evaluate_park (p : Part) (i : Nat) (boundary retry : Bool) :
    (p.evaluate i boundary retry).clocks.park = p.clocks.park := by
  by_cases hleft : (p.clocks.line i).isFaulted = true ∨ (p.clocks.line i).state = .parked
  · rw [Part.evaluate_left hleft]
  · rw [not_or, Bool.not_eq_true] at hleft
    rw [Part.evaluate_clocks hleft.1 hleft.2]
    rfl

/-! ## The park record and its write -/

/-- What the marking of the park record as not valid leaves: the store but for its writes, and a write only while the record is held
valid. -/
structure Part.Spoils (p q : Part) : Prop where
  store : q.store = { p.store with writes := q.store.writes, writeBegan := q.store.writeBegan }
  writes : (q.clocks.recordValid = p.clocks.recordValid ∧ q.store = p.store) ∨
    (p.clocks.recordValid = true ∧ q.clocks.recordValid = false ∧ q.store.writes = p.store.writes ++ [.invalidate])

theorem Part.Spoils.refl (p : Part) : p.Spoils p := ⟨rfl, .inl ⟨rfl, rfl⟩⟩

theorem Part.Spoils.trans {p q r : Part} (h : p.Spoils q) (h' : q.Spoils r) : p.Spoils r where
  store := by
    rw [h'.store, h.store]
  writes := by
    rcases h'.writes with ⟨hvalid', hstore'⟩ | ⟨hbefore', hafter', hwrites'⟩
    · rw [hvalid', hstore']
      exact h.writes
    · rcases h.writes with ⟨hvalid, hstore⟩ | ⟨-, hafter, -⟩
      · exact .inr ⟨hvalid ▸ hbefore', hafter', by rw [hwrites', hstore]⟩
      · exact absurd (hafter.symm.trans hbefore') Bool.noConfusion

theorem Part.spoils_of_clocks {p q : Part} (hvalid : q.clocks.recordValid = p.clocks.recordValid) (hstore : q.store = p.store) :
    p.Spoils q := ⟨by rw [hstore], .inl ⟨hvalid, hstore⟩⟩

theorem Part.spoils_spoilRecord (p : Part) : p.Spoils p.spoilRecord := by
  unfold Part.spoilRecord Part.askWrite
  split
  · next hvalid =>
    dsimp only
    split
    · next h => exact ⟨rfl, .inr ⟨hvalid, rfl, congrArg (· ++ [StoreWrite.invalidate]) (List.isEmpty_iff.mp h).symm⟩⟩
    · exact ⟨rfl, .inr ⟨hvalid, rfl, rfl⟩⟩
  · exact .refl p

theorem Part.spoils_evaluate (p : Part) (i : Nat) (boundary retry : Bool) : p.Spoils (p.evaluate i boundary retry) := by
  by_cases hleft : (p.clocks.line i).isFaulted = true ∨ (p.clocks.line i).state = .parked
  · rw [Part.evaluate_left hleft]
    exact .refl p
  · rw [not_or, Bool.not_eq_true] at hleft
    have hset : p.Spoils (p.setLine i (p.evaluated i boundary retry)) := Part.spoils_of_clocks rfl rfl
    have hlatch (q : Part) (c : Prop) [Decidable c] : q.Spoils (if c then q.latchNat .clockLineInStep (i + 1) else q) := by
      split
      · exact Part.spoils_of_clocks rfl rfl
      · exact .refl q
    rw [Part.evaluate_eq hleft.1 hleft.2]
    dsimp only
    refine Part.Spoils.trans ?_ (hlatch _ _)
    split
    · exact hset.trans (Part.spoils_spoilRecord _)
    · exact hset

theorem Part.evaluate_port (p : Part) (i : Nat) (boundary retry : Bool) (l : Link) :
    (p.evaluate i boundary retry).port l = p.port l ∨
      ∃ x, (p.evaluate i boundary retry).port l = (p.port l).latch .clockLineInStep x := by
  by_cases hleft : (p.clocks.line i).isFaulted = true ∨ (p.clocks.line i).state = .parked
  · rw [Part.evaluate_left hleft]
    exact .inl rfl
  · rw [not_or, Bool.not_eq_true] at hleft
    have hport (q : Part) : (if (p.decision i boundary).impulse = true then q.spoilRecord else q).port l = q.port l := by
      split
      · unfold Part.spoilRecord
        split
        · cases l <;> rfl
        · rfl
      · rfl
    have hset : (p.setLine i (p.evaluated i boundary retry)).port l = p.port l := by cases l <;> rfl
    rw [Part.evaluate_eq hleft.1 hleft.2]
    dsimp only
    split
    · exact .inr ⟨_, by rw [Part.latchNat, Part.latch_port, hport, hset]⟩
    · exact .inl ((hport _).trans hset)

/-! ## The four lines in turn -/

theorem Part.evaluateFree_line_other (p : Part) {i j : Nat} (h : j ≠ i) (boundary : Bool) :
    (p.evaluateFree i boundary).clocks.line j = p.clocks.line j := by
  unfold Part.evaluateFree
  split
  · rfl
  · exact Part.evaluate_line_other h _ _

/-- What the evaluation of the lines `l`, one after the other, leaves. -/
structure Part.Evaluates (boundary : Bool) (l : List Nat) (p q : Part) : Prop where
  frame : q.beyondClocks = p.beyondClocks
  length : q.clocks.lines.length = p.clocks.lines.length
  park : q.clocks.park = p.clocks.park
  spoils : p.Spoils q
  evaluated : ∀ i ∈ l, q.clocks.line i = (p.evaluateFree i boundary).clocks.line i
  other : ∀ i, i ∉ l → q.clocks.line i = p.clocks.line i
  valid : q.clocks.recordValid = p.clocks.recordValid ∨ ∃ i ∈ l,
    (q.clocks.line i).impulse ≠ (p.clocks.line i).impulse

theorem Part.evaluates_one (p : Part) (boundary : Bool) {i : Nat} (hi : i < p.clocks.lines.length) :
    Part.Evaluates boundary [i] p (p.evaluateFree i boundary) := by
  have hother (j : Nat) (hj : j ∉ [i]) : (p.evaluateFree i boundary).clocks.line j = p.clocks.line j :=
    p.evaluateFree_line_other (fun h => hj (List.mem_singleton.mpr h)) boundary
  have hself (j : Nat) (hj : j ∈ [i]) : (p.evaluateFree i boundary).clocks.line j = (p.evaluateFree j boundary).clocks.line j := by
    rw [List.mem_singleton.mp hj]
  by_cases h : (p.clocks.line i).impulse.isSome = true
  · have hp : p.evaluateFree i boundary = p := if_pos h
    rw [hp] at hself hother ⊢
    exact ⟨rfl, rfl, rfl, .refl p, hself, hother, .inl rfl⟩
  · have hp : p.evaluateFree i boundary = p.evaluate i boundary false := if_neg h
    refine ⟨?_, ?_, ?_, ?_, hself, hother, ?_⟩
    all_goals rw [hp]
    · exact p.evaluate_beyondClocks i boundary false
    · exact p.evaluate_lines_length i boundary false
    · exact p.evaluate_park i boundary false
    · exact p.spoils_evaluate i boundary false
    · by_cases hleft : (p.clocks.line i).isFaulted = true ∨ (p.clocks.line i).state = .parked
      · rw [Part.evaluate_left hleft]
        exact .inl rfl
      · rw [not_or, Bool.not_eq_true] at hleft
        by_cases himpulse : (p.decision i boundary).impulse = true
        · have hline : ((p.evaluate i boundary false).clocks.line i).impulse = some (p.newImpulse i) := by
            rw [Part.evaluate_line hi hleft.1 hleft.2, Part.evaluated_of rfl]
            exact if_pos himpulse
          have hnone : (p.clocks.line i).impulse = none := Option.not_isSome_iff_eq_none.mp h
          have hne : ((p.evaluate i boundary false).clocks.line i).impulse ≠ (p.clocks.line i).impulse := by
            rw [hline, hnone]
            exact Option.some_ne_none _
          exact .inr ⟨i, List.mem_singleton.mpr rfl, hne⟩
        · rw [Part.evaluate_clocks hleft.1 hleft.2, Bool.eq_false_iff.mpr himpulse]
          exact .inl (Bool.and_true _)

theorem Part.evaluateFree_line_congr {p q : Part} {i : Nat} (hp : i < p.clocks.lines.length) (hq : i < q.clocks.lines.length)
    (hline : p.clocks.line i = q.clocks.line i) (hrows : p.store.working = q.store.working) (htime : p.time = q.time)
    (hnow : p.elapsed = q.elapsed) (boundary : Bool) :
    (p.evaluateFree i boundary).clocks.line i = (q.evaluateFree i boundary).clocks.line i := by
  unfold Part.evaluateFree
  rw [hline]
  split
  · exact hline
  · exact Part.evaluate_line_congr hp hq hline hrows htime hnow _ _

theorem Part.Evaluates.cons {boundary : Bool} {i : Nat} {l : List Nat} {p q r : Part} (h : Part.Evaluates boundary [i] p q)
    (h' : Part.Evaluates boundary l q r) (hi : i ∉ l) (hl : ∀ j ∈ l, j < p.clocks.lines.length) :
    Part.Evaluates boundary (i :: l) p r := by
  have hkept (j : Nat) (hj : j ∈ l) : q.clocks.line j = p.clocks.line j :=
    h.other j fun hji => hi (List.mem_singleton.mp hji ▸ hj)
  refine ⟨h'.frame.trans h.frame, h'.length.trans h.length, h'.park.trans h.park, h.spoils.trans h'.spoils, fun j hj => ?_,
    fun j hj => ?_, ?_⟩
  · rcases List.mem_cons.mp hj with rfl | hj
    · exact (h'.other j hi).trans (h.evaluated j (List.mem_singleton.mpr rfl))
    · rw [h'.evaluated j hj]
      refine Part.evaluateFree_line_congr (h.length ▸ hl j hj) (hl j hj) (hkept j hj) (by rw [h.spoils.store])
        (Part.time_of_clocks h.frame) (Part.elapsed_of_clocks h.frame) boundary
  · rw [List.mem_cons, not_or] at hj
    exact (h'.other j hj.2).trans (h.other j fun hji => hj.1 (List.mem_singleton.mp hji))
  · rcases h'.valid with hv' | ⟨j, hj, hne⟩
    · rcases h.valid with hv | ⟨j, hj, hne⟩
      · exact .inl (hv'.trans hv)
      · obtain rfl := List.mem_singleton.mp hj
        exact .inr ⟨j, List.mem_cons_self, by rwa [h'.other j hi]⟩
    · exact .inr ⟨j, List.mem_cons_of_mem _ hj, by rwa [← hkept j hj]⟩

theorem Part.evaluates_foldl (boundary : Bool) {l : List Nat} (hn : l.Nodup) {p : Part} (hl : ∀ j ∈ l, j < p.clocks.lines.length) :
    Part.Evaluates boundary l p (l.foldl (fun p i => p.evaluateFree i boundary) p) := by
  induction l generalizing p with
  | nil => exact ⟨rfl, rfl, rfl, .refl p, fun i hi => (List.not_mem_nil hi).elim, fun _ _ => rfl, .inl rfl⟩
  | cons i l ih =>
    obtain ⟨hi, hn⟩ := List.nodup_cons.mp hn
    have hone := p.evaluates_one boundary (hl i List.mem_cons_self)
    have hrest (j : Nat) (hj : j ∈ l) := hl j (List.mem_cons_of_mem _ hj)
    exact hone.cons (ih hn fun _ hj => hone.length ▸ hrest _ hj) hi hrest

theorem Part.evaluates_evaluateAll (boundary : Bool) {p : Part} (h : p.clocks.lines.length = 4) :
    Part.Evaluates boundary (List.range 4) p (p.evaluateAll boundary) :=
  Part.evaluates_foldl boundary List.nodup_range fun _ hj => h ▸ List.mem_range.mp hj

theorem Part.spoils_evaluateAll (p : Part) (boundary : Bool) : p.Spoils (p.evaluateAll boundary) :=
  foldl_invariant (p.Spoils ·) _ (fun q i h => by
    refine h.trans ?_
    unfold Part.evaluateFree
    split
    · exact .refl q
    · exact q.spoils_evaluate _ _ _) _ p (.refl p)

theorem Part.evaluateAll_park (p : Part) (boundary : Bool) : (p.evaluateAll boundary).clocks.park = p.clocks.park :=
  foldl_keeps (fun p : Part => p.clocks.park) _ (fun q i => by
    unfold Part.evaluateFree
    split
    · rfl
    · exact q.evaluate_park _ _ _) _ p

theorem Part.evaluateAll_anew {sel : EventKind → Prop} (hsel : sel .clockLineInStep) {subject : BitVec 16} {rate : Nat} {l : Link}
    {p : Part} (h : (p.port l).Anew sel subject rate) (boundary : Bool) : ((p.evaluateAll boundary).port l).Anew sel subject rate :=
  foldl_invariant (fun p : Part => (p.port l).Anew sel subject rate) _ (fun q i h => by
    unfold Part.evaluateFree
    split
    · exact h
    · rcases q.evaluate_port i boundary false l with hport | ⟨x, hport⟩
      · rwa [hport]
      · rw [hport]
        exact h.latch hsel x) _ p h

end Sys2Proof.Machine
end

section
/-! The input starts that a soft reset gives (R200): they only add input cues. -/

namespace Sys2Proof.Machine

/-- A scheduler with emergency cues of inputs alone and every zone idle. -/
structure CueSched.InputsOnly (q : CueSched) : Prop where
  pool : ∀ x ∈ q.pool, x.origin = .input ∧ x.cls = .emergency
  zone : ∀ z, q.zone z = .idle

/-- The scheduler but for its records, their queues, the numbers given and the repeat timers. -/
def CueSched.beyondPlaced (q : CueSched) : CueSched :=
  { q with pool := [], queues := [], nextId := 0, nextArrival := 0, repeats := [] }

theorem CueSched.InputsOnly.zoneVictim {q : CueSched} (h : q.InputsOnly) (z : Nat) : q.zoneVictim z .emergency = none := by
  rw [Option.eq_none_iff_forall_not_mem]
  intro v hv
  obtain ⟨-, c, hc, hlt⟩ := CueSched.zoneVictim_some hv
  rw [(h.pool c (CueSched.cue?_mem hc).1).2] at hlt
  exact Nat.lt_irrefl _ hlt

/-- A reference is added to a queue with room, and to no other. -/
theorem Part.insertReference_inputsOnly {p : Part} (h : p.cues.InputsOnly) (id z : Nat) :
    ∃ queues, p.insertReference id .emergency z = { p with cues := { p.cues with queues := queues } } := by
  unfold Part.insertReference
  rw [h.zoneVictim z, ite_self]
  dsimp only
  split
  · exact ⟨_, rfl⟩
  · exact ⟨p.cues.queues, rfl⟩

theorem Part.foldl_insertReference_inputsOnly (id : Nat) (zones : List Nat) {p : Part} (h : p.cues.InputsOnly) :
    ∃ queues, zones.foldl (fun p z => p.insertReference id .emergency z) p = { p with cues := { p.cues with queues := queues } } := by
  induction zones generalizing p with
  | nil => exact ⟨p.cues.queues, rfl⟩
  | cons z zones ih =>
    obtain ⟨queues, hq⟩ := p.insertReference_inputsOnly h id z
    rw [List.foldl_cons, hq]
    obtain ⟨queues', hq'⟩ := ih (p := { p with cues := { p.cues with queues := queues } }) ⟨h.pool, h.zone⟩
    exact ⟨queues', hq'⟩

theorem Part.preemptZone_of_idle {p : Part} {z : Nat} (h : p.cues.zone z = .idle) : p.preemptZone z = p := by
  unfold Part.preemptZone
  rw [h]

theorem Part.foldl_preemptZone_of_idle (zones : List Nat) {p : Part} (h : ∀ z, p.cues.zone z = .idle) :
    zones.foldl (fun p z => p.preemptZone z) p = p := by
  induction zones with
  | nil => rfl
  | cons z zones ih => rw [List.foldl_cons, Part.preemptZone_of_idle (h z), ih]

theorem Part.insertCue_inputsOnly {p : Part} (h : p.cues.InputsOnly) (id : Nat) (zones : List Nat) :
    ∃ queues, p.insertCue id .emergency zones = { p with cues := { p.cues with queues := queues } } := by
  obtain ⟨queues, hq⟩ := Part.foldl_insertReference_inputsOnly id zones h
  refine ⟨queues, ?_⟩
  unfold Part.insertCue
  rw [hq]
  exact (if_pos rfl).trans (Part.foldl_preemptZone_of_idle zones h.zone)

/-- What input starts leave of a scheduler with input cues alone: input cues alone, numbers given only to a record, and no port
but for CUE_DROPPED. -/
structure Part.Restarts (p q : Part) : Prop where
  frame : q.beyondCues = p.beyondCues
  sched : q.cues.beyondPlaced = p.cues.beyondPlaced
  inputs : q.cues.InputsOnly
  numbers : q.cues.pool = [] → q.cues.nextId = p.cues.nextId ∧ q.cues.nextArrival = p.cues.nextArrival ∧ p.cues.pool = []
  port : ∀ l {sel : EventKind → Prop} {subject : BitVec 16} {rate : Nat}, sel .cueDropped →
    (p.port l).Anew sel subject rate → (q.port l).Anew sel subject rate

theorem Part.Restarts.refl {p : Part} (h : p.cues.InputsOnly) : p.Restarts p :=
  ⟨rfl, rfl, h, fun hp => ⟨rfl, rfl, hp⟩, fun _ _ _ _ _ h => h⟩

theorem Part.Restarts.trans {p q r : Part} (h : p.Restarts q) (h' : q.Restarts r) : p.Restarts r where
  frame := h'.frame.trans h.frame
  sched := h'.sched.trans h.sched
  inputs := h'.inputs
  numbers hr := by
    obtain ⟨hid', harrival', hq⟩ := h'.numbers hr
    obtain ⟨hid, harrival, hp⟩ := h.numbers hq
    exact ⟨hid'.trans hid, harrival'.trans harrival, hp⟩
  port l _ _ _ hsel hp := h'.port l hsel (h.port l hsel hp)

theorem Part.placeOrDrop_restarts {p : Part} (h : p.cues.InputsOnly) {n : NewCue} (horigin : n.origin = .input)
    (hcls : n.cls = .emergency) : p.Restarts (p.placeOrDrop n) := by
  have hdropped : p.Restarts (p.latchNat .cueDropped 0) :=
    ⟨rfl, rfl, h, fun hp => ⟨rfl, rfl, hp⟩, fun l _ _ _ hsel hp => by
      rw [Part.latchNat, Part.latch_port]
      exact hp.latch hsel _⟩
  unfold Part.placeOrDrop
  by_cases hz : (n.zones.filter fun z => p.cues.hasRoom z n.cls) = []
  · rw [Part.place_queueFull rfl hz]
    exact hdropped
  · cases hfull : p.cues.quotaFull n.origin with
    | true =>
      have hroom : p.poolRoom n.origin n.cls = none := Part.poolRoom_of_full _ hfull (by rw [horigin]; decide)
      rw [Part.place_poolFull rfl hz hroom]
      exact hdropped
    | false =>
      rw [Part.place_created rfl hz (Part.poolRoom_of_room n.cls hfull)]
      dsimp only
      rw [hcls]
      have hinputs : (p.withNewCue n (n.zones.filter fun z => p.cues.hasRoom z .emergency)).cues.InputsOnly := by
        refine ⟨fun x hx => ?_, h.zone⟩
        rcases List.mem_append.mp hx with hx | hx
        · exact h.pool x hx
        · rw [List.mem_singleton.mp hx]
          exact ⟨horigin, hcls⟩
      obtain ⟨queues, hq⟩ := Part.insertCue_inputsOnly hinputs p.cues.newId (n.zones.filter fun z => p.cues.hasRoom z .emergency)
      rw [hq]
      refine ⟨rfl, rfl, ⟨hinputs.pool, h.zone⟩, fun hp => absurd hp (List.append_ne_nil_of_right_ne_nil _ (List.cons_ne_nil _ _)),
        fun l _ _ _ _ hp => ?_⟩
      cases l <;> exact hp

theorem Part.inputStart_restarts {p : Part} (h : p.cues.InputsOnly) (i : Nat) : p.Restarts (p.inputStart i) := by
  unfold Part.inputStart
  split
  · exact .refl h
  · have hmake : p.Restarts (p.makeInputCue i) := Part.placeOrDrop_restarts h rfl rfl
    refine hmake.trans ⟨rfl, rfl, ⟨hmake.inputs.pool, hmake.inputs.zone⟩, fun hp => ⟨rfl, rfl, hp⟩, fun l _ _ _ _ hp => ?_⟩
    cases l <;> exact hp

theorem Part.inputRestarts_restarts {p : Part} (h : p.cues.InputsOnly) : p.Restarts p.inputRestarts :=
  foldl_invariant (p.Restarts ·) _ (fun q i hq => by
    split
    · exact hq.trans (Part.inputStart_restarts hq.inputs i)
    · exact hq) _ p (.refl h)

/-! ## The end of an event while the announcer is LOST (R152) -/

/-- With the announcer LOST nothing is released: the end of an event that did not tell the Wall Composer only names generations. -/
theorem Part.ended_of_lost {p : Part} (h : p.cues.announcer = .lost) : p.ended false = { p.nameGenerations with ev := noEvent } := by
  have hnone : (p.seen (p.ended false).image).outgoing = [] := by
    refine List.eq_nil_iff_forall_not_mem.mpr fun c hc => ?_
    obtain ⟨-, he⟩ := Part.mem_outgoing.mp hc
    obtain ⟨-, hup, -⟩ := (Part.eligibleCue_iff _ c).mp he
    exact absurd (h.symm.trans hup) (by decide)
  rw [Part.ended_releases, hnone, Part.nameGenerations_eq, Part.ended_image]
  rfl

end Sys2Proof.Machine
end

section
/-! A soft reset, block by block (O7, O9). -/

namespace Sys2Proof.Machine

/-! ## The inputs' change of configuration (R200) -/

theorem foldl_updateAt_getD {α : Type} (f : Nat → α → α) (d : α) {l : List Nat} (hn : l.Nodup) (ws : List α) {i : Nat}
    (hi : i < ws.length) : (l.foldl (fun ws j => updateAt ws j (f j)) ws).getD i d =
      if i ∈ l then f i (ws.getD i d) else ws.getD i d := by
  induction l generalizing ws with
  | nil => simp
  | cons j l ih =>
    obtain ⟨hj, hn⟩ := List.nodup_cons.mp hn
    rw [List.foldl_cons, ih hn _ ((updateAt_length ws j (f j)).symm ▸ hi)]
    by_cases hji : j = i
    · subst hji
      rw [if_neg hj, if_pos List.mem_cons_self, updateAt_getD_same _ _ _ _ hi]
    · rw [updateAt_getD_other _ _ _ _ _ hji]
      simp only [List.mem_cons, Ne.symm hji, false_or]

theorem Part.inputsReloaded_eq (p : Part) (rows : List (List Byte)) : p.inputsReloaded rows = {
    p with
    inputs := (List.range 4).foldl
      (fun ws i => updateAt ws i fun w => w.configMove (inputConfigIn rows i) (p.inputConfig i) p.elapsed) p.inputs } := by
  have h (l : List Nat) : ∀ p : Part, l.foldl
      (fun p i => p.modInput i fun w => w.configMove (inputConfigIn rows i) (p.inputConfig i) p.elapsed) p =
      { p with
        inputs := l.foldl (fun ws i => updateAt ws i fun w => w.configMove (inputConfigIn rows i) (p.inputConfig i) p.elapsed) p.inputs } := by
    induction l with
    | nil => intro p; rfl
    | cons i l ih =>
      intro p
      rw [List.foldl_cons, ih]
      rfl
  exact h _ p

theorem Part.inputsReloaded_input {p : Part} (h : p.inputs.length = 4) (rows : List (List Byte)) {i : Nat} (hi : i < 4) :
    (p.inputsReloaded rows).input i = (p.input i).configMove (inputConfigIn rows i) (p.inputConfig i) p.elapsed := by
  rw [Part.input, Part.inputsReloaded_eq]
  exact (foldl_updateAt_getD (fun i w => w.configMove (inputConfigIn rows i) (p.inputConfig i) p.elapsed) resetInput
    List.nodup_range _ (h.symm ▸ hi)).trans (if_pos (List.mem_range.mpr hi))

/-! ## The stages of a soft reset (R196) -/

/-- The part `a` after the write under way has ended and the working copy has been loaded. -/
def Part.softLoaded (a : Part) : Part := a.begin.softWrites.loadRows

/-- The blocks of the loaded part `q` in their reset state, but for the clock lines; `rows` is the working copy before the load. -/
def Part.softBlocks (q : Part) (rows : List (List Byte)) : Part :=
  ((((q.resetLinks 1).softTime).resetTables.resetCues q.cues.nextId).inputsReloaded rows).resetChain

/-- The part before the input starts. -/
def Part.softComposed (a : Part) : Part :=
  let e := (a.softLoaded.softBlocks a.store.working).keptClocks
  e.composeFresh (countNext e.image.generation)

theorem Part.softReset_eq (p : Part) : p.softReset = p.sendResetReply.completeControl.softComposed.inputRestarts.finish := by
  unfold Part.softReset Part.softComposed Part.softBlocks Part.softLoaded
  rfl

theorem Part.softWrites_eq (p : Part) : p.softWrites = { p with store := p.softWrites.store } := by
  unfold Part.softWrites
  split <;> rfl

theorem Part.softLoaded_eq (a : Part) : a.softLoaded = { a.begin with store := a.softLoaded.store } :=
  congrArg Part.loadRows (Part.softWrites_eq a.begin)

theorem Part.softBlocks_eq (q : Part) (rows : List (List Byte)) : q.softBlocks rows = { q with
    info := resetPort 1 (q.cfg 0 1), ctl := resetPort 1 (q.cfg 0 1)
    feed := (q.resetLinks 1).feed, resetDue := false, time := q.softTime.time, table := resetTable
    own := resetOwnership (q.cfg 0 7), notices := resetNotices, cues := (q.resetCues q.cues.nextId).cues
    inputs := (q.inputsReloaded rows).inputs, chain := q.resetChain.chain } := by
  unfold Part.softBlocks
  rw [Part.inputsReloaded_eq, Part.inputsReloaded_eq]
  rfl

/-- The clock lines of a part as a soft reset first takes them: no park, no line PARKED, the record as row 10 gives it (R183). -/
def Part.clocksTaken (p : Part) : Part := { p with clocks :=
  { lines := p.clocks.lines.map fun k => { k with state := if k.state = .parked then .stopped else k.state }, park := none,
    recordValid := p.store.recordValid } }

theorem Part.keptClocks_eq (p : Part) : p.keptClocks = p.clocksTaken.evaluateAll false := by
  have hline (k : ClockLine) : (if k.state == .parked then { k with state := .stopped } else k) =
      { k with state := if k.state = .parked then .stopped else k.state } := by
    by_cases h : k.state = .parked
    · rw [if_pos (beq_iff_eq.mpr h), if_pos h]
    · rw [if_neg (mt beq_iff_eq.mp h), if_neg h]
  have hlines := List.map_congr_left (l := p.clocks.lines) fun k _ => hline k
  exact congrArg (fun lines => ({ p with clocks := { lines := lines, park := none, recordValid := p.store.recordValid } } : Part).evaluateAll
    false) hlines

theorem Part.finish_of_lost {p : Part} (h : p.cues.announcer = .lost) (hev : p.ev.wallTold = false) :
    p.finish = { p.seen p.image with ev := noEvent } := by
  rw [Part.finish_eq_ended, hev, Part.ended_of_lost h, Part.nameGenerations_eq]

theorem Part.resetCues_inputsOnly (p : Part) (next : Nat) : (p.resetCues next).cues.InputsOnly := by
  rw [Part.resetCues_sched]
  refine ⟨fun x hx => (List.not_mem_nil hx).elim, fun z => ?_⟩
  show (List.replicate 8 ZoneState.idle).getD (z - 1) .idle = .idle
  rw [List.getD_eq_getElem?_getD, List.getElem?_replicate]
  split <;> rfl

/-- What is left of the loaded part `q` once its blocks have been reset, the lines evaluated and the input starts given. -/
structure Part.SoftLeft (q d e p : Part) : Prop where
  kept : p = { d with clocks := e.clocks, store := e.store, info := p.info, ctl := p.ctl, image := p.image, cues := p.cues, ev := noEvent }
  lines : ∀ l ∈ p.image.lines, l.generation = p.image.generation ∧ l.content.service = none
  generation : p.image.generation = countNext q.image.generation
  sched : p.cues.beyondPlaced = d.cues.beyondPlaced
  pool : ∀ x ∈ p.cues.pool, x.origin = .input
  numbers : p.cues.pool = [] → p.cues.nextId = d.cues.nextId ∧ p.cues.nextArrival = d.cues.nextArrival
  port : ∀ l, (p.port l).Anew (fun k => k = .clockLineInStep ∨ k = .cueDropped) 1 (q.cfg 0 1)

section
variable {q d e : Part} {rows : List (List Byte)} (hd : d = q.softBlocks rows) (he : e = d.keptClocks)
include hd

theorem Part.softBlocks_cues : d.cues = (q.resetCues q.cues.nextId).cues := by
  rw [hd, Part.softBlocks_eq]

theorem Part.softBlocks_rest : d.table = resetTable ∧ d.image = q.image ∧ d.ev = q.ev ∧ ∀ l, d.port l = resetPort 1 (q.cfg 0 1) := by
  rw [hd, Part.softBlocks_eq]
  exact ⟨rfl, rfl, rfl, fun l => by cases l <;> rfl⟩

include he

omit hd in
theorem Part.keptClocks_frame : e.beyondClocks = d.beyondClocks := by
  rw [he, Part.keptClocks_eq]
  exact Part.evaluateAll_beyondClocks _ _

theorem Part.softEvaluated_anew (l : Link) :
    (e.port l).Anew (fun k => k = .clockLineInStep ∨ k = .cueDropped) 1 (q.cfg 0 1) := by
  have hport : d.clocksTaken.port l = resetPort 1 (q.cfg 0 1) := (by cases l <;> rfl : _ = d.port l).trans ((softBlocks_rest hd).2.2.2 l)
  rw [he, Part.keptClocks_eq]
  refine Part.evaluateAll_anew (.inl rfl) ?_ false
  rw [hport]
  exact Port.anew_resetPort _ _ _

theorem Part.softEvaluated_inputsOnly : e.cues.InputsOnly := by
  rw [Part.cues_of_clocks (keptClocks_frame he), softBlocks_cues hd]
  exact q.resetCues_inputsOnly _

theorem Part.softLeft (hev : q.ev.wallTold = false) :
    Part.SoftLeft q d e (e.composeFresh (countNext e.image.generation)).inputRestarts.finish := by
  obtain ⟨htable, himage, hdev, -⟩ := softBlocks_rest hd
  have hframe := keptClocks_frame he
  have hinputs : e.cues.InputsOnly := softEvaluated_inputsOnly hd he
  have hrestarts := Part.inputRestarts_restarts (p := e.composeFresh (countNext e.image.generation)) hinputs
  have hanew (l : Link) : ((e.composeFresh (countNext e.image.generation)).port l).Anew
      (fun k => k = .clockLineInStep ∨ k = .cueDropped) 1 (q.cfg 0 1) :=
    (by cases l <;> rfl : e.port l = _) ▸ softEvaluated_anew hd he l
  have hecues : e.cues = d.cues := Part.cues_of_clocks hframe
  have hcues : (e.composeFresh (countNext e.image.generation)).cues = d.cues := hecues
  have hlost : d.cues.announcer = .lost := by
    rw [softBlocks_cues hd, Part.resetCues_sched]
    rfl
  have hlines : ∀ l ∈ (e.composeFresh (countNext e.image.generation)).image.lines,
      l.generation = (e.composeFresh (countNext e.image.generation)).image.generation ∧ l.content.service = none := fun l hl =>
    Part.composeFresh_lines (by rw [Part.table_of_clocks hframe, htable]; rfl) _ hl
  have hgeneration : (e.composeFresh (countNext e.image.generation)).image.generation = countNext q.image.generation :=
    congrArg countNext (congrArg Image.generation ((Part.image_of_clocks hframe).trans himage))
  have hkept : e.composeFresh (countNext e.image.generation) = { d with
      clocks := e.clocks, store := e.store, info := e.info, ctl := e.ctl
      image := (e.composeFresh (countNext e.image.generation)).image } :=
    congrArg (fun x : Part => ({ x with image := (e.composeFresh (countNext e.image.generation)).image } : Part))
      (Part.eq_of_beyondClocks hframe)
  generalize e.composeFresh (countNext e.image.generation) = g at *
  generalize g.inputRestarts = r at hrestarts ⊢
  have hr := Part.eq_of_beyondCues hrestarts.frame
  have hsched : r.cues.beyondPlaced = d.cues.beyondPlaced := hcues ▸ hrestarts.sched
  have hfinish : r.finish = { r.seen r.image with ev := noEvent } := by
    refine Part.finish_of_lost ((congrArg CueSched.announcer hsched :).trans hlost) ?_
    rw [Part.ev_of_cues hrestarts.frame, hkept]
    exact hdev ▸ hev
  have himage' : r.image = g.image := Part.image_of_cues hrestarts.frame
  rw [hfinish]
  refine ⟨?_, ?_, ?_, hsched, fun x hx => ?_, fun hp => ?_, fun l => ?_⟩
  · rw [hr, hkept]
    rfl
  · show ∀ l ∈ r.image.lines, l.generation = r.image.generation ∧ _
    rw [himage']
    exact hlines
  · exact (congrArg Image.generation himage').trans hgeneration
  · obtain ⟨y, hy, rfl⟩ := List.mem_map.mp hx
    rw [Cue.named]
    split
    · exact (hrestarts.inputs.pool y hy).1
    · exact (hrestarts.inputs.pool y hy).1
  · obtain ⟨hid, harrival, -⟩ := hrestarts.numbers (List.map_eq_nil_iff.mp hp)
    rw [← hcues]
    exact ⟨hid, harrival⟩
  · have h := hrestarts.port l (sel := fun k => k = .clockLineInStep ∨ k = .cueDropped) (.inr rfl) (hanew l)
    cases l <;> exact h

end

/-- The store after a soft reset is the loaded one, but for the write that marks the park record as not valid. -/
theorem Part.softStore {q d e : Part} {rows : List (List Byte)} (hd : d = q.softBlocks rows) (he : e = d.keptClocks) :
    e.store = { q.store with writes := e.store.writes, writeBegan := e.store.writeBegan } := by
  have hstore : d.store = q.store := by
    rw [hd, Part.softBlocks_eq]
  have h := (d.clocksTaken.spoils_evaluateAll false).store
  rw [← d.keptClocks_eq, ← he] at h
  exact h.trans (congrArg (fun st : Store => { st with writes := e.store.writes, writeBegan := e.store.writeBegan }) hstore)

theorem Part.cfg_congr {p q : Part} (h : p.store.working = q.store.working) (r off : Nat) : p.cfg r off = q.cfg r off := by
  unfold Part.cfg Part.row
  rw [h]

/-- What a soft reset that starts at the part `a` leaves. -/
theorem Part.resetAt_softComposed (a : Part) : Part.ResetAt a.elapsed a.softComposed.inputRestarts.finish := by
  have hframe := a.softLoaded_eq
  have hnow : a.softLoaded.elapsed = a.elapsed := (congrArg Part.elapsed hframe :)
  have hfrozen : a.softLoaded.store.frozen = false := rfl
  have hworking : a.softLoaded.store.working = (a.softLoaded.store.stored.zip (List.range 11)).map fun xr => loadedRow xr.2 xr.1 := rfl
  have hev : a.softLoaded.ev.wallTold = false := (congrArg (fun p : Part => p.ev.wallTold) hframe :)
  show Part.ResetAt a.elapsed (((a.softLoaded.softBlocks a.store.working).keptClocks.composeFresh
    (countNext (a.softLoaded.softBlocks a.store.working).keptClocks.image.generation)).inputRestarts.finish)
  generalize a.softLoaded = q at *
  have hd := q.softBlocks_eq a.store.working
  have hleft := Part.softLeft (q := q) (rows := a.store.working) rfl rfl hev
  have hstore := Part.softStore (q := q) (rows := a.store.working) rfl rfl
  generalize q.softBlocks a.store.working = d at *
  generalize d.keptClocks = e at *
  generalize (e.composeFresh (countNext e.image.generation)).inputRestarts.finish = p at *
  obtain ⟨hkept, hlines, -, hsched, hpool, -, -⟩ := hleft
  have hpstore : p.store = { q.store with writes := e.store.writes, writeBegan := e.store.writeBegan } :=
    (congrArg Part.store hkept :).trans hstore
  have hcfg (r off : Nat) : p.cfg r off = q.cfg r off := Part.cfg_congr (congrArg Store.working hpstore :) r off
  have hcues : p.cues.beyondPlaced = ({ q.cues.fresh q.cues.nextId q.elapsed with
      tx := (q.resetCues q.cues.nextId).cues.tx, tag := (q.resetCues q.cues.nextId).cues.tag } : CueSched).beyondPlaced := by
    rw [hsched, ← Part.resetCues_sched]
    exact (congrArg (fun x : Part => x.cues.beyondPlaced) hd :)
  have hchain : p.chain = q.resetChain.chain := (congrArg Part.chain hkept :).trans (congrArg Part.chain hd :)
  have hfeed : p.feed = (q.resetLinks 1).feed := (congrArg Part.feed hkept :).trans (congrArg Part.feed hd :)
  have helapsed : p.elapsed = q.elapsed := (congrArg Part.elapsed hkept :).trans (congrArg Part.elapsed hd :)
  have hown : p.own = resetOwnership (q.cfg 0 7) := (congrArg Part.own hkept :).trans (congrArg Part.own hd :)
  exact
    { table := (congrArg Part.table hkept :).trans (congrArg Part.table hd :)
      own := by rw [hown, hcfg]
      notices := (congrArg Part.notices hkept :).trans (congrArg Part.notices hd :)
      feed := by
        rw [hfeed, ← hnow, Part.heartbeatPeriod, hcfg]
        rfl
      resetDue := (congrArg Part.resetDue hkept :).trans (congrArg Part.resetDue hd :)
      elapsed := helapsed.trans hnow
      frozen := (congrArg Store.frozen hpstore :).trans hfrozen
      working := by
        rw [show p.store.working = q.store.working from (congrArg Store.working hpstore :),
          show p.store.stored = q.store.stored from (congrArg Store.stored hpstore :)]
        exact hworking
      positions := by rw [hchain, hcfg]; rfl
      panels := by rw [hchain]; rfl
      fitted := by rw [hchain, hcfg]; rfl
      duty := by rw [hchain]; rfl
      mode := by rw [hchain, hcfg]; rfl
      test := by rw [hchain]; rfl
      announcer := (congrArg CueSched.announcer hcues :)
      silence := (congrArg CueSched.silence hcues :)
      lastReject := (congrArg CueSched.lastReject hcues :)
      zones := (congrArg CueSched.zones hcues :)
      pool := hpool
      lines := hlines }

theorem Part.softComposed_anew (a : Part) (l : Link) : (a.softComposed.inputRestarts.finish.port l).Anew
    (fun k => k = .clockLineInStep ∨ k = .cueDropped) 1 (a.softComposed.inputRestarts.finish.cfg 0 1) := by
  have hev : a.softLoaded.ev.wallTold = false := (congrArg (fun p : Part => p.ev.wallTold) a.softLoaded_eq :)
  have hleft := Part.softLeft (q := a.softLoaded) (rows := a.store.working) rfl rfl hev
  have hstore := Part.softStore (q := a.softLoaded) (rows := a.store.working) rfl rfl
  have hcfg : a.softComposed.inputRestarts.finish.cfg 0 1 = a.softLoaded.cfg 0 1 :=
    Part.cfg_congr (congrArg Store.working ((congrArg Part.store hleft.kept :).trans hstore) :) 0 1
  rw [hcfg]
  exact hleft.port l

/-- Settles O7: both resets leave every block in its reset state, and what latches after that leaves the ports' promises. -/
theorem bothResetsEmptyTheTables : Obligations.BothResetsEmptyTheTables := by
  unfold Obligations.BothResetsEmptyTheTables
  intro c s hc now
  suffices h : ∃ p sel subject, Leaves c s p ∧ p.ResetAt now ∧ ¬sel .resetDone ∧ ∀ l, (p.port l).Anew sel subject (p.cfg 0 1) by
    obtain ⟨p, sel, subject, hleaves, hreset, hsel, hports⟩ := h
    exact ⟨p, hleaves, hreset.table, hreset.own, hreset.notices, hreset.feed, hreset.resetDue, hreset.elapsed, hreset.frozen,
      hreset.working, hreset.positions, hreset.panels, hreset.fitted, hreset.duty, hreset.mode, hreset.test, hreset.announcer,
      hreset.silence, hreset.lastReject, hreset.zones, hreset.pool, hreset.lines, fun l => ((hports l).law hsel).1⟩
  rcases hc with rfl | ⟨rfl, hp⟩
  · have hfrozen : s.part.loadedPart.store.frozen = false := rfl
    have hnow : now = s.part.elapsed := if_neg (by decide)
    refine ⟨s.part.powerOn, (· = .settingsFault), 0, leaves_powerOnReset s, ?_, by decide, s.part.loadedPart.powerOnBlocks_anew⟩
    rw [hnow, Part.powerOn_eq, ← s.part.loadedPart_frame.1]
    exact Part.resetAt_powerOnBlocks hfrozen rfl
  · have hnow : now = s.part.sendResetReply.completeControl.elapsed := if_pos rfl
    refine ⟨_, _, 1, leaves_act (·.softReset) rfl hp s.part.softReset_eq, ?_, by decide,
      s.part.sendResetReply.completeControl.softComposed_anew⟩
    rw [hnow]
    exact Part.resetAt_softComposed _

end Sys2Proof.Machine
end

section
/-! What a soft reset keeps (O9). -/

namespace Sys2Proof.Machine

/-! ## The reply that the reset awaits (R186, R196) -/

theorem OutFrame.isResetReply_iff (f : OutFrame) :
    f.isResetReply = true ↔ ∃ tag summary body, f = .reply 0x85 tag summary 0 body := by
  cases f with
  | notice summary events => exact ⟨fun h => Bool.noConfusion h, fun ⟨_, _, _, h⟩ => OutFrame.noConfusion h⟩
  | reply kind tag summary result body =>
    simp only [OutFrame.isResetReply, Bool.and_eq_true, beq_iff_eq, OutFrame.reply.injEq]
    exact ⟨fun ⟨hk, hr⟩ => ⟨tag, summary, body, hk, rfl, rfl, hr, rfl⟩, fun ⟨_, _, _, hk, _, _, hr, _⟩ => ⟨hk, hr⟩⟩

theorem Part.sendResetReply_none {p : Part} (h : p.resetDue = false ∨ ∀ f ∈ p.info.tx, ¬f.isResetReply = true) :
    p.sendResetReply = p := by
  refine if_neg fun hc => ?_
  obtain ⟨hdue, hany⟩ := Bool.and_eq_true _ _ ▸ hc
  obtain ⟨f, hf, hreply⟩ := List.any_eq_true.mp hany
  rcases h with h | h
  · exact absurd (hdue.symm.trans h) Bool.noConfusion
  · exact h f hf hreply

/-- The time a list of frames takes on a line. -/
def tookFrames (rate : Nat) (frames : List OutFrame) : Nat := (frames.map (·.duration rate)).sum

theorem tookFrames_append (rate : Nat) (a b : List OutFrame) : tookFrames rate (a ++ b) = tookFrames rate a + tookFrames rate b := by
  rw [tookFrames, List.map_append, List.sum_append]
  rfl

theorem tookFrames_ite (rate : Nat) (c : Bool) (f : OutFrame) :
    tookFrames rate (if c then [f] else []) = if c then tookFrames rate [f] else 0 := by
  cases c <;> rfl

/-- When the reply has been sent, by the frames up to it. -/
theorem Port.resetReplySent_eq {q : Port} {ahead behind : List OutFrame} {reply : OutFrame} (htx : q.tx = ahead ++ reply :: behind)
    (hreply : reply.isResetReply = true) (hahead : ∀ f ∈ ahead, ¬f.isResetReply = true) (now : Nat) :
    let unsent := if q.lineEnd.isSome then (ahead ++ [reply]).drop 1 else ahead ++ [reply]
    q.resetReplySent now = max now (q.lineEnd.getD now) +
      tookFrames q.rate ((if q.noticeDue && !unsent.isEmpty then [.notice 0 q.latched] else []) ++ unsent) := by
  have hidx : q.tx.findIdx OutFrame.isResetReply = ahead.length := by
    rw [htx, List.findIdx_append]
    rw [if_neg]
    · rw [List.findIdx_cons, hreply]
      exact Nat.zero_add _
    · rw [Nat.not_lt]
      refine Nat.le_of_eq (List.findIdx_eq_length.mpr fun f hf => ?_).symm
      exact Bool.eq_false_iff.mpr (hahead f hf)
  have htake : q.tx.take (ahead.length + 1) = ahead ++ [reply] := by
    rw [htx, List.take_append]
    simp
  unfold Port.resetReplySent
  rw [hidx, htake]
  rfl

theorem Part.advanceTo_max (p : Part) (t : Nat) : p.advanceTo (max p.elapsed t) = p.advanceTo t := by
  unfold Part.advanceTo
  rw [← max_assoc, max_self]

section
variable {p : Part} {ahead behind : List OutFrame} {reply : OutFrame} (hdue : p.resetDue = true)
  (htx : p.info.tx = ahead ++ reply :: behind) (hreply : reply.isResetReply = true)
  (hahead : ∀ f ∈ ahead, ¬f.isResetReply = true)
include hdue htx hreply

theorem Part.sendResetReply_some : p.sendResetReply = p.advanceTo (p.info.resetReplySent p.elapsed) := by
  refine if_pos ?_
  rw [hdue, Bool.true_and, List.any_eq_true]
  exact ⟨reply, by rw [htx]; exact List.mem_append_right _ List.mem_cons_self, hreply⟩

include hahead

theorem Part.sendResetReply_free (h : p.info.lineEnd = none) : p.sendResetReply = p.advanceTo (p.elapsed +
    (if p.info.noticeDue then tookFrames p.info.rate [.notice 0 p.info.latched] else 0) + tookFrames p.info.rate ahead +
    tookFrames p.info.rate [reply]) := by
  rw [sendResetReply_some hdue htx hreply, Port.resetReplySent_eq htx hreply hahead, h]
  congr 1
  simp only [Option.isSome_none, Bool.false_eq_true, if_false, Option.getD_none, max_self]
  rw [show (ahead ++ [reply]).isEmpty = false by simp, Bool.not_false, Bool.and_true, tookFrames_append, tookFrames_append,
    tookFrames_ite, Nat.add_assoc, Nat.add_assoc]

theorem Part.sendResetReply_last {t : Nat} (h : p.info.lineEnd = some t) (hnil : ahead = []) :
    p.sendResetReply = p.advanceTo t := by
  rw [sendResetReply_some hdue htx hreply, Port.resetReplySent_eq htx hreply hahead, h, hnil, ← p.advanceTo_max t]
  simp [tookFrames]

theorem Part.sendResetReply_behind {t : Nat} {f : OutFrame} {rest : List OutFrame} (h : p.info.lineEnd = some t)
    (hcons : ahead = f :: rest) : p.sendResetReply = p.advanceTo (max p.elapsed t +
    (if p.info.noticeDue then tookFrames p.info.rate [.notice 0 p.info.latched] else 0) + tookFrames p.info.rate rest +
    tookFrames p.info.rate [reply]) := by
  rw [sendResetReply_some hdue htx hreply, Port.resetReplySent_eq htx hreply hahead, h, hcons]
  congr 1
  simp only [Option.isSome_some, if_true, Option.getD_some, List.cons_append, List.drop_one, List.tail_cons]
  rw [show (rest ++ [reply]).isEmpty = false by simp, Bool.not_false, Bool.and_true, tookFrames_append, tookFrames_append,
    tookFrames_ite, Nat.add_assoc, Nat.add_assoc]

end

/-! ## The request in execution on the Control link (R4, R196) -/

theorem Part.answerEdge_beyondPorts (p : Part) (l : Link) (r : Result) : (p.answerEdge l r).beyondPorts = p.beyondPorts := by
  unfold Part.answerEdge
  split
  · exact Part.answerWaiting_beyondPorts _ _ _ _ _ _
  · rfl

theorem Part.eq_of_beyondPorts {p q : Part} (h : q.beyondPorts = p.beyondPorts) : q = { p with info := q.info, ctl := q.ctl } :=
  (congrArg (fun x : Part => ({ x with info := q.info, ctl := q.ctl } : Part)) h :)

/-- The gap in the oscillator's edges: the derived source, and otherwise nothing beyond the ports. -/
theorem Part.oscillatorGap_eq (p : Part) : p.oscillatorGap = { p with
    time := { p.time with edgesSince := none, source := .derived }, info := p.oscillatorGap.info, ctl := p.oscillatorGap.ctl } := by
  refine Part.eq_of_beyondPorts (p := { p with time := { p.time with edgesSince := none, source := .derived } }) ?_
  unfold Part.oscillatorGap
  rw [Part.answerEdge_beyondPorts, Part.answerEdge_beyondPorts]
  split
  · exact Part.latchNat_beyondPorts _ _ _
  · rfl

theorem Part.completeControl_none {p : Part} (h : p.edgeLimit .control = none) : p.completeControl = p := by
  unfold Part.completeControl
  rw [h]

theorem Part.completeControl_some {p : Part} {limit : Nat} (h : p.edgeLimit .control = some limit) :
    p.completeControl.time = { (p.advanceTo limit).time with edgesSince := none, source := .derived } ∧
    p.completeControl = { p with elapsed := max p.elapsed limit, time := p.completeControl.time,
                                 info := p.completeControl.info, ctl := p.completeControl.ctl } := by
  have hgap : p.completeControl = (p.advanceTo limit).oscillatorGap := by
    unfold Part.completeControl
    rw [h]
  have heq := (p.advanceTo limit).oscillatorGap_eq
  rw [hgap]
  have htime : (p.advanceTo limit).oscillatorGap.time = { (p.advanceTo limit).time with edgesSince := none, source := .derived } := by
    rw [heq]
  refine ⟨htime, ?_⟩
  rw [htime]
  exact heq

theorem Part.completeControl_frame (p : Part) : p.completeControl =
    { p with elapsed := p.completeControl.elapsed, time := p.completeControl.time, info := p.completeControl.info,
             ctl := p.completeControl.ctl } := by
  cases h : p.edgeLimit .control with
  | none =>
    rw [Part.completeControl_none h]
  | some limit =>
    have heq := (Part.completeControl_some h).2
    rw [show p.completeControl.elapsed = max p.elapsed limit from (congrArg Part.elapsed heq :)]
    exact heq

theorem Part.sendResetReply_frame (p : Part) : p.sendResetReply =
    { p with elapsed := p.sendResetReply.elapsed, time := p.sendResetReply.time, info := p.sendResetReply.info,
             ctl := p.sendResetReply.ctl } := by
  rcases p.sendResetReply_cases with h | ⟨t, h⟩
  · rw [h]
  · rw [h]
    rfl

/-- The part at which the reset itself starts: what came before it has moved only time and the ports. -/
def Part.resetStart (p : Part) : Part := p.sendResetReply.completeControl

theorem Part.resetStart_eq (p : Part) : p.resetStart =
    { p with elapsed := p.resetStart.elapsed, time := p.resetStart.time, info := p.resetStart.info, ctl := p.resetStart.ctl } :=
  p.sendResetReply.completeControl_frame.trans
    (congrArg (fun x : Part => ({ x with
      elapsed := p.resetStart.elapsed, time := p.resetStart.time, info := p.resetStart.info, ctl := p.resetStart.ctl } : Part))
      p.sendResetReply_frame :)

end Sys2Proof.Machine
end

section
/-! What a soft reset keeps of the store, the clock lines and the inputs (O9). -/

namespace Sys2Proof.Machine

/-! ## The store (R201, R203) -/

theorem Part.writtenBytes_congr {p q : Part} (h : p.store = q.store) (w : StoreWrite) : p.writtenBytes w = q.writtenBytes w := by
  unfold Part.writtenBytes Part.row
  rw [h]

theorem Part.softLoaded_stored (a : Part) :
    (a.store.writes = [] → a.softLoaded.store.stored = a.store.stored ∧ a.softLoaded.store.writes = []) ∧
    (∀ w rest, a.store.writes = w :: rest → a.softLoaded.store.stored =
      (updateAt a.store.stored w.row fun r => r.write (a.writtenBytes w)) ∧ a.softLoaded.store.writes = []) := by
  have hwrites : a.begin.store.writes = a.store.writes := rfl
  refine ⟨fun h => ?_, fun w rest h => ?_⟩
  · have hs : a.begin.softWrites = a.begin := by
      unfold Part.softWrites
      rw [hwrites, h]
    show a.begin.softWrites.store.stored = _ ∧ a.begin.softWrites.store.writes = []
    rw [hs]
    exact ⟨rfl, h⟩
  · have hs : a.begin.softWrites = (a.begin.performWrite w).modStore fun st => { st with writes := [] } := by
      unfold Part.softWrites
      rw [hwrites, h]
    show a.begin.softWrites.store.stored = _ ∧ a.begin.softWrites.store.writes = []
    rw [hs]
    exact ⟨rfl, rfl⟩

/-! ## The clock lines (R183) -/

/-- A line as a soft reset takes it: PARKED becomes STOPPED. -/
def ClockLine.taken (k : ClockLine) : ClockLine := { k with state := if k.state = .parked then .stopped else k.state }

theorem ClockLine.taken_of_isFaulted {k : ClockLine} (h : k.isFaulted = true) : k.taken = k := by
  have hne : k.state ≠ .parked := by
    intro hp
    rw [ClockLine.isFaulted, hp] at h
    cases h
  rw [ClockLine.taken, if_neg hne]

/-- What an evaluation leaves of a line, whatever it decides. -/
theorem Part.evaluate_line_kept {p : Part} {i : Nat} (hi : i < p.clocks.lines.length) (boundary retry : Bool) :
    let k := p.clocks.line i
    let x := (p.evaluate i boundary retry).clocks.line i
    x.polarity = k.polarity ∧ x.faults = k.faults ∧ x.retryAt = k.retryAt ∧
      (k.dial = (p.clockConfig i).dial → x.position = k.position ∧ x.dial = k.dial ∧ x.uncertain = k.uncertain) := by
  intro k x
  by_cases hleft : k.isFaulted = true ∨ k.state = .parked
  · have hx : x = k := congrArg (fun q : Part => q.clocks.line i) (Part.evaluate_left hleft boundary retry)
    rw [hx]
    exact ⟨rfl, rfl, rfl, fun _ => ⟨rfl, rfl, rfl⟩⟩
  · rw [not_or, Bool.not_eq_true] at hleft
    have hx := (Part.evaluate_line hi hleft.1 hleft.2 boundary retry).trans (Part.evaluated_of rfl retry)
    refine ⟨(congrArg ClockLine.polarity hx :), (congrArg ClockLine.faults hx :), (congrArg ClockLine.retryAt hx :), fun hdial =>
      ⟨(congrArg ClockLine.position hx :).trans (if_pos hdial), (congrArg ClockLine.dial hx :).trans hdial.symm,
        (congrArg ClockLine.uncertain hx :).trans ?_⟩⟩
    rw [decide_eq_false (not_not.mpr hdial), Bool.false_and, Bool.or_false]

section
variable {d e : Part} (he : e = d.keptClocks)
include he

theorem Part.keptClocks_spoils : d.clocksTaken.Spoils e := by
  rw [he, Part.keptClocks_eq]
  exact d.clocksTaken.spoils_evaluateAll false

theorem Part.keptClocks_park : e.clocks.park = none := by
  rw [he, Part.keptClocks_eq, Part.evaluateAll_park]
  rfl

/-- The write of the park record, if it was held valid and an impulse has started. -/
theorem Part.keptClocks_writes (hwrites : d.store.writes = []) : e.store.writes = [] ∨ e.store.writes = [.invalidate] := by
  rcases (keptClocks_spoils he).writes with ⟨-, hs⟩ | ⟨-, -, hs⟩
  · exact .inl (by rw [hs]; exact hwrites)
  · refine .inr (hs.trans ?_)
    rw [show d.clocksTaken.store.writes = [] from hwrites]
    rfl

theorem Part.keptClocks_stored : e.store.stored = d.store.stored :=
  (congrArg Store.stored (keptClocks_spoils he).store :)

theorem Part.keptClocks_working : e.store.working = d.store.working :=
  (congrArg Store.working (keptClocks_spoils he).store :)

theorem Part.keptClocks_valid : e.clocks.recordValid = true → e.store.recordValid = true := by
  have hrecord : e.store.recordValid = d.store.recordValid := by
    unfold Store.recordValid Store.storedRow
    rw [keptClocks_stored he]
  intro h
  rcases (keptClocks_spoils he).writes with ⟨hv, -⟩ | ⟨-, hv, -⟩
  · exact hrecord.trans (hv.symm.trans h)
  · exact absurd (hv.symm.trans h) Bool.noConfusion

variable (hlen : d.clocks.lines.length = 4)
include hlen

theorem Part.keptClocks_evaluates : Part.Evaluates false (List.range 4) d.clocksTaken e := by
  rw [he, Part.keptClocks_eq]
  exact Part.evaluates_evaluateAll false ((List.length_map _).trans hlen)

omit he in
theorem Part.clocksTaken_line {i : Nat} (hi : i < 4) : d.clocksTaken.clocks.line i = (d.clocks.line i).taken :=
  (Clocks.line_map d.clocks ClockLine.taken i :).trans (if_pos (hlen.symm ▸ hi))

/-- No impulse has started where every line's impulse is the one it had, so the record is held as row 10 gives it. -/
theorem Part.keptClocks_valid_of_impulses (h : ∀ i, i < 4 → (e.clocks.line i).impulse = (d.clocks.line i).impulse) :
    e.clocks.recordValid = e.store.recordValid := by
  have hrecord : e.store.recordValid = d.store.recordValid := by
    unfold Store.recordValid Store.storedRow
    rw [keptClocks_stored he]
  rcases (keptClocks_evaluates he hlen).valid with hv | ⟨i, hi, hne⟩
  · exact hv.trans hrecord.symm
  · have hi := List.mem_range.mp hi
    rw [clocksTaken_line hlen hi] at hne
    exact absurd (h i hi) hne

theorem Part.keptClocks_line {p : Part} (hclocks : p.clocks = e.clocks) (hrows : p.store.working = d.store.working)
    (htime : p.time = d.time) (hnow : p.elapsed = d.elapsed) {i : Nat} (hi : i < 4) :
    let k := d.clocks.line i
    let kept : Part := { p with clocks := { p.clocks with lines := d.clocks.lines.map ClockLine.taken } }
    (k.impulse.isSome = true → p.clocks.line i = k.taken) ∧
    (k.impulse = none → p.clocks.line i = (kept.evaluate i false false).clocks.line i) ∧
    (k.isFaulted = true → p.clocks.line i = k) ∧
    (p.clocks.line i).polarity = k.polarity ∧ (p.clocks.line i).faults = k.faults ∧ (p.clocks.line i).retryAt = k.retryAt ∧
    (k.dial = (p.clockConfig i).dial → (p.clocks.line i).position = k.position ∧ (p.clocks.line i).dial = k.dial ∧
      (p.clocks.line i).uncertain = k.uncertain) := by
  intro k kept
  have hlen' : i < d.clocksTaken.clocks.lines.length := (List.length_map _).symm ▸ hlen.symm ▸ hi
  have htaken : d.clocksTaken.clocks.line i = k.taken := clocksTaken_line hlen hi
  have hline : p.clocks.line i = (d.clocksTaken.evaluateFree i false).clocks.line i := by
    rw [hclocks]
    exact (keptClocks_evaluates he hlen).evaluated i (List.mem_range.mpr hi)
  have hconfig : d.clocksTaken.clockConfig i = p.clockConfig i := by
    unfold Part.clockConfig Part.cfg Part.row
    rw [hrows]
    rfl
  cases himpulse : k.impulse with
  | some m =>
    have hx : p.clocks.line i = k.taken := by
      rw [hline, Part.evaluateFree, htaken, if_pos (by rw [ClockLine.taken, himpulse]; rfl), htaken]
    rw [hx]
    exact ⟨fun _ => rfl, fun h => absurd h (Option.some_ne_none m), fun h => ClockLine.taken_of_isFaulted h, rfl, rfl, rfl, fun _ => ⟨rfl, rfl, rfl⟩⟩
  | none =>
    have hx : p.clocks.line i = (d.clocksTaken.evaluate i false false).clocks.line i := by
      rw [hline, Part.evaluateFree, htaken, if_neg (by rw [ClockLine.taken, himpulse]; exact Bool.false_ne_true)]
    have hkept := Part.evaluate_line_kept hlen' false false
    rw [← hx, htaken, hconfig] at hkept
    obtain ⟨hpolarity, hfaults, hretry, hdial⟩ := hkept
    refine ⟨fun h => absurd h Bool.false_ne_true, fun _ => hx.trans ?_, fun h => ?_, hpolarity, hfaults, hretry, hdial⟩
    · exact Part.evaluate_line_congr (p := d.clocksTaken) (q := kept) hlen' hlen' rfl hrows.symm htime.symm hnow.symm false false
    · have htf : k.taken = k := ClockLine.taken_of_isFaulted h
      rw [hx, Part.evaluate_left (.inl (by rw [htaken, htf]; exact h)), htaken, htf]

end

/-! ## The inputs (R200) -/

theorem WallInput.configMove_law (w : WallInput) (old new : InputConfig) (now : Nat) :
    let x := w.configMove old new now
    x.asserted = w.asserted ∧
    (new.mode = .off → x.state = .idle ∧ x.timer = none) ∧
    (new.mode ≠ .off → old.mode = .off → w.asserted = true → x.state = .qualifying ∧ x.timer = some (now + new.qualify)) ∧
    (new.mode ≠ .off → (old.mode ≠ .off ∨ w.asserted = false) → x.state = w.state ∧ x.timer = w.timer) ∧
    (new.mode ≠ .off → old = new → x.acting = (decide (new.mode = .act) && w.acting)) := by
  unfold WallInput.configMove
  by_cases hnew : new.mode = .off
  · rw [if_pos (beq_iff_eq.mpr hnew)]
    exact ⟨rfl, fun _ => ⟨rfl, rfl⟩, fun h => absurd hnew h, fun h => absurd hnew h, fun h => absurd hnew h⟩
  · rw [if_neg (mt beq_iff_eq.mp hnew)]
    by_cases hq : (old.mode == .off && w.asserted) = true
    · obtain ⟨hold, hw⟩ := Bool.and_eq_true _ _ ▸ hq
      have hold := beq_iff_eq.mp hold
      rw [if_pos hq]
      refine ⟨rfl, fun h => absurd h hnew, fun _ _ _ => ⟨rfl, rfl⟩, fun _ h => ?_, fun _ h => absurd (h ▸ hold) hnew⟩
      rcases h with h | h
      · exact absurd hold h
      · exact absurd (hw.symm.trans h) Bool.noConfusion
    · rw [if_neg hq]
      refine ⟨rfl, fun h => absurd h hnew, fun _ hold hw => absurd ?_ hq, fun _ _ => ⟨rfl, rfl⟩, fun _ h => ?_⟩
      · rw [hold, hw]
        rfl
      · subst h
        show w.actingUnder old old = _
        unfold WallInput.actingUnder
        by_cases hact : old.mode = .act
        · simp [hact]
        · simp [hact]

/-- What the reset that starts at the part `a`, which the load has made `q`, keeps of that part. -/
structure Part.SoftKeeps (a q p : Part) : Prop where
  powered : p.powered = a.powered
  elapsed : p.elapsed = a.elapsed
  time : p.time = { a.time with startHour := p.cfg 0 0, serviceDay := if a.time.valid then some p.time.directDay else none }
  generation : p.image.generation = countNext a.image.generation
  numbers : p.cues.pool = [] → p.cues.nextId = a.cues.nextId ∧ p.cues.nextArrival = 1
  stored : p.store.stored = q.store.stored
  port : ∀ l, (p.port l).Anew (fun k => k = .clockLineInStep ∨ k = .cueDropped) 1 (p.cfg 0 1)
  inputs : a.inputs.length = 4 → ∀ i, i < 4 → p.input i = (a.input i).configMove (a.inputConfig i) (p.inputConfig i) p.elapsed
  clocks : ∃ d e : Part, e = d.keptClocks ∧ d.clocks = a.clocks ∧ d.store = q.store ∧ p.clocks = e.clocks ∧
    p.store = e.store ∧ p.time = d.time ∧ p.elapsed = d.elapsed

theorem Part.softKeeps (a : Part) : a.SoftKeeps a.softLoaded a.softComposed.inputRestarts.finish := by
  have hframe := a.softLoaded_eq
  have hev : a.softLoaded.ev.wallTold = false := (congrArg (fun p : Part => p.ev.wallTold) hframe :)
  show a.SoftKeeps a.softLoaded (((a.softLoaded.softBlocks a.store.working).keptClocks.composeFresh
    (countNext (a.softLoaded.softBlocks a.store.working).keptClocks.image.generation)).inputRestarts.finish)
  generalize a.softLoaded = q at *
  have hd := q.softBlocks_eq a.store.working
  have hleft := Part.softLeft (q := q) (rows := a.store.working) rfl rfl hev
  have hstore := Part.softStore (q := q) (rows := a.store.working) rfl rfl
  generalize q.softBlocks a.store.working = d at *
  generalize he : d.keptClocks = e at *
  generalize (e.composeFresh (countNext e.image.generation)).inputRestarts.finish = p at *
  have hpstore := (congrArg Part.store hleft.kept :).trans hstore
  have hworking : p.store.working = q.store.working := (congrArg Store.working hpstore :)
  have htime : p.time = q.softTime.time := (congrArg Part.time hleft.kept :).trans (congrArg Part.time hd :)
  have hqtime : q.time = a.time := (congrArg Part.time hframe :)
  have hqnow : q.elapsed = a.elapsed := (congrArg Part.elapsed hframe :)
  have hnow : p.elapsed = a.elapsed := ((congrArg Part.elapsed hleft.kept :).trans (congrArg Part.elapsed hd :)).trans hqnow
  have hdcues : d.cues = (q.resetCues q.cues.nextId).cues := (congrArg Part.cues hd :)
  have hqcues : q.cues = a.cues := (congrArg Part.cues hframe :)
  refine
    { powered := ?_, elapsed := hnow, time := ?_, generation := ?_, numbers := fun hp => ?_, stored := ?_, port := fun l => ?_
      inputs := fun hlen i hi => ?_, clocks := ⟨d, e, he.symm, ?_, ?_, ?_, ?_, ?_, ?_⟩ }
  · exact ((congrArg Part.powered hleft.kept :).trans (congrArg Part.powered hd :)).trans (congrArg Part.powered hframe :)
  · rw [htime, Part.cfg_congr hworking, ← hqtime]
    rfl
  · exact hleft.generation.trans (congrArg (fun x : Part => countNext x.image.generation) hframe :)
  · obtain ⟨hid, harrival⟩ := hleft.numbers hp
    rw [hid, harrival, hdcues, Part.resetCues_sched, ← hqcues]
    exact ⟨rfl, rfl⟩
  · exact (congrArg Store.stored hpstore :)
  · rw [Part.cfg_congr hworking]
    exact hleft.port l
  · have hinputs : p.inputs = (q.inputsReloaded a.store.working).inputs :=
      (congrArg Part.inputs hleft.kept :).trans (congrArg Part.inputs hd :)
    have hqinputs : q.inputs = a.inputs := (congrArg Part.inputs hframe :)
    have hone := Part.inputsReloaded_input (p := q) (hqinputs ▸ hlen) a.store.working hi
    have hpconfig : p.inputConfig i = q.inputConfig i := congrArg (inputConfigIn · i) hworking
    have hpinput : p.input i = (q.inputsReloaded a.store.working).input i := congrArg (·.getD i resetInput) hinputs
    have hqinput : q.input i = a.input i := congrArg (·.getD i resetInput) hqinputs
    rw [hpinput, hone, hqinput, hpconfig, hnow, hqnow]
    rfl
  · exact (congrArg Part.clocks hd :).trans (congrArg Part.clocks hframe :)
  · exact (congrArg Part.store hd :)
  · exact (congrArg Part.clocks hleft.kept :)
  · exact (congrArg Part.store hleft.kept :)
  · exact (congrArg Part.time hleft.kept :)
  · exact (congrArg Part.elapsed hleft.kept :)

theorem Part.sendResetReply_edgeLimit (p : Part) (l : Link) : p.sendResetReply.edgeLimit l = p.edgeLimit l := by
  have hwait (t : Nat) : (p.advanceTo t).edgeWait l = p.edgeWait l := by
    unfold Part.edgeWait
    rw [Part.advanceTo_port, Port.carry_frame]
  rcases p.sendResetReply_cases with h | ⟨t, h⟩
  · rw [h]
  · rw [h, Part.edgeLimit, Part.edgeLimit, hwait]

/-- Settles O9: what comes before the reset itself, what it keeps, the clock lines and the inputs. -/
theorem softResetKeeps : Obligations.SoftResetKeeps := by
  unfold Obligations.SoftResetKeeps
  intro s hpowered
  have hsoft : s.part.softReset = s.part.resetStart.softComposed.inputRestarts.finish := s.part.softReset_eq
  refine ⟨_, leaves_act (·.softReset) rfl hpowered hsoft, ?_⟩
  have hstart := s.part.resetStart_eq
  have hkeeps := s.part.resetStart.softKeeps
  have hloaded := s.part.resetStart.softLoaded_stored
  have hclocks : s.part.resetStart.clocks = s.part.clocks := (congrArg Part.clocks hstart :)
  have hinputs : s.part.resetStart.inputs = s.part.inputs := (congrArg Part.inputs hstart :)
  have hstore : s.part.resetStart.store = s.part.store := (congrArg Part.store hstart :)
  have hcues : s.part.resetStart.cues = s.part.cues := (congrArg Part.cues hstart :)
  have himage : s.part.resetStart.image = s.part.image := (congrArg Part.image hstart :)
  have hpower : s.part.resetStart.powered = s.part.powered := (congrArg Part.powered hstart :)
  generalize s.part.resetStart.softComposed.inputRestarts.finish = p at *
  refine ⟨hkeeps.powered.trans (hpower.trans hpowered), ?_⟩
  intro q isReply took notice sent before
  have hbefore : s.part.resetStart = before := rfl
  have hcontrol : before = sent.completeControl := rfl
  have hlimit : sent.edgeLimit .control = s.part.edgeLimit .control := s.part.sendResetReply_edgeLimit _
  clear_value before
  rw [hbefore] at hkeeps hloaded hclocks hinputs hstore hcues himage
  have hreply (f : OutFrame) : isReply f ↔ f.isResetReply = true := (f.isResetReply_iff).symm
  have hports (l : Link) := ((hkeeps.port l).law (by decide)).2
  obtain ⟨d, e, he, hdclocks, hdstore, hpclocks, hpstore, hptime, hpnow⟩ := hkeeps.clocks
  have hdline (i : Nat) : d.clocks.line i = s.part.clocks.line i := by rw [hdclocks, hclocks]
  have hdlen (hlen : s.part.clocks.lines.length = 4) : d.clocks.lines.length = 4 := by rw [hdclocks, hclocks, hlen]
  have hdwrites : d.store.writes = [] := by
    rw [hdstore]
    cases h : before.store.writes with
    | nil => exact (hloaded.1 h).2
    | cons w rest => exact (hloaded.2 w rest h).2
  have hstored := hkeeps.stored
  refine ⟨fun h => Part.sendResetReply_none (h.imp_right fun h f hf hr => h f hf ((hreply f).mpr hr)),
    fun ahead reply behind hdue htx hr hno => ?sent, fun h => hcontrol.trans (Part.completeControl_none (hlimit.trans h)),
    fun limit h => ?limit, hkeeps.elapsed, hkeeps.time,
    hkeeps.generation.trans (by rw [himage]), fun h => ?numbers, fun h => ?nowrite, fun w rest h => ?write, ?writes,
    fun l => ⟨(hports l).1, fun k h0 h1 h2 => (hports l).2 k h0 fun h => h.elim h1 h2⟩,
    (congrArg Clocks.park hpclocks).trans (Part.keptClocks_park he), ?valid, fun h hlen => ?impulses, fun hlen i hi => ?line,
    fun hlen i hi => ?input⟩
  case sent =>
    have hr := (hreply reply).mp hr
    have hno : ∀ f ∈ ahead, ¬f.isResetReply = true := fun f hf h => hno f hf ((hreply f).mpr h)
    exact ⟨fun hfree => Part.sendResetReply_free hdue htx hr hno hfree, fun t hend hnil => Part.sendResetReply_last hdue htx hr hno hend hnil,
      fun t f rest hend hcons => Part.sendResetReply_behind hdue htx hr hno hend hcons⟩
  case limit =>
    rw [hcontrol]
    exact Part.completeControl_some (hlimit.trans h)
  case numbers =>
    rw [← hcues]
    exact hkeeps.numbers h
  case nowrite =>
    rw [hstored, ← hstore]
    exact (hloaded.1 (by rw [hstore, h])).1
  case write =>
    rw [hstored, ← hstore, ← Part.writtenBytes_congr hstore]
    exact (hloaded.2 w rest (by rw [hstore, h])).1
  case writes =>
    rw [hpstore]
    exact Part.keptClocks_writes he hdwrites
  case valid =>
    rw [hpclocks, hpstore]
    exact Part.keptClocks_valid he
  case impulses =>
    rw [hpclocks, hpstore]
    exact Part.keptClocks_valid_of_impulses he (hdlen hlen) fun i hi => by rw [← hpclocks, hdline, h i hi]
  case line =>
    have hworking : p.store.working = d.store.working := by
      rw [hpstore]
      exact Part.keptClocks_working he
    have h := Part.keptClocks_line he (hdlen hlen) hpclocks hworking hptime hpnow hi
    rw [hdline, hdclocks, hclocks] at h
    exact h
  case input =>
    have hone := hkeeps.inputs (by rw [hinputs, hlen]) i hi
    have hin : before.input i = s.part.input i := by rw [Part.input, hinputs]; rfl
    have hcfg : before.inputConfig i = s.part.inputConfig i := by rw [Part.inputConfig, hstore]; rfl
    rw [hin, hcfg] at hone
    have h := (s.part.input i).configMove_law (s.part.inputConfig i) (p.inputConfig i) p.elapsed
    rw [← hone] at h
    exact h

end Sys2Proof.Machine
end

section
/-! The source of seconds (O25). -/

namespace Sys2Proof.Machine

/-! ## The answer to a TIMEBASE_SELECT that waits for an edge (R4) -/

theorem Part.edgeWait_some {p : Part} {l : Link} {tag : Byte} {limit : Nat} :
    p.edgeWait l = some (tag, limit) ↔ (p.port l).waiting = some (.edge tag limit) := by
  unfold Part.edgeWait
  split
  · next h => rw [h]; simp
  all_goals
    next h => rw [h]; simp

theorem Part.edgeLimit_some {p : Part} {l : Link} {limit : Nat} :
    p.edgeLimit l = some limit ↔ ∃ tag, (p.port l).waiting = some (.edge tag limit) := by
  rw [Part.edgeLimit, Option.map_eq_some_iff]
  refine ⟨fun ⟨w, hw, hl⟩ => ⟨w.1, Part.edgeWait_some.mp (hl ▸ hw)⟩, fun ⟨tag, h⟩ => ⟨(tag, limit), Part.edgeWait_some.mpr h, rfl⟩⟩

/-- A port on which a wait for an edge has been answered with `r`; a port without such a wait is left alone. -/
structure Port.EdgeAnswered (r : Result) (q x : Port) : Prop where
  waits : ∀ tag limit, q.waiting = some (.edge tag limit) →
    x.waiting = none ∧ ∃ summary, x.tx.getLast? = some (.reply 0x8A tag summary r.code [])
  kept : (∀ tag limit, q.waiting ≠ some (.edge tag limit)) → x = q
  events : ∀ k, x.isLatched k = q.isLatched k ∧ x.subject k = q.subject k

theorem Part.answerEdge_port_other (p : Part) {l m : Link} (h : m ≠ l) (r : Result) : (p.answerEdge l r).port m = p.port m := by
  unfold Part.answerEdge
  split
  · cases l <;> cases m <;> first | exact absurd rfl h | rfl
  · rfl

theorem Port.EdgeAnswered.noWait {r : Result} {q x : Port} (h : q.EdgeAnswered r x) (tag : Byte) (limit : Nat) :
    x.waiting ≠ some (.edge tag limit) := by
  intro hx
  by_cases hq : ∃ tag limit, q.waiting = some (.edge tag limit)
  · obtain ⟨tag', limit', hq⟩ := hq
    rw [(h.waits tag' limit' hq).1] at hx
    cases hx
  · exact hq ⟨tag, limit, h.kept (fun tag limit hw => hq ⟨tag, limit, hw⟩) ▸ hx⟩

/-- The port of a wait that has been answered. -/
theorem Part.answerWaiting_port (p : Part) (l : Link) (kind tag : Byte) (r : Result) (body : List Byte) :
    (p.answerWaiting l kind tag r body).port l = { (p.port l).freePlace with
      waiting := none, tx := (p.port l).tx ++ [.reply kind tag (p.summary l) r.code body]
      lineEnd := ((p.answerWaiting l kind tag r body).port l).lineEnd, resetSeen := false } := by
  have h := ((p.modPort l fun q => { q with waiting := none }).freePlace l).answer_port_same l kind tag r body
  rw [Port.begin_frame, Part.freePlace_port, Part.modPort_port_same, Part.freePlace_summary] at h
  have hsummary : (p.modPort l fun q => { q with waiting := none }).summary l = p.summary l := by cases l <;> rfl
  rw [hsummary] at h
  exact h.trans (congrArg (fun e => ({ (p.port l).freePlace with
    waiting := none, tx := (p.port l).tx ++ [.reply kind tag (p.summary l) r.code body], lineEnd := e, resetSeen := false } : Port))
    (congrArg Port.lineEnd h).symm)

theorem Part.answerEdge_port_same (p : Part) (l : Link) (r : Result) : (p.port l).EdgeAnswered r ((p.answerEdge l r).port l) := by
  cases hw : p.edgeWait l with
  | none =>
    have hp : p.answerEdge l r = p := by rw [Part.answerEdge, hw]
    rw [hp]
    refine ⟨fun tag limit h => ?_, fun _ => rfl, fun _ => ⟨rfl, rfl⟩⟩
    rw [Part.edgeWait_some.mpr h] at hw
    cases hw
  | some wait =>
    have hp : p.answerEdge l r = p.answerWaiting l 0x8A wait.1 r [] := by rw [Part.answerEdge, hw]
    have hwait := Part.edgeWait_some.mp hw
    have hport := p.answerWaiting_port l 0x8A wait.1 r []
    rw [← hp] at hport
    have htx : ((p.answerEdge l r).port l).tx = _ := (congrArg Port.tx hport :)
    refine ⟨fun tag limit h => ⟨(congrArg Port.waiting hport :), p.summary l, ?_⟩, fun h => absurd hwait (h _ _),
      fun k => ⟨(congrArg (Port.isLatched · k) hport :), (congrArg (Port.subject · k) hport :)⟩⟩
    have htag : wait.1 = tag := by
      rw [hwait] at h
      exact (Waiting.edge.inj (Option.some.inj h)).1
    rw [htx, ← htag]
    exact List.getLast?_concat

/-- Both links' waits for an edge answered, Information first. -/
def Part.answerEdges (p : Part) (r : Result) : Part := (p.answerEdge .information r).answerEdge .control r

theorem Part.answerEdges_port (p : Part) (l : Link) (r : Result) : (p.port l).EdgeAnswered r ((p.answerEdges r).port l) := by
  unfold Part.answerEdges
  cases l with
  | information =>
    rw [Part.answerEdge_port_other _ (by decide)]
    exact p.answerEdge_port_same .information r
  | control =>
    have h := (p.answerEdge .information r).answerEdge_port_same .control r
    rwa [Part.answerEdge_port_other p (by decide)] at h

theorem Part.answerEdges_beyondPorts (p : Part) (r : Result) : (p.answerEdges r).beyondPorts = p.beyondPorts :=
  (Part.answerEdge_beyondPorts _ _ _).trans (Part.answerEdge_beyondPorts _ _ _)

/-! ## The gap and the edge (R3, R4) -/

theorem Part.oscillatorGap_port (p : Part) (l : Link) : Port.EdgeAnswered .notReady
    (if p.time.source = .oscillator then (p.port l).latch .oscillatorSwitched 1 else p.port l) (p.oscillatorGap.port l) := by
  have hgap : p.oscillatorGap = (if p.time.source == .oscillator then
      (p.modTime fun t => { t with edgesSince := none, source := .derived }).latchNat .oscillatorSwitched 1
      else p.modTime fun t => { t with edgesSince := none, source := .derived }).answerEdges .notReady := rfl
  rw [hgap]
  by_cases h : p.time.source = .oscillator
  · rw [if_pos h, if_pos (beq_iff_eq.mpr h)]
    have hl := ((p.modTime fun t => { t with edgesSince := none, source := .derived }).latchNat .oscillatorSwitched 1).answerEdges_port l
      .notReady
    cases l <;> exact hl
  · rw [if_neg h, if_neg (mt beq_iff_eq.mp h)]
    have hl := (p.modTime fun t => { t with edgesSince := none, source := .derived }).answerEdges_port l .notReady
    cases l <;> exact hl

/-- What the gap leaves at a port. -/
theorem Part.oscillatorGap_port_law (p : Part) (l : Link) :
    (∀ tag limit, (p.port l).waiting = some (.edge tag limit) → (p.oscillatorGap.port l).waiting = none ∧
      ∃ summary, (p.oscillatorGap.port l).tx.getLast? = some (.reply 0x8A tag summary 14 [])) ∧
    (p.oscillatorGap.port l).isLatched .oscillatorSwitched =
      (decide (p.time.source = .oscillator) || (p.port l).isLatched .oscillatorSwitched) ∧
    (p.time.source = .oscillator → (p.port l).subjects.length = 29 → (p.oscillatorGap.port l).subject .oscillatorSwitched = 1) := by
  obtain ⟨hwaits, -, hevents⟩ := p.oscillatorGap_port l
  obtain ⟨hlatched, hsubject⟩ := hevents .oscillatorSwitched
  by_cases h : p.time.source = .oscillator
  · rw [if_pos h] at hwaits hlatched hsubject
    refine ⟨hwaits, ?_, fun _ hlen => ?_⟩
    · rw [hlatched, Port.latch_isLatched_same, decide_eq_true h, Bool.true_or]
    · rw [hsubject, Port.latch_subject_same _ _ _ hlen]
  · rw [if_neg h] at hwaits hlatched hsubject
    refine ⟨hwaits, ?_, fun hs => absurd hs h⟩
    rw [hlatched, decide_eq_false h, Bool.false_or]

theorem Part.edgeOverdue_iff (p : Part) : p.edgeOverdue = true ↔
    ∃ l tag limit, (p.port l).waiting = some (.edge tag limit) ∧ limit < p.elapsed := by
  have hone (l : Link) : (p.edgeLimit l).any (· < p.elapsed) = true ↔
      ∃ tag limit, (p.port l).waiting = some (.edge tag limit) ∧ limit < p.elapsed := by
    rw [Option.any_eq_true]
    constructor
    · rintro ⟨limit, hl, hlt⟩
      obtain ⟨tag, hw⟩ := Part.edgeLimit_some.mp hl
      exact ⟨tag, limit, hw, of_decide_eq_true hlt⟩
    · rintro ⟨tag, limit, hw, hlt⟩
      exact ⟨limit, Part.edgeLimit_some.mpr ⟨tag, hw⟩, decide_eq_true hlt⟩
  rw [Part.edgeOverdue, Bool.or_eq_true, hone, hone]
  constructor
  · rintro (h | h)
    · exact ⟨_, h⟩
    · exact ⟨_, h⟩
  · rintro ⟨l, h⟩
    cases l
    · exact .inl h
    · exact .inr h

/-- After the gap no wait is left, so an edge then finds none overdue. -/
theorem Part.oscillatorGap_edgeOverdue (p : Part) : p.oscillatorGap.edgeOverdue = false := by
  rw [← Bool.not_eq_true, Part.edgeOverdue_iff]
  rintro ⟨l, tag, limit, hw, -⟩
  exact (p.oscillatorGap_port l).noWait tag limit hw

/-- Whether a TIMEBASE_SELECT waits for an edge on a link. -/
def Part.edgeAwaited (p : Part) : Prop := ∃ l tag limit, (p.port l).waiting = some (.edge tag limit)

theorem Part.edgeAwaited_iff (p : Part) :
    ((p.edgeWait .information).isSome || (p.edgeWait .control).isSome) = true ↔ p.edgeAwaited := by
  have hone (l : Link) : (p.edgeWait l).isSome = true ↔ ∃ tag limit, (p.port l).waiting = some (.edge tag limit) := by
    rw [Option.isSome_iff_exists]
    exact ⟨fun ⟨w, h⟩ => ⟨w.1, w.2, Part.edgeWait_some.mp h⟩, fun ⟨tag, limit, h⟩ => ⟨(tag, limit), Part.edgeWait_some.mpr h⟩⟩
  rw [Bool.or_eq_true, hone, hone]
  constructor
  · rintro (h | h)
    · exact ⟨_, h⟩
    · exact ⟨_, h⟩
  · rintro ⟨l, h⟩
    cases l
    · exact .inl h
    · exact .inr h

/-- An edge that no gap has come before. -/
def Part.edgeTaken (p : Part) : Part :=
  let q := p.modTime fun t => { t with edgesSince := some (t.edgesSince.getD p.elapsed) }
  if (q.edgeWait .information).isSome || (q.edgeWait .control).isSome then
    ((q.modTime fun t => { t with source := .oscillator }).latchNat .oscillatorSwitched 0).answerEdges .ok
  else q

theorem Part.oscillatorEdge_eq (p : Part) : p.oscillatorEdge = (if p.edgeOverdue then p.oscillatorGap else p).edgeTaken := rfl

theorem Part.oscillatorEdge_of_overdue {p : Part} (h : p.edgeOverdue = true) : p.oscillatorEdge = p.oscillatorGap.oscillatorEdge := by
  rw [Part.oscillatorEdge_eq, Part.oscillatorEdge_eq, if_pos h, Part.oscillatorGap_edgeOverdue]
  rfl

theorem Part.edgeTaken_of_awaited {p : Part} (h : p.edgeAwaited) : p.edgeTaken =
    (({ p with time := { p.time with edgesSince := some (p.time.edgesSince.getD p.elapsed), source := .oscillator } } : Part).latchNat
      .oscillatorSwitched 0).answerEdges .ok := by
  refine if_pos ?_
  rw [Part.edgeAwaited_iff]
  obtain ⟨l, h⟩ := h
  exact ⟨l, by cases l <;> exact h⟩

theorem Part.edgeTaken_of_not_awaited {p : Part} (h : ¬p.edgeAwaited) : p.edgeTaken =
    { p with time := { p.time with edgesSince := some (p.time.edgesSince.getD p.elapsed) } } := by
  refine if_neg ?_
  rw [Part.edgeAwaited_iff]
  rintro ⟨l, hw⟩
  exact h ⟨l, by cases l <;> exact hw⟩

/-- What an edge leaves. -/
theorem Part.edgeTaken_law (p : Part) :
    let q := p.edgeTaken
    q.time = { p.time with edgesSince := some (p.time.edgesSince.getD p.elapsed), source := q.time.source } ∧
    (∀ l tag limit, (p.port l).waiting = some (.edge tag limit) →
      q.time.source = .oscillator ∧ (q.port l).waiting = none ∧ (q.port l).isLatched .oscillatorSwitched = true ∧
      ((p.port l).subjects.length = 29 → (q.port l).subject .oscillatorSwitched = 0) ∧
      ∃ summary, (q.port l).tx.getLast? = some (.reply 0x8A tag summary 0 [])) ∧
    ((∀ l tag limit, ¬(p.port l).waiting = some (.edge tag limit)) →
      q.info = p.info ∧ q.ctl = p.ctl ∧ q.time.source = p.time.source) ∧
    q = { p with time := q.time, info := q.info, ctl := q.ctl } := by
  by_cases h : p.edgeAwaited
  · have hframe := Part.eq_of_beyondPorts (Part.answerEdges_beyondPorts
      (({ p with time := { p.time with edgesSince := some (p.time.edgesSince.getD p.elapsed), source := .oscillator } } : Part).latchNat
        .oscillatorSwitched 0) .ok)
    have hports (l : Link) := (({ p with time := { p.time with
        edgesSince := some (p.time.edgesSince.getD p.elapsed), source := .oscillator } } : Part).latchNat
        .oscillatorSwitched 0).answerEdges_port l .ok
    rw [← Part.edgeTaken_of_awaited h] at hframe hports
    intro q
    have htime : q.time = { p.time with edgesSince := some (p.time.edgesSince.getD p.elapsed), source := .oscillator } :=
      (congrArg Part.time hframe :)
    refine ⟨by rw [htime], fun l tag limit hw => ?_, fun hno => ?_, ?_⟩
    · have hport : (({ p with time := { p.time with edgesSince := some (p.time.edgesSince.getD p.elapsed), source := .oscillator } }
          : Part).latchNat .oscillatorSwitched 0).port l = (p.port l).latch .oscillatorSwitched 0 := by cases l <;> rfl
      obtain ⟨hwaits, -, hevents⟩ := hports l
      rw [hport] at hwaits hevents
      obtain ⟨hnone, hreply⟩ := hwaits tag limit hw
      obtain ⟨hlatched, hsubject⟩ := hevents .oscillatorSwitched
      exact ⟨by rw [htime], hnone, hlatched.trans (Port.latch_isLatched_same _ _ _),
        fun hlen => hsubject.trans (Port.latch_subject_same _ _ _ hlen), hreply⟩
    · obtain ⟨l, tag, limit, hw⟩ := h
      exact absurd hw (hno l tag limit)
    · rw [htime]
      exact hframe
  · rw [Part.edgeTaken_of_not_awaited h]
    exact ⟨rfl, fun l tag limit hw => absurd ⟨l, tag, limit, hw⟩ h, fun _ => ⟨rfl, rfl, rfl⟩, rfl⟩

/-- Settles O25: the request, then the gap and the edge. -/
theorem timebaseSelectEdgeAndGap : Obligations.TimebaseSelectEdgeAndGap := by
  unfold Obligations.TimebaseSelectEdgeAndGap
  refine ⟨fun s rq he hb => ⟨fun hown => ?notOwner, fun hown hsource => ?inUse, fun hown hsource hrun => ?early, fun hown hsource hrun => ?waits⟩,
    fun s hp => ⟨fun l tag limit hw hle => ?due, fun hover => ?overdue, fun hover => ?edge, ?gap⟩⟩
  case notOwner =>
    refine answers_of_reply rfl he (congrArg readEmpty hb) ?_
    rw [timebaseSelect, if_pos (bne_iff_ne.mpr hown)]
    rfl
  case inUse =>
    refine answers_of_reply rfl he (congrArg readEmpty hb) ?_
    rw [timebaseSelect, if_neg (by simpa using hown), hsource]
  case early =>
    refine answers_of_reply rfl he (congrArg readEmpty hb) ?_
    rw [timebaseSelect, if_neg (by simpa using hown), hsource]
    exact if_neg (Nat.not_le.mpr hrun)
  case waits =>
    have hh : timebaseSelect rq.link rq.tag s.part = .wait s.part (.edge rq.tag (s.part.elapsed + 2)) := by
      rw [timebaseSelect, if_neg (by simpa using hown), hsource]
      exact if_pos hrun
    have hexec : exec (.timebaseSelect rq) s = _ :=
      runRequest_wait (read := readEmpty) (handler := fun l _ => timebaseSelect l rq.tag) he (congrArg readEmpty hb) hh
    refine hexec.trans (congrArg (fun p => Host.Outcome.next { s with part := p }) (s.part.modPort_congr rq.link ?_))
    rw [Port.await]
    simp only [List.isEmpty_iff]
  case due =>
    have hmem : s.part.at (s.part.edgeLimit l) .oscillatorGap = some .oscillatorGap := by
      rw [Part.edgeLimit_some.mpr ⟨tag, hw⟩]
      exact if_pos hle
    rw [← hmem]
    unfold Part.dueInTime
    cases l
    · exact List.mem_cons_of_mem _ List.mem_cons_self
    · exact List.mem_cons_of_mem _ (List.mem_cons_of_mem _ List.mem_cons_self)
  case overdue =>
    have hover := (s.part.edgeOverdue_iff).mpr hover
    refine ⟨_, leaves_act (c := .oscillatorGap) (·.oscillatorGap) rfl hp rfl, ?_⟩
    have hp' : s.part.oscillatorGap.powered = true := by
      rw [s.part.oscillatorGap_eq]
      exact hp
    show act Part.oscillatorEdge s = act Part.oscillatorEdge { s with part := s.part.oscillatorGap }
    rw [act_powered _ _ hp, act_powered _ _ hp', Part.oscillatorEdge_of_overdue hover]
  case edge =>
    have hover : ¬s.part.edgeOverdue = true := mt (s.part.edgeOverdue_iff).mp hover
    refine ⟨_, leaves_act (·.oscillatorEdge) rfl hp (s.part.oscillatorEdge_eq.trans (congrArg Part.edgeTaken (if_neg hover))), ?_⟩
    exact s.part.edgeTaken_law
  case gap =>
    have heq := s.part.oscillatorGap_eq
    have htime : s.part.oscillatorGap.time = { s.part.time with edgesSince := none, source := .derived } := by rw [heq]
    refine ⟨_, leaves_act (·.oscillatorGap) rfl hp rfl, htime, by rw [Part.runningTime, htime],
      fun l => (s.part.oscillatorGap_port_law l).2, fun l => (s.part.oscillatorGap_port_law l).1, ?_⟩
    rw [htime]
    exact heq

end Sys2Proof.Machine
end

section
/-! What the running and the steps of station time leave in every other block (R1, R2, R11, R16, R17). -/

namespace Sys2Proof.Machine

/-! ## The blocks that time does not move -/

/-- The part but for the time, the table and what follows it, the clock lines, the write they ask for, and the ports. -/
def Part.beyondMoved (p : Part) : Part :=
  { p.beyondTable with time := Part.reset.time, clocks := Part.reset.clocks, store := { p.store with writes := [], writeBegan := 0 } }

/-- What the running of time leaves: the other blocks, every latched event, and as many subjects. -/
structure Part.Moves (p q : Part) : Prop where
  frame : q.beyondMoved = p.beyondMoved
  kept : ∀ l k, (p.port l).isLatched k = true → (q.port l).isLatched k = true
  length : ∀ l, (q.port l).subjects.length = (p.port l).subjects.length

theorem Part.Moves.refl (p : Part) : p.Moves p := ⟨rfl, fun _ _ h => h, fun _ => rfl⟩

theorem Part.Moves.trans {p q r : Part} (h : p.Moves q) (h' : q.Moves r) : p.Moves r :=
  ⟨h'.frame.trans h.frame, fun l k hk => h'.kept l k (h.kept l k hk), fun l => (h'.length l).trans (h.length l)⟩

theorem Part.Moves.fields {p q : Part} (h : p.Moves q) : q.own = p.own ∧ q.elapsed = p.elapsed ∧ q.chain = p.chain ∧
    q.inputs = p.inputs ∧ q.feed = p.feed ∧ q.store.working = p.store.working ∧ q.powered = p.powered ∧
    q.store.stored = p.store.stored :=
  ⟨(congrArg Part.own h.frame :), (congrArg Part.elapsed h.frame :), (congrArg Part.chain h.frame :),
    (congrArg Part.inputs h.frame :), (congrArg Part.feed h.frame :), (congrArg (fun p : Part => p.store.working) h.frame :),
    (congrArg Part.powered h.frame :), (congrArg (fun p : Part => p.store.stored) h.frame :)⟩

/-- A step within the Departure Table, the notices, the cues and the image. -/
theorem Part.moves_of_table {p q : Part} (h : q.beyondTable = p.beyondTable) {sel : EventKind → Prop}
    (hports : ∀ l, (p.port l).Latches sel (q.port l)) : p.Moves q :=
  ⟨(congrArg (fun x : Part => ({
      x with
      time := Part.reset.time, clocks := Part.reset.clocks
      store := { x.store with writes := [], writeBegan := 0 } } : Part)) h :),
    fun l k hk => (hports l).kept k hk, fun l => (hports l).length⟩

theorem Part.moves_modTime (p : Part) (f : Timebase → Timebase) : p.Moves (p.modTime f) :=
  ⟨rfl, fun l k hk => by cases l <;> exact hk, fun l => by cases l <;> rfl⟩

theorem Part.moves_tellWall (p : Part) : p.Moves p.tellWall :=
  ⟨rfl, fun l k hk => by cases l <;> exact hk, fun l => by cases l <;> rfl⟩

theorem Part.moves_begin (p : Part) : p.Moves p.begin :=
  ⟨rfl, fun l k hk => by cases l <;> exact hk, fun l => by cases l <;> rfl⟩

theorem Part.moves_latch (p : Part) (k : EventKind) (x : BitVec 16) : p.Moves (p.latch k x) :=
  Part.moves_of_table (sel := (· = k)) rfl fun l => by
    rw [Part.latch_port]
    exact (p.port l).latches_latch (sel := (· = k)) rfl x

theorem Part.moves_ended (p : Part) (told : Bool) : p.Moves (p.ended told) :=
  Part.moves_of_table (congrArg Part.beyondTable (p.ended_eq told) :) (p.ended_port told)

theorem Part.moves_finish (p : Part) : p.Moves p.finish := by
  rw [Part.finish_eq_ended]
  exact p.moves_ended _

theorem Part.moves_foldl {α : Type} {f : Part → α → Part} (h : ∀ p a, Part.Moves p (f p a)) (l : List α) (p : Part) :
    p.Moves (l.foldl f p) :=
  foldl_invariant (p.Moves ·) f (fun _ a hp => hp.trans (h _ a)) l p (.refl p)

theorem Part.moves_times {f : Part → Part} (h : ∀ p, Part.Moves p (f p)) (n : Nat) (p : Part) : p.Moves (times n f p) :=
  times_invariant (p.Moves ·) f (fun _ hp => hp.trans (h _)) n p (.refl p)

/-! ## The Departure Table: retirement and rollover -/

theorem Part.moves_retire (p : Part) (id : Nat) : p.Moves (p.retire id) := by
  obtain ⟨hinfo, hctl⟩ := p.deleteRecord_port id
  refine Part.Moves.trans (q := p.deleteRecord id) (Part.moves_of_table (sel := fun _ => True) ?_ fun l => ?_) (Part.moves_latch _ _ _)
  · exact Part.deleteRecord_beyondTable p id
  · have : (p.deleteRecord id).port l = p.port l := by
      cases l
      · exact hinfo
      · exact hctl
    rw [this]
    exact .refl _ _

theorem Part.moves_retireCheck (p : Part) (sel : Record → Bool) : p.Moves (p.retireCheck sel) :=
  Part.moves_foldl Part.moves_retire _ p

theorem Part.moves_tableRollover (p : Part) : p.Moves p.tableRollover := by
  unfold Part.tableRollover
  dsimp only
  have hretired := Part.moves_foldl Part.moves_retire ((p.table.records.filter Record.oldDay).map (·.id)) p
  generalize ((p.table.records.filter Record.oldDay).map (·.id)).foldl Part.retire p = q at hretired ⊢
  refine hretired.trans ?_
  exact ⟨rfl, fun l k hk => by cases l <;> exact hk, fun l => by cases l <;> rfl⟩

theorem Part.moves_rollover (p : Part) : p.Moves p.rollover := by
  unfold Part.rollover
  split
  · exact .refl p
  · exact ((p.moves_modTime fun t => { t with serviceDay := _ }).trans (Part.moves_tableRollover _)).trans (Part.moves_latch _ _ _)

/-! ## The clock lines -/

theorem Part.moves_evaluateAll (p : Part) (boundary : Bool) : p.Moves (p.evaluateAll boundary) := by
  have hone (q : Part) (i : Nat) : q.Moves (q.evaluateFree i boundary) := by
    unfold Part.evaluateFree
    split
    · exact .refl q
    · have hframe := Part.eq_of_beyondClocks (q.evaluate_beyondClocks i boundary false)
      have hstore := (q.spoils_evaluate i boundary false).store
      have hport (l : Link) : (q.port l).Latches (· = .clockLineInStep) ((q.evaluate i boundary false).port l) := by
        rcases q.evaluate_port i boundary false l with h | ⟨x, h⟩
        · rw [h]
          exact .refl _ _
        · rw [h]
          exact (q.port l).latches_latch (sel := (· = .clockLineInStep)) rfl x
      refine ⟨?_, fun l k hk => (hport l).kept k hk, fun l => (hport l).length⟩
      rw [hstore] at hframe
      exact (congrArg Part.beyondMoved hframe :)
  exact Part.moves_foldl hone _ p

/-! ## Steps and boundaries -/

theorem Part.moves_stepTime (p : Part) (secs ms : Nat) : p.Moves (p.stepTime secs ms) := by
  unfold Part.stepTime
  exact (((((p.moves_modTime _).trans (Part.moves_times Part.moves_rollover _ _)).trans (Part.moves_retireCheck _ _)).trans
    (Part.moves_evaluateAll _ _)).trans (Part.moves_tellWall _)).trans (Part.moves_latch _ _ _)

/-- Whether the start of the next service day has been reached (R16). -/
def Part.serviceDayOver (p : Part) : Bool :=
  match p.time.serviceSeconds with
  | some s => decide (86400 ≤ s)
  | none => false

/-- The part after the rollover of a second boundary, if one is due. -/
def Part.rolled (p : Part) : Part := if p.serviceDayOver then p.rollover else p

/-- The part after the retirement check of a second boundary. -/
def Part.checked (p : Part) : Part := p.rolled.retireCheck fun _ => true

theorem Part.secondBoundary_eq (p : Part) : p.secondBoundary =
    if p.checked.time.second % 60 == 0 then p.checked.tellWall.evaluateAll true else p.checked.tellWall := by
  unfold Part.secondBoundary Part.checked Part.rolled Part.serviceDayOver
  rfl

theorem Part.moves_checked (p : Part) : p.Moves p.checked := by
  have hrolled : p.Moves p.rolled := by
    unfold Part.rolled
    split
    · exact p.moves_rollover
    · exact .refl p
  exact hrolled.trans (Part.moves_retireCheck _ _)

theorem Part.moves_secondBoundary (p : Part) : p.Moves p.secondBoundary := by
  have hchecked := p.moves_checked
  rw [Part.secondBoundary_eq]
  generalize p.checked = q at hchecked ⊢
  split
  · exact (hchecked.trans q.moves_tellWall).trans (Part.moves_evaluateAll _ _)
  · exact hchecked.trans q.moves_tellWall

theorem Part.moves_rangeEnd (p : Part) : p.Moves p.rangeEnd :=
  ((p.moves_modTime _).trans (Part.moves_tellWall _)).trans (Part.moves_evaluateAll _ _)

theorem Part.moves_advanceTo {p : Part} {t : Nat} (h : t ≤ p.elapsed) : p.Moves (p.advanceTo t) := by
  have hframe : p.advanceTo t = { p with
      elapsed := p.elapsed, time := (p.advanceTo t).time, info := (p.advanceTo t).info, ctl := (p.advanceTo t).ctl } := by
    unfold Part.advanceTo
    rw [max_eq_left h]
  refine ⟨(congrArg Part.beyondMoved hframe :), fun l k hk => ?_, fun l => ?_⟩
  · rw [Part.advanceTo_port, Port.carry_frame]
    exact hk
  · rw [Part.advanceTo_port, Port.carry_frame]

/-- The part at the beginning of the next station second. -/
def Part.secondBegun (p : Part) : Part :=
  ((p.advanceTo (p.elapsed + (p.time.secondLength - p.time.sourceMs))).modTime Timebase.tick).begin

theorem Part.stationSecond_eq (p : Part) : p.stationSecond = if p.time.rangeEnds then p.secondBegun.rangeEnd.finish
    else if p.secondBegun.time.valid then p.secondBegun.secondBoundary.finish else p.secondBegun.finish := rfl

/-- A station second that is over ends without elapsed time passing. -/
theorem Part.moves_stationSecond {p : Part} (h : p.time.secondLength ≤ p.time.sourceMs) : p.Moves p.stationSecond := by
  have hbegun : p.Moves p.secondBegun :=
    ((Part.moves_advanceTo (by omega)).trans (Part.moves_modTime _ _)).trans (Part.moves_begin _)
  rw [Part.stationSecond_eq]
  generalize p.secondBegun = q at hbegun ⊢
  split
  · exact (hbegun.trans q.moves_rangeEnd).trans (Part.moves_finish _)
  · split
    · exact (hbegun.trans q.moves_secondBoundary).trans (Part.moves_finish _)
    · exact hbegun.trans q.moves_finish

theorem Part.moves_owedSeconds (p : Part) : p.Moves p.owedSeconds :=
  Part.moves_times (fun q => by
    split
    · next h => exact Part.moves_stationSecond h
    · exact .refl q) _ p

end Sys2Proof.Machine
end

section
/-! Steps of station time (R11, R14, R17) and TIME_SET (O24). -/

namespace Sys2Proof.Machine

theorem Part.finish_port (p : Part) (l : Link) : (p.port l).Latches (· = .cueFailed) (p.finish.port l) := by
  rw [Part.finish_eq_ended]
  exact p.ended_port _ l

/-! ## What a rollover and a step do to the Timebase -/

theorem Part.tableRollover_time (p : Part) : p.tableRollover.time = p.time := by
  unfold Part.tableRollover
  exact foldl_keeps (fun p : Part => p.time) Part.retire (fun p id => Part.deleteRecord_time p id) _ p

theorem Part.rollover_time (p : Part) : p.rollover.time = { p.time with serviceDay := p.time.serviceDay.map (· + 1) } := by
  unfold Part.rollover
  split
  · next h =>
    rw [h]
    show p.time = { p.time with serviceDay := none }
    rw [← h]
  · next d h =>
    rw [h]
    exact Part.tableRollover_time _

theorem Part.times_rollover_time (n : Nat) (p : Part) :
    (times n Part.rollover p).time = { p.time with serviceDay := p.time.serviceDay.map (· + (n : Int)) } := by
  induction n generalizing p with
  | zero =>
    have h : p.time.serviceDay.map (· + ((0 : Nat) : Int)) = p.time.serviceDay := by
      cases p.time.serviceDay with
      | none => rfl
      | some d => exact congrArg some (Int.add_zero d)
    rw [h]
    rfl
  | succ n ih =>
    rw [times, ih, Part.rollover_time]
    dsimp only
    rw [Option.map_map]
    have h : ((· + (n : Int)) ∘ (· + (1 : Int))) = (· + ((n + 1 : Nat) : Int)) := by
      funext d
      simp only [Function.comp]
      omega
    rw [h]

/-- How many rollovers a step to the second `secs` and `ms` milliseconds performs (R17). -/
def Timebase.stepRollovers (t : Timebase) (secs ms : Nat) : Nat :=
  if t.valid && 0 < (secs : Int) * 1000 + ms - t.instant then t.rolloversDue secs else 0

/-- The part once a step has been announced to the Departure Table, the Clock Line Drivers and the Wall Composer. -/
def Part.stepped (p : Part) (secs ms : Nat) : Part :=
  (((times (p.time.stepRollovers secs ms) Part.rollover (p.modTime (·.setTo secs ms))).retireCheck fun _ => true).evaluateAll
    false).tellWall

theorem Part.stepTime_eq (p : Part) (secs ms : Nat) : p.stepTime secs ms =
    (p.stepped secs ms).latch .timeStepped (stepSubject ((secs : Int) * 1000 + ms - p.time.instant)) := by
  unfold Part.stepTime Part.stepped Timebase.stepRollovers
  rfl

theorem Part.stepped_time (p : Part) (secs ms : Nat) : (p.stepped secs ms).time = { p.time.setTo secs ms with
    serviceDay := (p.time.setTo secs ms).serviceDay.map (· + (p.time.stepRollovers secs ms : Int)) } := by
  unfold Part.stepped
  rw [Part.tellWall_time, Part.evaluateAll_time, Part.retireCheck_time, Part.times_rollover_time]
  rfl

theorem Part.moves_stepped (p : Part) (secs ms : Nat) : p.Moves (p.stepped secs ms) :=
  ((((p.moves_modTime _).trans (Part.moves_times Part.moves_rollover _ _)).trans (Part.moves_retireCheck _ _)).trans
    (Part.moves_evaluateAll _ _)).trans (Part.moves_tellWall _)

theorem Part.latch_time (p : Part) (k : EventKind) (x : BitVec 16) : (p.latch k x).time = p.time := rfl

theorem Part.stepTime_time (p : Part) (secs ms : Nat) : (p.stepTime secs ms).time = { p.time.setTo secs ms with
    serviceDay := (p.time.setTo secs ms).serviceDay.map (· + (p.time.stepRollovers secs ms : Int)) } := by
  rw [Part.stepTime_eq, Part.latch_time]
  exact p.stepped_time secs ms

theorem Part.stepTime_port (p : Part) (secs ms : Nat) (l : Link) :
    ((p.stepTime secs ms).port l).isLatched .timeStepped = true ∧ ((p.port l).subjects.length = 29 →
      ((p.stepTime secs ms).port l).subject .timeStepped = stepSubject ((secs : Int) * 1000 + ms - p.time.instant)) := by
  have hlength := (p.moves_stepped secs ms).length l
  rw [Part.stepTime_eq, Part.latch_port]
  exact ⟨Port.latch_isLatched_same _ _ _, fun h => Port.latch_subject_same _ _ _ (hlength.trans h)⟩

/-! ## The service date of a step (R14, R17) -/

theorem Timebase.setTo_eq (t : Timebase) {day sec : Nat} (ms : Nat) (h : sec < 86400) : t.setTo (day * 86400 + sec) ms = { t with
    day := day, second := sec, sourceMs := ms, secondLength := 1000, slew := none, valid := true
    serviceDay := (t.setTo (day * 86400 + sec) ms).serviceDay } := by
  have hday : (day * 86400 + sec) / 86400 = day := by omega
  have hsec : (day * 86400 + sec) % 86400 = sec := by omega
  unfold Timebase.setTo
  rw [hday, hsec]
  dsimp only
  split <;> rfl

theorem Timebase.setTo_serviceDay_of_invalid {t : Timebase} (h : t.valid = false) (secs ms : Nat) :
    (t.setTo secs ms).serviceDay = some (t.setTo secs ms).directDay := by
  unfold Timebase.setTo
  dsimp only
  rw [if_neg (by rw [h]; exact Bool.false_ne_true)]
  rfl

theorem Timebase.setTo_serviceDay_of_valid {t : Timebase} (h : t.valid = true) (secs ms : Nat) :
    (t.setTo secs ms).serviceDay = t.serviceDay := by
  unfold Timebase.setTo
  dsimp only
  rw [if_pos h]

theorem Timebase.stepRollovers_of_invalid {t : Timebase} (h : t.valid = false) (secs ms : Nat) : t.stepRollovers secs ms = 0 := by
  unfold Timebase.stepRollovers
  rw [h]
  rfl

theorem Timebase.stepRollovers_of_valid {t : Timebase} {sd : Int} (h : t.valid = true) (hsd : t.serviceDay = some sd) (secs ms : Nat) :
    (t.stepRollovers secs ms : Int) =
      if t.instant < (secs : Int) * 1000 + ms then max 0 ((secs : Int) - t.startOf sd) / 86400 else 0 := by
  unfold Timebase.stepRollovers Timebase.rolloversDue
  rw [h, hsd]
  simp only [Bool.true_and, decide_eq_true_eq]
  by_cases hlt : t.instant < (secs : Int) * 1000 + ms
  · rw [if_pos (by omega), if_pos hlt]
    omega
  · rw [if_neg (by omega), if_neg hlt]
    rfl

/-- The large-offset run discarded: only the run and the glitch count. -/
theorem Timebase.discardRun_eq (t : Timebase) : t.discardRun = { t with ref := t.discardRun.ref, glitches := t.discardRun.glitches } := by
  unfold Timebase.discardRun
  split <;> rfl

/-! ## TIME_SET -/

theorem readFields_be {n v : Nat} (h : v < 256 ^ n) (sizes : List Nat) (rest : List Byte) :
    readFields (n :: sizes) (be n v ++ rest) = (readFields sizes rest).map (v :: ·) := by
  rw [readFields, readBe_be_append, Nat.mod_eq_of_lt h]

theorem readFields_byte (b : Byte) : readFields [1] [b] = some [b.toNat] := by
  simp [readFields, readBe, ofBe]

theorem readTimeSet_bytes {y m d sec : Nat} (hy : y < 65536) (hm : m < 256) (hd : d < 256) (hs : sec < 4294967296) (flags : Byte) :
    readTimeSet (be 2 y ++ be 1 m ++ be 1 d ++ be 4 sec ++ [flags]) = some (y, m, d, sec, flags.getLsbD 0) := by
  have hbit : (flags.toNat % 2 == 1) = flags.getLsbD 0 := by
    rw [BitVec.getLsbD, Nat.testBit_zero]
    exact beq_eq_decide _ _
  rw [readTimeSet, List.append_assoc, List.append_assoc, List.append_assoc, readFields_be hy, readFields_be hm, readFields_be hd,
    readFields_be hs, readFields_byte]
  dsimp only [Option.map_some]
  rw [hbit]

/-- What a TIME_SET that is carried out leaves. -/
def Part.timeSetTo (p : Part) (secs : Nat) : Part := ((p.owedSeconds.begin.modTime Timebase.discardRun).stepTime secs 0).finish

theorem timeSet_refused {l : Link} {p : Part} {y m d sec : Nat} {force : Bool} :
    (p.own.time ≠ l → timeSet l (y, m, d, sec, force) p = refuse p .notOwner) ∧
    (p.own.time = l → dayOfDate y m d = none ∨ 86399 < sec → timeSet l (y, m, d, sec, force) p = refuse p .invalidField) ∧
    (p.own.time = l → ∀ day, dayOfDate y m d = some day → sec ≤ 86399 →
      (p.time.ref.isLocked = true → force = false → timeSet l (y, m, d, sec, force) p = refuse p .notPermitted) ∧
      (p.time.ref.isLocked = false ∨ force = true →
        timeSet l (y, m, d, sec, force) p = .reply (p.timeSetTo (day * 86400 + sec)) .ok [])) := by
  unfold timeSet
  refine ⟨fun h => if_pos (bne_iff_ne.mpr h), fun h hbad => ?_, fun h day hday hsec => ?_⟩
  · rw [if_neg (by simpa using h)]
    cases hday : dayOfDate y m d with
    | none => rfl
    | some day => exact if_pos (hbad.resolve_left (by rw [hday]; exact Option.some_ne_none _))
  · rw [if_neg (by simpa using h)]
    dsimp only
    rw [hday]
    dsimp only
    rw [if_neg (Nat.not_lt.mpr hsec)]
    refine ⟨fun hl hf => if_pos (by rw [hl, hf]; rfl), fun hl => if_neg ?_⟩
    rcases hl with hl | hl
    · simp [hl]
    · simp [hl]

/-- What a TIME_SET that is carried out leaves of the Timebase and of the ports. -/
theorem Part.timeSetTo_law (p : Part) {day sec : Nat} (hsec : sec ≤ 86399) :
    let t := p.owedSeconds.time
    let q := p.timeSetTo (day * 86400 + sec)
    q.time = { t.discardRun with
      day := day, second := sec, sourceMs := 0, secondLength := 1000, slew := none, valid := true, serviceDay := q.time.serviceDay } ∧
    (t.valid = false → q.time.serviceDay = some q.time.directDay) ∧
    (∀ sd, t.valid = true → t.serviceDay = some sd → q.time.serviceDay = some (sd +
      (if t.instant < ((day * 86400 + sec : Nat) : Int) * 1000 then
        max 0 (((day * 86400 + sec : Nat) : Int) - t.startOf sd) / 86400 else 0))) ∧
    ∀ l, (q.port l).isLatched .timeStepped = true ∧ ((p.port l).subjects.length = 29 →
      (q.port l).subject .timeStepped = stepSubject (((day * 86400 + sec : Nat) : Int) * 1000 - t.instant)) := by
  intro t q
  have hrun := t.discardRun_eq
  have htime : q.time = { t.discardRun.setTo (day * 86400 + sec) 0 with
      serviceDay := (t.discardRun.setTo (day * 86400 + sec) 0).serviceDay.map
        (· + (t.discardRun.stepRollovers (day * 86400 + sec) 0 : Int)) } :=
    (Part.finish_time _).trans ((p.owedSeconds.begin.modTime Timebase.discardRun).stepTime_time (day * 86400 + sec) 0)
  have hset := t.discardRun.setTo_eq (day := day) (sec := sec) 0 (by omega)
  have hvalid : t.discardRun.valid = t.valid := (congrArg Timebase.valid hrun :)
  have hday : t.discardRun.serviceDay = t.serviceDay := (congrArg Timebase.serviceDay hrun :)
  have hinstant : t.discardRun.instant = t.instant := (congrArg Timebase.instant hrun :)
  have hstart (sd : Int) : t.discardRun.startOf sd = t.startOf sd := (congrArg (Timebase.startOf · sd) hrun :)
  refine ⟨?_, fun h => ?_, fun sd hv hsd => ?_, fun l => ?_⟩
  · rw [htime, hset]
  · have hinvalid := hvalid.trans h
    rw [htime, Timebase.stepRollovers_of_invalid hinvalid, Timebase.setTo_serviceDay_of_invalid hinvalid]
    exact congrArg some (Int.add_zero _)
  · rw [htime]
    show (t.discardRun.setTo (day * 86400 + sec) 0).serviceDay.map _ = _
    rw [Timebase.setTo_serviceDay_of_valid (hvalid.trans hv), hday, hsd, Option.map_some,
      Timebase.stepRollovers_of_valid (hvalid.trans hv) (hday.trans hsd), hinstant, hstart, Int.ofNat_zero, Int.add_zero]
  · have hmoved := (p.moves_owedSeconds.trans (Part.moves_begin _)).trans (Part.moves_modTime _ Timebase.discardRun)
    obtain ⟨hlatched, hsubject⟩ := (p.owedSeconds.begin.modTime Timebase.discardRun).stepTime_port (day * 86400 + sec) 0 l
    have hfinish := ((p.owedSeconds.begin.modTime Timebase.discardRun).stepTime (day * 86400 + sec) 0).finish_port l
    obtain ⟨hk, hs⟩ := hfinish.other .timeStepped (by decide)
    refine ⟨hk.trans hlatched, fun hlen => hs.trans ((hsubject ((hmoved.length l).trans hlen)).trans ?_)⟩
    show stepSubject (_ - t.discardRun.instant) = _
    rw [hinstant, Int.ofNat_zero, Int.add_zero]

/-- Settles O24: the refusals, and the step that the request makes. -/
theorem timeSetStepsStationTime : Obligations.TimeSetStepsStationTime := by
  unfold Obligations.TimeSetStepsStationTime
  intro s rq y m d sec flags he hb hy hm hd hs
  have hr : readTimeSet rq.body = some (y, m, d, sec, flags.getLsbD 0) := by rw [hb, readTimeSet_bytes hy hm hd hs]
  obtain ⟨hnot, hfield, hlocked⟩ := timeSet_refused (l := rq.link) (p := s.part) (y := y) (m := m) (d := d) (sec := sec)
    (force := flags.getLsbD 0)
  refine ⟨fun h => answers_of_reply rfl he hr (hnot h), fun h hbad => answers_of_reply rfl he hr (hfield h hbad),
    fun h hday hsec hl hf => ?_, fun day hday hsec h hl => ?_⟩
  · obtain ⟨day, hday⟩ := Option.isSome_iff_exists.mp hday
    exact answers_of_reply rfl he hr ((hlocked h day hday hsec).1 hl hf)
  · have hlaw := s.part.timeSetTo_law (day := day) hsec
    have hmoves : s.part.Moves (s.part.timeSetTo (day * 86400 + sec)) :=
      (((s.part.moves_owedSeconds.trans (Part.moves_begin _)).trans (Part.moves_modTime _ _)).trans (Part.moves_stepTime _ _ _)).trans
        (Part.moves_finish _)
    obtain ⟨hown, hnow, hchain, hinputs, hfeed, hworking, -⟩ := hmoves.fields
    obtain ⟨htime, hinvalid, hvalid, hports⟩ := hlaw
    exact ⟨_, answers_of_reply rfl he hr ((hlocked h day hday hsec).2 hl), htime, hinvalid, hvalid, hports, hown, hnow, hchain, hinputs,
      hfeed, hworking⟩

end Sys2Proof.Machine
end

section
/-! The rollover of the Departure Table (O29). -/

namespace Sys2Proof.Machine

theorem Part.computed_congr {p q : Part} (h : p.store.working = q.store.working) (r : Record) : p.computed r = q.computed r := by
  have hcfg := Part.cfg_congr h
  unfold Part.computed Part.lateL Part.hystH Part.reseqQ
  simp only [hcfg]

/-- The records left once those of the ids `ids` have been retired. -/
theorem Part.foldl_retire_table (ids : List Nat) (p : Part) :
    (ids.foldl Part.retire p).table = { p.table with records := p.table.records.filter fun r => !ids.contains r.id } := by
  induction ids generalizing p with
  | nil => simp
  | cons id ids ih =>
    have hone : (p.retire id).table = { p.table with records := p.table.records.filter (·.id != id) } := p.deleteRecord_table id
    rw [List.foldl_cons, ih, hone]
    simp only [List.filter_filter]
    congr 1
    refine List.filter_congr fun r _ => ?_
    rw [List.contains_cons, Bool.not_or, Bool.and_comm]
    rfl

/-- Where the ids are distinct, the records retired by their ids are the records picked. -/
theorem Part.retired_table {p : Part} (hd : (p.table.records.map (·.id)).Nodup) (sel : Record → Bool) :
    (((p.table.records.filter sel).map (·.id)).foldl Part.retire p).table.records = p.table.records.filter (!sel ·) := by
  rw [Part.foldl_retire_table]
  refine List.filter_congr fun r hr => ?_
  congr 1
  rw [Bool.eq_iff_iff, List.contains_iff_mem, List.mem_map]
  constructor
  · rintro ⟨x, hx, hid⟩
    obtain ⟨hx, hsel⟩ := List.mem_filter.mp hx
    rwa [← eq_of_id hd hx hr hid]
  · exact fun h => ⟨r, List.mem_filter.mpr ⟨hr, h⟩, rfl⟩

/-- The records after the table's part of a rollover, in their order. -/
theorem Part.tableRollover_records {p : Part} (hd : (p.table.records.map (·.id)).Nodup) : p.tableRollover.table.records =
    sortRecords ((p.table.records.filter (!Record.oldDay ·)).map fun r => p.computed r.shift) := by
  have hmoves := Part.moves_foldl Part.moves_retire ((p.table.records.filter Record.oldDay).map (·.id)) p
  have hrecords := Part.retired_table hd Record.oldDay
  unfold Part.tableRollover
  generalize ((p.table.records.filter Record.oldDay).map (·.id)).foldl Part.retire p = q at *
  show sortRecords (q.table.records.map fun r => q.computed r.shift) = _
  rw [hrecords]
  obtain ⟨-, -, -, -, -, hworking, -⟩ := hmoves.fields
  simp only [Part.computed_congr hworking]

/-- Settles O29: the records of the old day leave, and the others are shifted, computed and put in order. -/
theorem rolloverShiftsTheTable : Obligations.RolloverShiftsTheTable := by
  unfold Obligations.RolloverShiftsTheTable
  intro p d hday hd q
  let dated : Part := { p with time := { p.time with serviceDay := some (d + 1) } }
  have hq : q = dated.tableRollover.latch .rolloverDone (BitVec.ofInt 16 (d + 1)) := by
    show p.rollover = _
    rw [Part.rollover, hday]
  have hmoves : p.Moves q := p.moves_rollover
  have hrecords : q.table.records = sortRecords ((p.table.records.filter (!Record.oldDay ·)).map fun r => p.computed r.shift) := by
    rw [hq]
    exact dated.tableRollover_records hd
  have hperm : q.table.records.Perm ((p.table.records.filter (!Record.oldDay ·)).map fun r => p.computed r.shift) := by
    rw [hrecords]
    exact sortBy_perm _ _
  obtain ⟨-, -, -, -, -, hworking, -⟩ := hmoves.fields
  refine ⟨?time, fun l => ?port, ?shifted, fun r hr => ?record⟩
  case time =>
    rw [show q.time = _ from p.rollover_time, hday]
    rfl
  case port =>
    have hlength : (dated.tableRollover.port l).subjects.length = (p.port l).subjects.length :=
      (dated.moves_tableRollover.length l).trans (by cases l <;> rfl)
    rw [hq, Part.latch_port]
    exact ⟨Port.latch_isLatched_same _ _ _, fun hlen => Port.latch_subject_same _ _ _ (hlength.trans hlen)⟩
  case shifted =>
    have h := hperm.map fun r => (r.id, r.sched)
    rwa [List.map_map] at h
  case record =>
    obtain ⟨r₀, hr₀, rfl⟩ := List.mem_map.mp (hperm.mem_iff.mp hr)
    refine ⟨r₀, (List.mem_filter.mp hr₀).1, rfl, rfl, rfl, rfl, rfl, rfl, rfl, ?_⟩
    rw [Part.computed_congr hworking]
    rfl

end Sys2Proof.Machine
end

section
/-! The end of a station second (O28). -/

namespace Sys2Proof.Machine

/-! ## The operations of a second boundary do not look at the event -/

theorem eventBlind_foldl {α : Type} {f : Part → α → Part} (h : ∀ a, EventBlind (f · a)) (l : List α) :
    EventBlind fun p => l.foldl f p := by
  induction l with
  | nil => exact fun _ _ h => h
  | cons a l ih => exact fun p q hpq => ih _ _ (h a p q hpq)

theorem eventBlind_latch (k : EventKind) (x : BitVec 16) : EventBlind (·.latch k x) := EventBlind.of_withEv fun _ _ => rfl

theorem eventBlind_modTime (f : Timebase → Timebase) : EventBlind (·.modTime f) := EventBlind.of_withEv fun _ _ => rfl

theorem eventBlind_mapRecords (f : List Record → List Record) : EventBlind (·.mapRecords f) := EventBlind.of_withEv fun _ _ => rfl

theorem eventBlind_removeAuto (id : Nat) (ts : List Template) : EventBlind (·.removeAuto id ts) :=
  EventBlind.of_withEv fun _ _ => rfl

theorem eventBlind_withdrawAll (id : Nat) : EventBlind (·.withdrawAll id) :=
  (eventBlind_withdrawNotice .cancel (some id)).comp ((eventBlind_withdrawNotice .change (some id)).comp
    ((eventBlind_withdrawNotice .unknown (some id)).comp (eventBlind_withdrawNotice .delay (some id))))

theorem eventBlind_retire (id : Nat) : EventBlind (·.retire id) :=
  (eventBlind_latchNat .serviceRetired id).comp (eventBlind_tellWall.comp ((eventBlind_removeAuto id allTemplates).comp
    ((eventBlind_withdrawAll id).comp (eventBlind_mapRecords (·.filter (·.id != id))))))

theorem eventBlind_retireCheck (sel : Record → Bool) : EventBlind (·.retireCheck sel) := by
  rintro p q ⟨e, rfl⟩
  have hids : (q.withEv e).retireCheck sel = (((q.table.records.filter fun r => sel r && q.retireDue r).map (·.id)).foldl Part.retire
      (q.withEv e)) := rfl
  show ((q.withEv e).retireCheck sel).Like (q.retireCheck sel)
  rw [hids]
  exact eventBlind_foldl eventBlind_retire _ _ _ (q.like_withEv e)

theorem eventBlind_tableRollover : EventBlind Part.tableRollover := by
  rintro p q ⟨e, rfl⟩
  have hplace (u v : Part) (h : u.Like v) : (u.mapRecords fun l => sortRecords (l.map fun r => u.computed r.shift)).tellWall.Like
      (v.mapRecords fun l => sortRecords (l.map fun r => v.computed r.shift)).tellWall := by
    obtain ⟨e', rfl⟩ := h
    exact eventBlind_tellWall _ _ ⟨e', rfl⟩
  exact hplace _ _ (eventBlind_foldl eventBlind_retire ((q.table.records.filter Record.oldDay).map (·.id)) _ _ (q.like_withEv e))

theorem eventBlind_rollover : EventBlind Part.rollover := by
  rintro p q ⟨e, rfl⟩
  unfold Part.rollover
  have htime : (q.withEv e).time = q.time := rfl
  rw [htime]
  split
  · exact q.like_withEv e
  · exact eventBlind_latch _ _ _ _ (eventBlind_tableRollover _ _ ⟨e, rfl⟩)

theorem Part.evaluate_withEv (p : Part) (e : Event) (i : Nat) (boundary retry : Bool) :
    (p.withEv e).evaluate i boundary retry = (p.evaluate i boundary retry).withEv e := by
  have hline : (p.withEv e).clocks.line i = p.clocks.line i := rfl
  by_cases hleft : (p.clocks.line i).isFaulted = true ∨ (p.clocks.line i).state = .parked
  · rw [Part.evaluate_left hleft, Part.evaluate_left (p := p.withEv e) hleft]
  · rw [not_or, Bool.not_eq_true] at hleft
    have hspoil (q : Part) : (q.withEv e).spoilRecord = q.spoilRecord.withEv e := by
      unfold Part.spoilRecord
      have hclocks : (q.withEv e).clocks = q.clocks := rfl
      rw [hclocks]
      split <;> rfl
    have hd : (p.withEv e).decision i boundary = p.decision i boundary := rfl
    have hx : (p.withEv e).setLine i ((p.withEv e).evaluated i boundary retry) = (p.setLine i (p.evaluated i boundary retry)).withEv e := rfl
    rw [Part.evaluate_eq hleft.1 hleft.2, Part.evaluate_eq (p := p.withEv e) hleft.1 hleft.2]
    dsimp only
    rw [hd, hx, hspoil]
    split
    · split <;> rfl
    · split <;> rfl

theorem eventBlind_evaluateAll (boundary : Bool) : EventBlind (·.evaluateAll boundary) :=
  eventBlind_foldl (fun i => EventBlind.of_withEv fun p e => by
    have hline : (p.withEv e).clocks.line i = p.clocks.line i := rfl
    unfold Part.evaluateFree
    rw [hline, Part.evaluate_withEv]
    split <;> rfl) _

/-! ## The retirement check of a second boundary (R38) -/

/-- No record whose retire instant has come is left by a check of all records. -/
theorem Part.retireCheck_records {p : Part} {r : Record} (hr : r ∈ (p.retireCheck fun _ => true).table.records) :
    r ∈ p.table.records ∧ p.retireDue r = false := by
  unfold Part.retireCheck at hr
  rw [Part.foldl_retire_table] at hr
  obtain ⟨hmem, hnot⟩ := List.mem_filter.mp hr
  refine ⟨hmem, Bool.eq_false_iff.mpr fun hdue => ?_⟩
  rw [Bool.not_eq_true', List.contains_eq_mem, decide_eq_false_iff_not] at hnot
  exact hnot (List.mem_map.mpr ⟨r, List.mem_filter.mpr ⟨hmem, by rw [hdue]; rfl⟩, rfl⟩)

theorem Part.retireInstant_congr {p q : Part} (h : p.store.working = q.store.working) {r x : Record}
    (hx : r.beyondAnnounced = x.beyondAnnounced) : p.retireInstant r = q.retireInstant x := by
  have hcfg := Part.cfg_congr h
  have hcore (y : Record) : p.retireInstant y.beyondAnnounced = p.retireInstant y := rfl
  rw [← hcore r, hx, hcore x]
  unfold Part.retireInstant Part.departedDwell Part.cancelHold Part.graceG Part.cfgWord Part.row
  rw [h]

/-! ## The Timebase over a station second (R1, R2, R9) -/

/-- The slew of the next second, and its length. -/
theorem Timebase.tick_slew (t : Timebase) :
    (∀ c, t.slew = some c → 10 < c.natAbs → t.secondLength = (if 0 < c then 990 else 1010) →
      t.tick.slew = (if c.natAbs ≤ 20 then none else some (if 0 < c then c - 10 else c + 10)) ∧
      t.tick.secondLength = (if c.natAbs ≤ 20 then 1000 else t.secondLength)) ∧
    (t.slew = none → t.tick.slew = none ∧ t.tick.secondLength = 1000) := by
  have hslew : t.tick.slew = slewAfter t.secondLength t.slew := rfl
  have hlength : t.tick.secondLength = slewedLength (slewAfter t.secondLength t.slew) := rfl
  rw [hslew, hlength]
  refine ⟨fun c hc hbig hlen => ?_, fun h => by rw [h]; exact ⟨rfl, rfl⟩⟩
  have hmoved : slewAfter t.secondLength t.slew =
      if (if 0 < c then c - 10 else c + 10).natAbs ≤ 10 then none else some (if 0 < c then c - 10 else c + 10) := by
    rw [hc, hlen]
    exact congrArg (fun x : Int => if x.natAbs ≤ 10 then none else some x) (if_pos (beq_self_eq_true _))
  have hiff : (if 0 < c then c - 10 else c + 10).natAbs ≤ 10 ↔ c.natAbs ≤ 20 := by
    split <;> omega
  rw [hmoved]
  by_cases hsmall : c.natAbs ≤ 20
  · rw [if_pos (hiff.mpr hsmall), if_pos hsmall, if_pos hsmall]
    exact ⟨rfl, rfl⟩
  · rw [if_neg (mt hiff.mp hsmall), if_neg hsmall, if_neg hsmall, hlen]
    refine ⟨rfl, ?_⟩
    unfold slewedLength
    dsimp only
    by_cases hc0 : 0 < c
    · rw [if_pos hc0, if_pos (by omega), if_pos hc0]
    · rw [if_neg hc0, if_neg (by omega), if_neg hc0]

theorem Part.rolled_time (p : Part) : p.rolled.time = { p.time with
    serviceDay := if p.serviceDayOver then p.time.serviceDay.map (· + 1) else p.time.serviceDay } := by
  unfold Part.rolled
  split
  · exact p.rollover_time
  · rfl

theorem Part.checked_time (p : Part) : p.checked.time = p.rolled.time := Part.retireCheck_time _ _

theorem Part.secondBoundary_time (p : Part) : p.secondBoundary.time = p.rolled.time := by
  rw [Part.secondBoundary_eq, ← p.checked_time]
  generalize p.checked = q
  split
  · exact Part.evaluateAll_time _ _
  · rfl

theorem Part.rangeEnd_time (p : Part) : p.rangeEnd.time = { p.time with valid := false, serviceDay := none } :=
  Part.evaluateAll_time _ _

theorem Timebase.tick_frame (t : Timebase) : t.tick = { t with
    second := if t.second = 86399 then 0 else t.second + 1
    day := if t.second = 86399 then (if t.day = 36524 then 0 else t.day + 1) else t.day
    sourceMs := t.sourceMs - t.secondLength, secondLength := t.tick.secondLength, slew := t.tick.slew } := by
  unfold Timebase.tick
  simp only [beq_iff_eq]
  rfl

end Sys2Proof.Machine
end

section
/-! Settling O28: the three ends of a station second. -/

namespace Sys2Proof.Machine

/-- A second boundary and the end of its event, from any part that differs in the event alone. -/
theorem Part.secondBoundary_finish {p q : Part} (h : p.Like q) : p.secondBoundary.finish =
    (if q.checked.time.second % 60 = 0 then q.checked.evaluateAll true else q.checked).ended true := by
  have hrolled : p.rolled.Like q.rolled := by
    obtain ⟨e, rfl⟩ := h
    unfold Part.rolled
    have hover : (q.withEv e).serviceDayOver = q.serviceDayOver := rfl
    rw [hover]
    split
    · exact eventBlind_rollover _ _ (q.like_withEv e)
    · exact q.like_withEv e
  have hchecked : p.checked.Like q.checked := eventBlind_retireCheck _ _ _ hrolled
  have htold : p.checked.tellWall.Like q.checked := (Part.like_tellWall _).trans hchecked
  have hsecond : p.checked.time.second = q.checked.time.second := by
    obtain ⟨e, he⟩ := hchecked
    rw [he]
    rfl
  rw [Part.secondBoundary_eq, hsecond]
  simp only [beq_iff_eq]
  generalize p.checked = u at *
  generalize q.checked = v at *
  split
  · exact (eventBlind_evaluateAll true _ _ htold).finish (by rw [Part.evaluateAll_ev]; rfl)
  · exact htold.finish rfl

/-- The end of the date range and of its event. -/
theorem Part.rangeEnd_finish {p q : Part} (h : p.Like q) : p.rangeEnd.finish =
    (({ q with time := { q.time with valid := false, serviceDay := none } } : Part).evaluateAll false).ended true := by
  have htold : (p.modTime fun t => { t with valid := false, serviceDay := none }).tellWall.Like
      { q with time := { q.time with valid := false, serviceDay := none } } := by
    obtain ⟨e, rfl⟩ := h
    exact ⟨_, rfl⟩
  exact (eventBlind_evaluateAll false _ _ htold).finish (by rw [Part.evaluateAll_ev]; rfl)

/-- After a second boundary every record's retire instant is still to come. -/
theorem Part.secondBoundary_retired {p : Part} (hvalid : p.time.valid = true) {r : Record}
    (hr : r ∈ ((if p.checked.time.second % 60 = 0 then p.checked.evaluateAll true else p.checked).ended true).table.records)
    {sd : Int} (hsd : p.rolled.time.serviceDay = some sd) :
    max 0 ((p.rolled.time.seconds : Int) - p.rolled.time.startOf sd) <
      ((if p.checked.time.second % 60 = 0 then p.checked.evaluateAll true else p.checked).ended true).retireInstant r := by
  have htable (q : Part) : (if q.time.second % 60 = 0 then q.evaluateAll true else q).table = q.table := by
    split
    · exact Part.evaluateAll_table _ _
    · rfl
  have hmoves : p.rolled.Moves ((if p.checked.time.second % 60 = 0 then p.checked.evaluateAll true else p.checked).ended true) := by
    have hchecked : p.rolled.Moves p.checked := Part.moves_retireCheck _ _
    refine Part.Moves.trans ?_ (Part.moves_ended _ true)
    split
    · exact hchecked.trans (Part.moves_evaluateAll _ _)
    · exact hchecked
  have hrecords := Part.ended_records (if p.checked.time.second % 60 = 0 then p.checked.evaluateAll true else p.checked) true
  rw [htable] at hrecords
  obtain ⟨-, -, -, -, -, hworking, -⟩ := hmoves.fields
  generalize (if p.checked.time.second % 60 = 0 then p.checked.evaluateAll true else p.checked).ended true = f at *
  have hmem : r.beyondAnnounced ∈ p.checked.table.records.map Record.beyondAnnounced := hrecords ▸ List.mem_map_of_mem hr
  obtain ⟨x, hx, hxr⟩ := List.mem_map.mp hmem
  have hdue := (Part.retireCheck_records hx).2
  have hnow : p.rolled.tableNow = some (max 0 ((p.rolled.time.seconds : Int) - p.rolled.time.startOf sd)) := by
    have hv : p.rolled.time.valid = true := by rw [Part.rolled_time]; exact hvalid
    rw [Part.tableNow, Timebase.serviceSeconds, hv, hsd]
    rfl
  rw [Part.retireDue, hnow] at hdue
  rw [Part.retireInstant_congr hworking hxr.symm]
  exact Int.not_le.mp (of_decide_eq_false hdue)

/-- The Timebase after a station second: the next second, and otherwise only its validity and the service date. -/
theorem Part.stationSecond_time (p : Part) : p.stationSecond.time = { p.secondBegun.time with
    valid := p.stationSecond.time.valid, serviceDay := p.stationSecond.time.serviceDay } := by
  have hframe {t u : Timebase} {v : Bool} {d : Option Int} (h : t = { u with valid := v, serviceDay := d }) :
      t = { u with valid := t.valid, serviceDay := t.serviceDay } := by
    rw [h]
  rw [Part.stationSecond_eq]
  generalize p.secondBegun = q
  split
  · exact hframe ((Part.finish_time _).trans q.rangeEnd_time)
  · split
    · exact hframe ((Part.finish_time _).trans (q.secondBoundary_time.trans q.rolled_time))
    · rw [Part.finish_time]

theorem Part.serviceDayOver_iff {p : Part} (h : p.time.valid = true) : p.serviceDayOver = true ↔
    ∃ d, p.time.serviceDay = some d ∧ (86400 : Int) ≤ (p.time.seconds : Int) - p.time.startOf d := by
  rw [Part.serviceDayOver, Timebase.serviceSeconds, if_pos h]
  cases p.time.serviceDay with
  | none => simp
  | some d => simp

theorem Part.moves_fromBegun (p : Part) : p.secondBegun.Moves p.stationSecond := by
  rw [Part.stationSecond_eq]
  generalize p.secondBegun = q
  split
  · exact q.moves_rangeEnd.trans (Part.moves_finish _)
  · split
    · exact q.moves_secondBoundary.trans (Part.moves_finish _)
    · exact q.moves_finish

theorem Timebase.rangeEnds_iff (t : Timebase) : t.rangeEnds = true ↔ t.second = 86399 ∧ t.day = 36524 := by
  rw [Timebase.rangeEnds, Bool.and_eq_true, beq_iff_eq, beq_iff_eq, and_comm]
  rfl

theorem Part.ended_time (p : Part) (told : Bool) : (p.ended told).time = p.time := (congrArg Part.time (p.ended_eq told) :)

/-- A second boundary while time is valid, named from the part `begun` at which the next second begins. -/
theorem Part.stationSecond_valid {p b : Part} (hends : p.time.rangeEnds = false) (hbegun : p.secondBegun.Like b)
    (hvalid : b.time.valid = true) :
    p.stationSecond = (if b.checked.time.second % 60 = 0 then b.checked.evaluateAll true else b.checked).ended true ∧
    p.stationSecond.time = b.rolled.time ∧
    (b.serviceDayOver = true → ∀ d, b.time.serviceDay = some d → ∀ l, (p.stationSecond.port l).isLatched .rolloverDone = true) ∧
    (∀ r ∈ p.stationSecond.table.records, ∀ sd, b.rolled.time.serviceDay = some sd →
      max 0 ((b.rolled.time.seconds : Int) - b.rolled.time.startOf sd) < p.stationSecond.retireInstant r) := by
  have hvalid' : p.secondBegun.time.valid = true := by
    obtain ⟨e, he⟩ := hbegun
    rw [he]
    exact hvalid
  have hruns : ¬p.time.rangeEnds = true := by
    rw [hends]
    exact Bool.false_ne_true
  have heq : p.stationSecond = (if b.checked.time.second % 60 = 0 then b.checked.evaluateAll true else b.checked).ended true := by
    rw [Part.stationSecond_eq, if_neg hruns, if_pos hvalid']
    exact Part.secondBoundary_finish hbegun
  have htime : p.stationSecond.time = b.rolled.time := by
    rw [heq, Part.ended_time, ← b.checked_time]
    generalize b.checked = q
    show (if q.time.second % 60 = 0 then q.evaluateAll true else q).time = q.time
    split
    · exact Part.evaluateAll_time _ _
    · rfl
  refine ⟨heq, htime, fun hover d hd l => ?_, fun r hr sd hsd => ?_⟩
  · have hrolled : b.rolled = b.rollover := if_pos hover
    have hlatched : (b.rolled.port l).isLatched .rolloverDone = true := by
      rw [hrolled, Part.rollover, hd]
      dsimp only
      rw [Part.latch_port, Port.latch_isLatched_same]
    have hmoves : b.rolled.Moves (if b.checked.time.second % 60 = 0 then b.checked.evaluateAll true else b.checked) := by
      have hchecked : b.rolled.Moves b.checked := Part.moves_retireCheck _ _
      split
      · exact hchecked.trans (Part.moves_evaluateAll _ _)
      · exact hchecked
    rw [heq]
    exact (hmoves.trans (Part.moves_ended _ true)).kept l _ hlatched
  · rw [heq] at hr ⊢
    exact Part.secondBoundary_retired hvalid hr hsd

theorem Part.stationSecond_last {p b : Part} (hends : p.time.rangeEnds = true) (hbegun : p.secondBegun.Like b) :
    p.stationSecond = (({ b with time := { b.time with valid := false, serviceDay := none } } : Part).evaluateAll false).ended true ∧
    p.stationSecond.time = { b.time with valid := false, serviceDay := none } := by
  have heq : p.stationSecond = (({ b with time := { b.time with valid := false, serviceDay := none } } : Part).evaluateAll false).ended
      true := by
    rw [Part.stationSecond_eq, if_pos hends]
    exact Part.rangeEnd_finish hbegun
  refine ⟨heq, ?_⟩
  rw [heq, Part.ended_time, Part.evaluateAll_time]

theorem Part.stationSecond_invalid {p b : Part} (hends : p.time.rangeEnds = false) (hbegun : p.secondBegun.Like b)
    (hvalid : b.time.valid = false) : p.stationSecond = b.ended false ∧ p.stationSecond.time = b.time := by
  have hvalid' : p.secondBegun.time.valid = false := by
    obtain ⟨e, he⟩ := hbegun
    rw [he]
    exact hvalid
  have hruns : ¬p.time.rangeEnds = true := by
    rw [hends]
    exact Bool.false_ne_true
  have hunset : ¬p.secondBegun.time.valid = true := by
    rw [hvalid']
    exact Bool.false_ne_true
  have htold : p.secondBegun.ev.wallTold = false := rfl
  have heq : p.stationSecond = b.ended false := by
    rw [Part.stationSecond_eq, if_neg hruns, if_neg hunset]
    exact hbegun.finish htold
  refine ⟨heq, ?_⟩
  rw [heq, Part.ended_time]

/-- The second, the day and the slew that a station second brings. -/
theorem Timebase.tick_law {t u : Timebase} (h : u = { t.tick with valid := u.valid, serviceDay := u.serviceDay }) :
    u.sourceMs = t.sourceMs - t.secondLength ∧
    u.second = (if t.second = 86399 then 0 else t.second + 1) ∧
    u.day = (if t.second = 86399 then (if t.day = 36524 then 0 else t.day + 1) else t.day) ∧
    (∀ c, t.slew = some c → 10 < c.natAbs → t.secondLength = (if 0 < c then 990 else 1010) →
      u.slew = (if c.natAbs ≤ 20 then none else some (if 0 < c then c - 10 else c + 10)) ∧
      u.secondLength = (if c.natAbs ≤ 20 then 1000 else t.secondLength)) ∧
    (t.slew = none → u.slew = none ∧ u.secondLength = 1000) ∧ u.ref = t.ref ∧ u.glitches = t.glitches := by
  obtain ⟨hslew, hno⟩ := t.tick_slew
  have hframe := t.tick_frame
  have hs : u.slew = t.tick.slew := (congrArg Timebase.slew h :)
  have hl : u.secondLength = t.tick.secondLength := (congrArg Timebase.secondLength h :)
  rw [hs, hl]
  exact ⟨(congrArg Timebase.sourceMs h :).trans (congrArg Timebase.sourceMs hframe :),
    (congrArg Timebase.second h :).trans (congrArg Timebase.second hframe :),
    (congrArg Timebase.day h :).trans (congrArg Timebase.day hframe :), hslew, hno,
    (congrArg Timebase.ref h :).trans (congrArg Timebase.ref hframe :),
    (congrArg Timebase.glitches h :).trans (congrArg Timebase.glitches hframe :)⟩

/-- Settles O28, by the three ends of a station second: the end of the date range, a second boundary, and a second of time that is
not valid. -/
theorem stationSecondAdvances : Obligations.StationSecondAdvances := by
  unfold Obligations.StationSecondAdvances
  intro s hp t last moved
  have hbegun : s.part.secondBegun.Like (moved.modTime Timebase.tick) := Part.like_begin _
  have hmoves := s.part.moves_fromBegun
  have htime : s.part.stationSecond.time = { moved.time.tick with
      valid := s.part.stationSecond.time.valid, serviceDay := s.part.stationSecond.time.serviceDay } := s.part.stationSecond_time
  obtain ⟨hms, hsecond, hday, hslew, hno, href, hglitches⟩ := Timebase.tick_law htime
  have hends : s.part.time.rangeEnds = true ↔ last := s.part.time.rangeEnds_iff
  obtain ⟨hown, hnow, hchain, hinputs, hfeed, -⟩ := hmoves.fields
  have hframe := moved.time.tick_frame
  have htickValid : moved.time.tick.valid = t.valid := (congrArg Timebase.valid hframe :)
  have htickDay : moved.time.tick.serviceDay = t.serviceDay := (congrArg Timebase.serviceDay hframe :)
  have htickHour : moved.time.tick.startHour = t.startHour := (congrArg Timebase.startHour hframe :)
  have hlast (h : last) := Part.stationSecond_last (hends.mpr h) hbegun
  have hfalse (h : ¬last) : s.part.time.rangeEnds = false := Bool.eq_false_iff.mpr (mt hends.mp h)
  have hinvalid (h : ¬last) (hv : t.valid = false) := Part.stationSecond_invalid (hfalse h) hbegun (htickValid.trans hv)
  have hvalid (h : ¬last) (hv : t.valid = true) := Part.stationSecond_valid (hfalse h) hbegun (htickValid.trans hv)
  have hleaves : Leaves .stationSecond s s.part.stationSecond := leaves_act (·.stationSecond) rfl hp rfl
  generalize s.part.stationSecond = p at *
  have hb (u : Timebase) (hu : u = moved.time.tick) : ({ moved with time := u } : Part) = moved.modTime Timebase.tick := by
    rw [hu]
    rfl
  refine ⟨p, hleaves, hnow, hms, hsecond, hday, hslew, hno, fun h => ?lastTime, fun h => ?validity, fun hv h => ?invalid,
    fun h => ?lastLeaves, fun hv h => ?boundary, href, hglitches, hown, hchain, hinputs, hfeed⟩
  case lastTime =>
    rw [(hlast h).2]
    exact ⟨rfl, rfl⟩
  case validity =>
    cases hv : t.valid with
    | false => rw [(hinvalid h hv).2]; exact htickValid.trans hv
    | true =>
      rw [(hvalid h hv).2.1, Part.rolled_time]
      exact htickValid.trans hv
  case invalid =>
    obtain ⟨heq, ht⟩ := hinvalid h hv
    rw [hb p.time ht, ← heq]
    exact hleaves
  case lastLeaves =>
    obtain ⟨heq, ht⟩ := hlast h
    rw [ht]
    exact heq ▸ hleaves
  case boundary =>
    obtain ⟨heq, ht, hdone, hretired⟩ := hvalid h hv
    have hbday : (moved.modTime Timebase.tick).time.serviceDay = t.serviceDay := htickDay
    have hbhour : (moved.modTime Timebase.tick).time.startHour = t.startHour := htickHour
    have hbvalid : (moved.modTime Timebase.tick).time.valid = true := htickValid.trans hv
    have hrolledTime := (moved.modTime Timebase.tick).rolled_time
    have hsame : ({ p.time with serviceDay := t.serviceDay } : Timebase) = moved.time.tick := by
      rw [ht, hrolledTime, ← htickDay]
      rfl
    intro begun turns rolled
    have hbegun' : begun = moved.modTime Timebase.tick := hb _ hsame
    clear_value begun
    generalize moved.modTime Timebase.tick = b at *
    subst hbegun'
    have hturns : turns ↔ begun.serviceDayOver = true := by
      rw [Part.serviceDayOver_iff hbvalid, hbday]
      show (∃ d, _ ∧ _ ≤ _) ↔ ∃ d, _ ∧ _ ≤ _ - (d * 86400 + (begun.time.startHour : Int) * 3600)
      rw [hbhour]
      rfl
    have hrolled (q : Part) (hq : rolled q) : q = begun.rolled := by
      by_cases hturn : turns
      · exact (hq.1 hturn).trans (if_pos (hturns.mp hturn)).symm
      · exact (hq.2 hturn).trans (if_neg (mt hturns.mpr hturn)).symm
    have hservice : p.time.serviceDay = if begun.serviceDayOver then t.serviceDay.map (· + 1) else t.serviceDay := by
      rw [ht, hrolledTime, hbday]
    refine ⟨fun q hq => ?_, fun d hd => ⟨fun hturn => ⟨?_, ?_⟩, fun hturn => ?_⟩, fun r hr sd hsd => ?_⟩
    · have hsecond : p.time.second = begun.checked.time.second := by rw [ht, ← begun.checked_time]
      rw [heq] at hleaves
      rw [hrolled q hq, hsecond]
      exact hleaves
    · rw [hservice, if_pos (hturns.mp hturn), hd]
      rfl
    · exact hdone (hturns.mp hturn) d (hbday.trans hd)
    · rw [hservice, if_neg (mt hturns.mpr hturn), hd]
    · have hretire := hretired r hr sd (ht ▸ hsd)
      have hhour : p.time.startHour = t.startHour := by
        rw [ht, hrolledTime]
        exact hbhour
      rw [← ht] at hretire
      rw [← hhour]
      exact hretire

end Sys2Proof.Machine
end

section
/-! Telegrams (O26): their bytes, their run, the seconds owed and the timeouts of the reference. -/

namespace Sys2Proof.Machine

/-! ## The bytes of a telegram (R5) -/

theorem monthDays_eq {y mo : Nat} (h1 : 1 ≤ mo) (h12 : mo ≤ 12) : monthDays (2000 + y) mo = (monthLengths y).getD (mo - 1) 0 := by
  have hleap : (2000 + y) % 4 = y % 4 := by omega
  unfold monthDays monthLengths
  rw [hleap]
  by_cases hy : y % 4 = 0
  · rw [hy]
    interval_cases mo <;> rfl
  · have hy' : (y % 4 == 0) = false := by simpa using hy
    simp only [hy', hy]
    interval_cases mo <;> rfl

theorem daysBefore_eq {y mo : Nat} (h1 : 1 ≤ mo) (h12 : mo ≤ 12) :
    daysBefore (2000 + y) mo = ((monthLengths y).take (mo - 1)).sum := by
  induction mo, h1 using Nat.le_induction with
  | base => rfl
  | succ m h1 ih =>
    have hlen : (monthLengths y).length = 12 := rfl
    have hlt : m - 1 < (monthLengths y).length := by omega
    have hone : m = m - 1 + 1 := by omega
    have hsum : ((monthLengths y).take m).sum = ((monthLengths y).take (m - 1)).sum + (monthLengths y).getD (m - 1) 0 := by
      conv_lhs => rw [hone]
      rw [List.sum_take_succ _ _ hlt, List.getD_eq_getElem _ _ hlt]
    rw [daysBefore, ih (by omega), if_neg (by simp; omega), monthDays_eq h1 (by omega), Nat.add_sub_cancel, hsum]

theorem dayOfDate_some {y mo d n : Nat} (hy : y ≤ 99) : dayOfDate (2000 + y) mo d = some n ↔
    1 ≤ mo ∧ mo ≤ 12 ∧ 1 ≤ d ∧ d ≤ (monthLengths y).getD (mo - 1) 0 ∧
      n = 365 * y + (y + 3) / 4 + ((monthLengths y).take (mo - 1)).sum + (d - 1) := by
  unfold dayOfDate
  by_cases hmo : 1 ≤ mo ∧ mo ≤ 12
  · rw [monthDays_eq hmo.1 hmo.2, daysBefore_eq hmo.1 hmo.2]
    have hn : (2000 + y - 2000) * 365 + (2000 + y - 1997) / 4 = 365 * y + (y + 3) / 4 := by omega
    rw [hn]
    simp only [Bool.and_eq_true, decide_eq_true_eq, Option.ite_none_right_eq_some, Option.some.injEq]
    constructor
    · rintro ⟨⟨⟨-, hd⟩, hle⟩, rfl⟩
      exact ⟨hmo.1, hmo.2, hd, hle, rfl⟩
    · rintro ⟨-, -, hd, hle, rfl⟩
      exact ⟨⟨⟨⟨⟨⟨by omega, by omega⟩, hmo.1⟩, hmo.2⟩, hd⟩, hle⟩, rfl⟩
  · rw [if_neg]
    · exact ⟨(nomatch ·), fun h => absurd ⟨h.1, h.2.1⟩ hmo⟩
    · simp only [Bool.and_eq_true, decide_eq_true_eq]
      rintro ⟨⟨⟨⟨-, h1⟩, h12⟩, -⟩, -⟩
      exact hmo ⟨h1, h12⟩

theorem telegramSeconds_iff (bytes : List Byte) (a : Nat) : telegramSeconds bytes = some a ↔ telegramLaw bytes a := by
  unfold telegramSeconds telegramLaw
  constructor
  · intro h
    split at h
    · next y mo d hr mi sc check hb =>
      split at h
      · next hc =>
        simp only [Bool.and_eq_true, beq_iff_eq, decide_eq_true_eq] at hc
        obtain ⟨⟨⟨⟨hsum, hy⟩, hh⟩, hmi⟩, hs⟩ := hc
        obtain ⟨n, hn, rfl⟩ := Option.map_eq_some_iff.mp h
        obtain ⟨h1, h12, hd1, hd, rfl⟩ := (dayOfDate_some hy).mp hn
        exact ⟨y, mo, d, hr, mi, sc, check, hb, hsum, hy, h1, h12, hd1, hd, hh, hmi, hs, rfl⟩
      · cases h
    · cases h
  · rintro ⟨y, mo, d, hr, mi, sc, check, hb, hsum, hy, h1, h12, hd1, hd, hh, hmi, hs, rfl⟩
    rw [hb]
    dsimp only
    rw [if_pos (by simp only [Bool.and_eq_true, beq_iff_eq, decide_eq_true_eq]; exact ⟨⟨⟨⟨hsum, hy⟩, hh⟩, hmi⟩, hs⟩),
      (dayOfDate_some hy).mpr ⟨h1, h12, hd1, hd, rfl⟩]
    rfl

theorem Part.inStep_iff (p : Part) (a : Nat) : p.inStep a = true ↔ ∃ v, p.time.lastValid = some v ∧ v.arrival + 980 ≤ p.elapsed ∧
    p.elapsed ≤ v.arrival + 1020 ∧ a = v.announced + 1 := by
  unfold Part.inStep
  cases h : p.time.lastValid with
  | none => simp
  | some v => simp [and_assoc]

/-! ## The seconds owed (R1, R2) -/

/-- One of the repetitions that end the seconds owed. -/
def Part.secondIfOver (q : Part) : Part := if q.time.secondLength ≤ q.time.sourceMs then q.stationSecond else q

theorem Part.owedSeconds_eq (p : Part) : p.owedSeconds = times (p.time.sourceMs / 990 + 1) Part.secondIfOver p := rfl

/-- A second that is over leaves the source time beyond it, and a next second of at least 990 ms. -/
theorem Part.stationSecond_over {p : Part} (h : p.time.secondLength ≤ p.time.sourceMs) :
    p.stationSecond.time.sourceMs = p.time.sourceMs - p.time.secondLength ∧ 990 ≤ p.stationSecond.time.secondLength := by
  have htime := p.stationSecond_time
  have hms : p.secondBegun.time.sourceMs = p.time.sourceMs - p.time.secondLength := by
    show p.time.sourceMs + (max p.elapsed (p.elapsed + (p.time.secondLength - p.time.sourceMs)) - p.elapsed) - p.time.secondLength = _
    omega
  have hlength (c : Option Int) : 990 ≤ slewedLength c := by
    unfold slewedLength
    split
    · omega
    · split <;> omega
  refine ⟨(congrArg Timebase.sourceMs htime :).trans hms, ?_⟩
  rw [show p.stationSecond.time.secondLength = p.secondBegun.time.secondLength from (congrArg Timebase.secondLength htime :)]
  exact hlength _

/-- Further repetitions change nothing. -/
theorem Part.times_secondIfOver {p : Part} (hl : 990 ≤ p.time.secondLength) {m n : Nat} (hm : p.time.sourceMs / 990 ≤ m)
    (hn : p.time.sourceMs / 990 ≤ n) : times m Part.secondIfOver p = times n Part.secondIfOver p := by
  induction m generalizing p n with
  | zero =>
    have hfix : p.secondIfOver = p := if_neg (by omega)
    exact (times_fixed n _ p hfix).symm
  | succ m ih =>
    by_cases hover : p.time.secondLength ≤ p.time.sourceMs
    · obtain ⟨hms, hlen⟩ := Part.stationSecond_over hover
      obtain ⟨n, rfl⟩ : ∃ k, n = k + 1 := ⟨n - 1, by omega⟩
      have hone : p.secondIfOver = p.stationSecond := if_pos hover
      rw [times, times, hone]
      exact ih hlen (by omega) (by omega)
    · have hfix : p.secondIfOver = p := if_neg hover
      rw [times_fixed _ _ p hfix, times_fixed _ _ p hfix]

theorem Part.owedSeconds_of_over {p : Part} (h : p.time.secondLength ≤ p.time.sourceMs) :
    p.owedSeconds = p.stationSecond.owedSeconds := by
  obtain ⟨hms, hlen⟩ := Part.stationSecond_over h
  have hone : p.secondIfOver = p.stationSecond := if_pos h
  rw [Part.owedSeconds_eq, times, hone, Part.owedSeconds_eq]
  exact Part.times_secondIfOver hlen (by omega) (by omega)

/-- The Timebase but for what the running of station time moves. -/
def Timebase.beyondRun (t : Timebase) : Timebase :=
  { t with day := 0, second := 0, sourceMs := 0, secondLength := 0, slew := none, valid := false, serviceDay := none }

theorem Part.stationSecond_beyondRun (p : Part) : p.stationSecond.time.beyondRun = p.time.beyondRun := by
  have htick : p.secondBegun.time.beyondRun = p.time.beyondRun := by
    have h := ((p.advanceTo (p.elapsed + (p.time.secondLength - p.time.sourceMs))).time).tick_frame
    exact (congrArg Timebase.beyondRun h :)
  exact (congrArg Timebase.beyondRun p.stationSecond_time :).trans htick

theorem Part.owedSeconds_beyondRun (p : Part) : p.owedSeconds.time.beyondRun = p.time.beyondRun :=
  p.owedSeconds_all (fun q => q.time.beyondRun = p.time.beyondRun) (fun q h => q.stationSecond_beyondRun.trans h) rfl

/-! ## A telegram (R5, R6) -/

/-- The part at the end of a telegram's gap. -/
def Part.telegramOver (p : Part) : Part := (p.owedSeconds.advanceTo (p.elapsed + 21)).owedSeconds

/-- The offset of a telegram that announces `a` now. -/
def Part.telegramOffset (p : Part) (a : Nat) : Int := (a : Int) * 1000 - p.owedSeconds.time.instant

/-- The Timebase at the end of the gap, with the telegram as the last valid one. -/
def Part.telegramSeen (p : Part) (a : Nat) : Timebase :=
  { p.telegramOver.time with lastValid := some { arrival := p.elapsed, announced := a }, lastOffset := some (p.telegramOffset a) }

theorem Part.owedSeconds_elapsed (p : Part) : p.owedSeconds.elapsed = p.elapsed := p.moves_owedSeconds.fields.2.1

theorem Part.telegram_invalid {bytes : List Byte} (h : telegramSeconds bytes = none) (p : Part) : p.telegram bytes = p.telegramOver := by
  unfold Part.telegram Part.telegramOver
  rw [h]
  dsimp only
  rw [p.owedSeconds_elapsed]
  rfl

theorem Part.owedSeconds_inStep (p : Part) (a : Nat) : p.owedSeconds.inStep a = p.inStep a := by
  have hlast : p.owedSeconds.time.lastValid = p.time.lastValid := (congrArg Timebase.lastValid p.owedSeconds_beyondRun :)
  unfold Part.inStep
  rw [hlast, p.owedSeconds_elapsed]

theorem Part.telegram_valid {bytes : List Byte} {a : Nat} (h : telegramSeconds bytes = some a) {p : Part}
    (hlapse : p.referenceLapse = p) : p.telegram bytes =
      (({ p.telegramOver.begin with time := p.telegramSeen a } : Part).refAdvance (p.inStep a) a (p.telegramOffset a)).finish := by
  unfold Part.telegram
  rw [h]
  dsimp only
  rw [hlapse, p.owedSeconds_elapsed, p.owedSeconds_inStep]
  rfl

/-- The running of time and the gap leave the reference and what it last saw. -/
theorem Part.telegramOver_beyondRun (p : Part) : p.telegramOver.time.beyondRun = p.time.beyondRun :=
  (Part.owedSeconds_beyondRun _).trans ((show _ = p.owedSeconds.time.beyondRun from rfl).trans p.owedSeconds_beyondRun)

theorem Part.telegramOver_ref (p : Part) : p.telegramOver.time.ref = p.time.ref := (congrArg Timebase.ref p.telegramOver_beyondRun :)

theorem Part.referenceLapse_of_unlocked {p : Part} (h : ∀ n run, p.time.ref ≠ .locked n run) : p.referenceLapse = p := by
  unfold Part.referenceLapse
  split
  · next n run _ hr _ => exact absurd hr (h n run)
  · rfl

/-- A telegram that finds the reference in a state it leaves for another, with no correction. -/
theorem Part.telegram_moves {bytes : List Byte} {a : Nat} (h : telegramSeconds bytes = some a) {p : Part}
    (hlapse : p.referenceLapse = p) {r : RefState}
    (hadvance : ∀ q : Part, q.time.ref = p.time.ref → q.refAdvance (p.inStep a) a (p.telegramOffset a) =
      q.modTime fun t => { t with ref := r }) :
    p.telegram bytes = ({ p.telegramOver with time := { p.telegramSeen a with ref := r } } : Part).ended false := by
  have hq := hadvance { p.telegramOver.begin with time := p.telegramSeen a } p.telegramOver_ref
  have hlike (q : Part) (t : Timebase) : ({ q.begin with time := t } : Part).Like { q with time := t } := ⟨_, rfl⟩
  rw [Part.telegram_valid h hlapse, hq]
  exact (hlike p.telegramOver { p.telegramSeen a with ref := r }).finish rfl

/-! ## The timeouts of the reference (R7) -/

theorem Part.enterHoldover_locked {p : Part} {n : Nat} {run : List Int} (h : p.time.ref = .locked n run) : p.enterHoldover =
    ({ p with time := { p.time with
      ref := .holdover p.elapsed, glitches := min 65535 (p.time.glitches + run.length) } } : Part).latchNat .timeLockChanged 3 := by
  have hrun : p.time.discardRun = { p.time with ref := .locked n [], glitches := min 65535 (p.time.glitches + run.length) } := by
    unfold Timebase.discardRun
    rw [h]
    rfl
  unfold Part.enterHoldover Part.modTime
  dsimp only
  rw [hrun]

theorem Part.referenceTimeout_locked {p : Part} {n : Nat} {run : List Int} {v : ValidTelegram} (hr : p.time.ref = .locked n run)
    (hv : p.time.lastValid = some v) :
    let q := p.advanceTo (v.arrival + 3000)
    p.referenceTimeout = ({ q with time := { q.time with
      ref := .holdover q.elapsed, glitches := min 65535 (q.time.glitches + run.length) } } : Part).latchNat .timeLockChanged 3 := by
  intro q
  unfold Part.referenceTimeout
  rw [hr, hv]
  exact Part.enterHoldover_locked (p := q) hr

/-- A telegram that comes after the 3 s finds what the timeout leaves. -/
theorem Part.telegram_lapsed {bytes : List Byte} {a : Nat} (h : telegramSeconds bytes = some a) {p : Part} {n : Nat} {run : List Int}
    {v : ValidTelegram} (hr : p.time.ref = .locked n run) (hv : p.time.lastValid = some v) (hlate : v.arrival + 3000 < p.elapsed) :
    p.telegram bytes = p.referenceTimeout.telegram bytes := by
  have hlapse : p.referenceLapse = p.referenceTimeout := by
    rw [Part.referenceLapse, hr, hv]
    exact if_pos hlate
  have hagain : p.referenceTimeout.referenceLapse = p.referenceTimeout := by
    refine Part.referenceLapse_of_unlocked fun n run => ?_
    rw [Part.referenceTimeout_locked hr hv]
    exact nofun
  unfold Part.telegram
  rw [h]
  dsimp only
  rw [hagain, hlapse]

/-- Settles O26: the bytes, the interval, the run, the seconds owed, and the timeouts. -/
theorem telegramsQualifyAndReferenceTimersExpire : Obligations.TelegramsQualifyAndReferenceTimersExpire := by
  unfold Obligations.TelegramsQualifyAndReferenceTimersExpire
  refine ⟨telegramSeconds_iff, Part.inStep_iff, fun s bytes hp => ?telegrams, fun s hp => ⟨Part.owedSeconds_of_lt _, fun h => ?owed⟩,
    fun s hp => ⟨fun n run v hr hv => ?timeout, fun since hr => ?expiry⟩⟩
  case telegrams =>
    have hleaves {q : Part} (h : s.part.telegram bytes = q) : Leaves (.referenceTelegram bytes) s q :=
      leaves_act (·.telegram bytes) rfl hp h
    intro ended
    refine ⟨fun h => hleaves (Part.telegram_invalid h s.part), fun a h => ?_⟩
    have hunlocked {r : RefState} (hr : s.part.time.ref = r) (hno : ∀ n run, r ≠ .locked n run) : s.part.referenceLapse = s.part :=
      Part.referenceLapse_of_unlocked (hr ▸ hno)
    intro seen after
    refine ⟨fun hr => hleaves (Part.telegram_moves h (hunlocked hr nofun) fun q hq => ?_),
      fun t hr => hleaves (Part.telegram_moves h (hunlocked hr nofun) fun q hq => ?_),
      fun n hr hstep => hleaves (Part.telegram_moves h (hunlocked hr nofun) fun q hq => ?_),
      fun n hr hstep hn => hleaves (Part.telegram_moves h (hunlocked hr nofun) fun q hq => ?_),
      fun n run v u hr hv hlate hu => ?_⟩
    · rw [Part.refAdvance, hq, hr]
    · rw [Part.refAdvance, hq, hr]
    · rw [Part.refAdvance, hq, hr, hstep]
      rfl
    · rw [Part.refAdvance, hq, hr, hstep]
      exact if_pos hn
    · have hu' : s.part.referenceTimeout = u := hu.part_eq (·.referenceTimeout) rfl hp
      have hup : u.powered = true := by
        rw [← hu', Part.referenceTimeout_locked hr hv]
        exact hp
      show act (fun p => p.telegram bytes) s = act (fun p => p.telegram bytes) { s with part := u }
      rw [act_powered _ _ hp, act_powered _ _ hup, Part.telegram_lapsed h hr hv hlate, hu']
  case owed =>
    exact ⟨_, leaves_act (·.stationSecond) rfl hp rfl, Part.owedSeconds_of_over h⟩
  case timeout => exact leaves_act (·.referenceTimeout) rfl hp (Part.referenceTimeout_locked hr hv)
  case expiry =>
    refine leaves_act (·.holdoverExpiry) rfl hp ?_
    show s.part.holdoverExpiry = _
    rw [Part.holdoverExpiry, hr]
    rfl

end Sys2Proof.Machine
end

section
/-! Telegrams while the reference locks or is locked (O27). -/

namespace Sys2Proof.Machine

/-! ## Station time runs the same whatever the reference is -/

/-- The Timebase after a station second that is over (R1, R16). -/
def Timebase.next (t : Timebase) : Timebase :=
  if t.rangeEnds then { t.tick with valid := false, serviceDay := none }
  else if t.valid then
    { t.tick with serviceDay :=
        if (match t.tick.serviceSeconds with | some s => decide (86400 ≤ s) | none => false) then t.tick.serviceDay.map (· + 1)
        else t.tick.serviceDay }
  else t.tick

theorem Part.stationSecond_next {p : Part} (h : p.time.secondLength ≤ p.time.sourceMs) : p.stationSecond.time = p.time.next := by
  have htick : p.secondBegun.time = p.time.tick := by
    have hms : (p.advanceTo (p.elapsed + (p.time.secondLength - p.time.sourceMs))).time = p.time := by
      have : p.time.sourceMs + (max p.elapsed (p.elapsed + (p.time.secondLength - p.time.sourceMs)) - p.elapsed) = p.time.sourceMs := by
        omega
      exact congrArg (fun n => ({ p.time with sourceMs := n } : Timebase)) this
    exact congrArg Timebase.tick hms
  have hover : p.secondBegun.serviceDayOver =
      (match p.time.tick.serviceSeconds with | some s => decide (86400 ≤ s) | none => false) := by
    unfold Part.serviceDayOver
    rw [htick] <;> rfl
  unfold Timebase.next
  cases hends : p.time.rangeEnds with
  | true => rw [(Part.stationSecond_last hends (.refl _)).2, htick, if_pos rfl]
  | false =>
    rw [if_neg Bool.false_ne_true]
    cases hv : p.time.valid with
    | false => rw [(Part.stationSecond_invalid hends (.refl _) (by rw [htick]; exact hv)).2, htick, if_neg Bool.false_ne_true]
    | true => rw [(Part.stationSecond_valid hends (.refl _) (by rw [htick]; exact hv)).2.1, Part.rolled_time, hover, htick, if_pos rfl]

/-- The Timebase after the seconds owed. -/
def Timebase.owed (t : Timebase) : Timebase :=
  times (t.sourceMs / 990 + 1) (fun t => if t.secondLength ≤ t.sourceMs then t.next else t) t

theorem Part.owedSeconds_time (p : Part) : p.owedSeconds.time = p.time.owed := by
  have h (n : Nat) : ∀ p : Part, (times n Part.secondIfOver p).time =
      times n (fun t => if t.secondLength ≤ t.sourceMs then t.next else t) p.time := by
    induction n with
    | zero => intro p; rfl
    | succ n ih =>
      intro p
      rw [times, times, ih]
      congr 1
      unfold Part.secondIfOver
      split
      · next hover => exact Part.stationSecond_next hover
      · rfl
  exact h _ p

/-- The Timebase with another reference state and glitch count. -/
def Timebase.withRef (t : Timebase) (r : RefState) (g : Nat) : Timebase := { t with ref := r, glitches := g }

theorem Timebase.owed_withRef (t : Timebase) (r : RefState) (g : Nat) : (t.withRef r g).owed = t.owed.withRef r g := by
  have hnext (t : Timebase) : (if (t.withRef r g).secondLength ≤ (t.withRef r g).sourceMs then (t.withRef r g).next else t.withRef r g) =
      (if t.secondLength ≤ t.sourceMs then t.next else t).withRef r g := by
    have hmoved : (t.withRef r g).next = t.next.withRef r g := by
      unfold Timebase.next
      have hends : (t.withRef r g).rangeEnds = t.rangeEnds := rfl
      have hvalid : (t.withRef r g).valid = t.valid := rfl
      rw [hends, hvalid]
      split
      · rfl
      · split <;> rfl
    rw [hmoved]
    show (if t.secondLength ≤ t.sourceMs then _ else _) = _
    split <;> rfl
  have h (n : Nat) : ∀ t : Timebase, times n (fun t => if t.secondLength ≤ t.sourceMs then t.next else t) (t.withRef r g) =
      (times n (fun t => if t.secondLength ≤ t.sourceMs then t.next else t) t).withRef r g := by
    induction n with
    | zero => intro t; rfl
    | succ n ih =>
      intro t
      rw [times, times, hnext, ih]
  exact h _ t

/-! ## The part that a telegram is judged in -/

theorem Part.telegramOver_elapsed (p : Part) : p.telegramOver.elapsed = p.elapsed + 21 := by
  rw [Part.telegramOver, Part.owedSeconds_elapsed]
  show max p.owedSeconds.elapsed (p.elapsed + 21) = _
  rw [Part.owedSeconds_elapsed]
  omega

theorem Part.telegramOver_subjects (p : Part) (l : Link) :
    (p.telegramOver.port l).subjects.length = (p.port l).subjects.length := by
  have hcarry : ((p.owedSeconds.advanceTo (p.elapsed + 21)).port l).subjects = (p.owedSeconds.port l).subjects := by
    rw [Part.advanceTo_port, Port.carry_frame]
  exact ((Part.moves_owedSeconds _).length l).trans ((congrArg List.length hcarry).trans (p.moves_owedSeconds.length l))

/-! ## The offset of a locked telegram (R10) -/

section
variable {q : Part} {n a : Nat} {run : List Int} {offset : Int}

theorem Part.lockedOffset_invalid (h : q.time.valid = false) : q.lockedOffset n run a offset =
    ({ q with time := { q.time with ref := .locked n [] } } : Part).stepTime a 21 := by
  refine if_pos ?_
  rw [h]
  rfl

variable (hvalid : q.time.valid = true)
include hvalid

theorem Part.lockedOffset_small (hr : q.time.ref = .locked n run) (h : offset.natAbs ≤ 2000) : q.lockedOffset n run a offset =
    { q with time := { q.time with ref := .locked n [], glitches := min 65535 (q.time.glitches + run.length)
                                   slew := if offset.natAbs ≤ 10 then none else some offset } } := by
  have hrun : q.time.discardRun = { q.time with ref := .locked n [], glitches := min 65535 (q.time.glitches + run.length) } := by
    unfold Timebase.discardRun
    rw [hr]
    rfl
  unfold Part.lockedOffset Part.modTime
  rw [if_neg (by rw [hvalid]; exact Bool.false_ne_true), if_pos h]
  dsimp only
  rw [hrun]
  rfl

/-- A large offset whose run does not become three. -/
theorem Part.lockedOffset_kept (h : 2000 < offset.natAbs) {t : Timebase} (hjoin : q.time.joinRun n run offset = t) {m : Nat}
    {l : List Int} (hr : t.ref = .locked m l) (hl : l.length ≠ 3) : q.lockedOffset n run a offset = { q with time := t } := by
  unfold Part.lockedOffset Part.modTime
  rw [if_neg (by rw [hvalid]; exact Bool.false_ne_true), if_neg (Nat.not_le.mpr h)]
  dsimp only
  rw [hjoin, hr]
  match l, hl with
  | [], _ => rfl
  | [_], _ => rfl
  | [_, _], _ => rfl
  | _ :: _ :: _ :: _ :: _, _ => rfl

/-- The third large offset of a run. -/
theorem Part.lockedOffset_third (h : 2000 < offset.natAbs) {t : Timebase} (hjoin : q.time.joinRun n run offset = t) {m : Nat}
    {x y z : Int} (hr : t.ref = .locked m [x, y, z]) : q.lockedOffset n run a offset =
      ({ q with time := { t with ref := .locked m [] } } : Part).stepTime a 21 := by
  unfold Part.lockedOffset Part.modTime
  rw [if_neg (by rw [hvalid]; exact Bool.false_ne_true), if_neg (Nat.not_le.mpr h)]
  dsimp only
  rw [hjoin, hr]
  rfl

omit hvalid in
theorem Timebase.joinRun_agrees {t : Timebase} (hagree : ∀ o ∈ run, (o - offset).natAbs ≤ 1000) :
    t.joinRun n run offset = { t with ref := .locked n (run ++ [offset]) } :=
  if_pos (List.all_eq_true.mpr fun o ho => decide_eq_true (hagree o ho))

theorem Part.lockedOffset_joins (h : 2000 < offset.natAbs) (hagree : ∀ o ∈ run, (o - offset).natAbs ≤ 1000) (hlen : run.length < 2) :
    q.lockedOffset n run a offset = { q with time := { q.time with ref := .locked n (run ++ [offset]) } } :=
  lockedOffset_kept hvalid h (Timebase.joinRun_agrees hagree) rfl (by rw [List.length_append, List.length_singleton]; omega)

theorem Part.lockedOffset_steps (h : 2000 < offset.natAbs) (hagree : ∀ o ∈ run, (o - offset).natAbs ≤ 1000) (hlen : run.length = 2) :
    q.lockedOffset n run a offset = ({ q with time := { q.time with ref := .locked n [] } } : Part).stepTime a 21 := by
  obtain ⟨x, y, rfl⟩ := List.length_eq_two.mp hlen
  exact lockedOffset_third hvalid h (Timebase.joinRun_agrees hagree) rfl

theorem Part.lockedOffset_parts (h : 2000 < offset.natAbs) (hagree : ¬∀ o ∈ run, (o - offset).natAbs ≤ 1000) :
    q.lockedOffset n run a offset = { q with time := { q.time with
      ref := .locked n [offset], glitches := min 65535 (q.time.glitches + run.length) } } := by
  have hjoin : q.time.joinRun n run offset = { q.time with
      ref := .locked n [offset], glitches := min 65535 (q.time.glitches + run.length) } := by
    refine if_neg fun hall => hagree fun o ho => ?_
    exact of_decide_eq_true (List.all_eq_true.mp hall o ho)
  exact lockedOffset_kept hvalid h hjoin rfl (by simp)

end

/-! ## The out-of-step count, and the end of the event (R7) -/

/-- What the end of a locked telegram leaves, the offset having left `x` with the run `kept`. -/
theorem Part.countStep_law {x : Part} {n : Nat} {kept : List Int} (hr : x.time.ref = .locked n kept) (ok : Bool) :
    let p := (x.countStep ok).finish
    (ok = true → p.time.ref = .locked 0 kept ∧ p.time.glitches = x.time.glitches) ∧
    (ok = false → n < 4 → p.time.ref = .locked (n + 1) kept ∧ p.time.glitches = x.time.glitches) ∧
    (ok = false → 4 ≤ n → p.time.ref = .holdover x.elapsed ∧ p.time.glitches = min 65535 (x.time.glitches + kept.length) ∧
      ∀ l, (p.port l).isLatched .timeLockChanged = true ∧
        ((x.port l).subjects.length = 29 → (p.port l).subject .timeLockChanged = 3)) ∧
    p.time = { x.time with ref := p.time.ref, glitches := p.time.glitches } ∧ x.Moves p := by
  intro p
  have hp : p.time = (x.countStep ok).time := Part.finish_time _
  rw [hp]
  have hmoves : (x.countStep ok).Moves p := Part.moves_finish _
  by_cases hok : ok = true
  · have hc : x.countStep ok = x.modTime fun t => { t with ref := .locked 0 kept } := by
      rw [Part.countStep, hr]
      exact if_pos hok
    rw [hc] at hmoves ⊢
    exact ⟨fun _ => ⟨rfl, rfl⟩, fun h => absurd (hok.symm.trans h) Bool.noConfusion,
      fun h => absurd (hok.symm.trans h) Bool.noConfusion, rfl, (x.moves_modTime _).trans hmoves⟩
  · by_cases hn : 4 ≤ n
    · have hc : x.countStep ok = x.enterHoldover := by
        rw [Part.countStep, hr]
        exact (if_neg hok).trans (if_pos hn)
      have hport (l : Link) : ((x.countStep ok).port l).Latches (· = .cueFailed) (p.port l) := (x.countStep ok).finish_port l
      rw [hc, Part.enterHoldover_locked hr] at hmoves hport ⊢
      refine ⟨fun h => absurd h hok, fun _ h => absurd hn (Nat.not_le.mpr h), fun _ _ => ⟨rfl, rfl, fun l => ?_⟩, rfl, ?_⟩
      · obtain ⟨hk, hs⟩ := (hport l).other .timeLockChanged (by decide)
        rw [Part.latchNat, Part.latch_port] at hk hs
        have hlength (t : Timebase) : (({ x with time := t } : Part).port l).subjects.length = (x.port l).subjects.length := by
          cases l <;> rfl
        exact ⟨hk.trans (Port.latch_isLatched_same _ _ _),
          fun hlen => hs.trans (Port.latch_subject_same _ _ _ ((hlength _).trans hlen))⟩
      · refine Part.Moves.trans ?_ hmoves
        exact (x.moves_modTime fun _ => _).trans (Part.moves_latch _ _ _)
    · have hc : x.countStep ok = x.modTime fun t => { t with ref := .locked (n + 1) kept } := by
        rw [Part.countStep, hr]
        exact (if_neg hok).trans (if_neg hn)
      rw [hc] at hmoves ⊢
      exact ⟨fun h => absurd h hok, fun _ _ => ⟨rfl, rfl⟩, fun _ h => absurd h hn, rfl, (x.moves_modTime _).trans hmoves⟩

/-! ## What a valid telegram leaves, in any state of the reference -/

/-- The telegram that is seen stays, and other blocks stay. -/
theorem Part.stepTime_seen (p : Part) (secs ms : Nat) : (p.stepTime secs ms).time.lastValid = p.time.lastValid ∧
    (p.stepTime secs ms).time.lastOffset = p.time.lastOffset ∧ (p.stepTime secs ms).time.ref = p.time.ref ∧
    (p.stepTime secs ms).time.glitches = p.time.glitches := by
  have hset : ∀ t : Timebase, (t.setTo secs ms).lastValid = t.lastValid ∧ (t.setTo secs ms).lastOffset = t.lastOffset ∧
      (t.setTo secs ms).ref = t.ref ∧ (t.setTo secs ms).glitches = t.glitches := by
    intro t
    unfold Timebase.setTo
    dsimp only
    split <;> exact ⟨rfl, rfl, rfl, rfl⟩
  rw [Part.stepTime_time]
  exact hset p.time

/-- A part whose step to the second `a` ends 21 ms after it. -/
theorem Part.stepTime_shown (p : Part) (a : Nat) : (p.stepTime a 21).time.day = a / 86400 ∧ (p.stepTime a 21).time.second = a % 86400 ∧
    (p.stepTime a 21).time.sourceMs = 21 ∧ (p.stepTime a 21).time.valid = true ∧ (p.stepTime a 21).time.slew = none := by
  have hset : ∀ t : Timebase, (t.setTo a 21).day = a / 86400 ∧ (t.setTo a 21).second = a % 86400 ∧
      (t.setTo a 21).sourceMs = 21 ∧ (t.setTo a 21).valid = true ∧ (t.setTo a 21).slew = none := by
    intro t
    unfold Timebase.setTo
    dsimp only
    split <;> exact ⟨rfl, rfl, rfl, rfl, rfl⟩
  rw [Part.stepTime_time]
  exact hset p.time

/-- What keeps the telegram that was seen. -/
structure Part.Sees (p q : Part) : Prop where
  moves : p.Moves q
  lastValid : q.time.lastValid = p.time.lastValid
  lastOffset : q.time.lastOffset = p.time.lastOffset

theorem Part.Sees.refl (p : Part) : p.Sees p := ⟨.refl p, rfl, rfl⟩

theorem Part.Sees.trans {p q r : Part} (h : p.Sees q) (h' : q.Sees r) : p.Sees r :=
  ⟨h.moves.trans h'.moves, h'.lastValid.trans h.lastValid, h'.lastOffset.trans h.lastOffset⟩

theorem Part.sees_modTime (p : Part) {f : Timebase → Timebase} (hv : (f p.time).lastValid = p.time.lastValid)
    (ho : (f p.time).lastOffset = p.time.lastOffset) : p.Sees (p.modTime f) := ⟨p.moves_modTime f, hv, ho⟩

theorem Part.sees_stepTime (p : Part) (secs ms : Nat) : p.Sees (p.stepTime secs ms) :=
  ⟨p.moves_stepTime secs ms, (p.stepTime_seen secs ms).1, (p.stepTime_seen secs ms).2.1⟩

theorem Part.sees_latchNat (p : Part) (k : EventKind) (n : Nat) : p.Sees (p.latchNat k n) := ⟨p.moves_latch _ _, rfl, rfl⟩

theorem Part.sees_finish (p : Part) : p.Sees p.finish :=
  ⟨p.moves_finish, by rw [Part.finish_time], by rw [Part.finish_time]⟩

theorem Part.sees_correct (p : Part) (a : Nat) (offset : Int) : p.Sees (p.correct a offset) := by
  unfold Part.correct
  split
  · exact p.sees_stepTime _ _
  · split
    · exact p.sees_modTime rfl rfl
    · exact p.sees_stepTime _ _

theorem Timebase.discardRun_seen (t : Timebase) :
    t.discardRun.lastValid = t.lastValid ∧ t.discardRun.lastOffset = t.lastOffset := by
  rw [t.discardRun_eq]
  exact ⟨rfl, rfl⟩

theorem Timebase.joinRun_seen (t : Timebase) (n : Nat) (run : List Int) (offset : Int) :
    (t.joinRun n run offset).lastValid = t.lastValid ∧ (t.joinRun n run offset).lastOffset = t.lastOffset := by
  unfold Timebase.joinRun
  split <;> exact ⟨rfl, rfl⟩

theorem Part.sees_lockedOffset (p : Part) (n : Nat) (run : List Int) (a : Nat) (offset : Int) :
    p.Sees (p.lockedOffset n run a offset) := by
  unfold Part.lockedOffset
  split
  · exact (p.sees_modTime (f := fun t => { t with ref := .locked n [] }) rfl rfl).trans (Part.sees_stepTime _ _ _)
  · split
    · exact p.sees_modTime (f := fun t => t.discardRun.startSlew offset) p.time.discardRun_seen.1 p.time.discardRun_seen.2
    · have hjoin : p.Sees (p.modTime fun t => t.joinRun n run offset) :=
        p.sees_modTime (p.time.joinRun_seen n run offset).1 (p.time.joinRun_seen n run offset).2
      dsimp only
      generalize (p.modTime fun t => t.joinRun n run offset) = x at hjoin ⊢
      split
      · next m _ _ _ _ =>
        have hempty := x.sees_modTime (f := fun t => { t with ref := .locked m [] }) rfl rfl
        exact (hjoin.trans hempty).trans (Part.sees_stepTime _ _ _)
      · exact hjoin

theorem Part.sees_countStep (p : Part) (ok : Bool) : p.Sees (p.countStep ok) := by
  unfold Part.countStep
  split
  · split
    · exact p.sees_modTime rfl rfl
    · split
      · exact (p.sees_modTime (f := fun t => { t.discardRun with ref := .holdover p.elapsed }) p.time.discardRun_seen.1
          p.time.discardRun_seen.2).trans (Part.sees_latchNat _ _ _)
      · exact p.sees_modTime rfl rfl
  · exact .refl p

theorem Part.sees_refAdvance (p : Part) (ok : Bool) (a : Nat) (offset : Int) : p.Sees (p.refAdvance ok a offset) := by
  unfold Part.refAdvance
  split
  · exact p.sees_modTime rfl rfl
  · exact p.sees_modTime rfl rfl
  · split
    · exact p.sees_modTime rfl rfl
    · split
      · exact p.sees_modTime rfl rfl
      · exact ((p.sees_modTime (f := fun t => { t with ref := .locked 0 [] }) rfl rfl).trans (Part.sees_correct _ _ _)).trans
          (Part.sees_latchNat _ _ _)
  · exact (p.sees_lockedOffset _ _ _ _).trans (Part.sees_countStep _ _)

end Sys2Proof.Machine
end

section
/-! Settling O27: what a valid telegram leaves, from the run that locks and from LOCKED. -/

namespace Sys2Proof.Machine

/-- The part that a valid telegram acts on: the end of its gap, with the telegram seen. -/
def Part.telegramPart (p : Part) (a : Nat) : Part := { p.telegramOver.begin with time := p.telegramSeen a }

theorem Part.telegramPart_subjects (p : Part) (a : Nat) (l : Link) :
    ((p.telegramPart a).port l).subjects.length = (p.port l).subjects.length := by
  have h : ((p.telegramPart a).port l) = p.telegramOver.port l := by cases l <;> rfl
  rw [h]
  exact p.telegramOver_subjects l

theorem Part.telegram_eq {bytes : List Byte} {a : Nat} (h : telegramSeconds bytes = some a) {p : Part} (hlapse : p.referenceLapse = p) :
    p.telegram bytes = ((p.telegramPart a).refAdvance (p.inStep a) a (p.telegramOffset a)).finish := Part.telegram_valid h hlapse

/-- Either the timeout of LOCKED has passed, or a telegram finds the part as it is. -/
theorem Part.referenceLapse_found (p : Part) : p.referenceLapse = p ∨
    ∃ n run v, p.time.ref = .locked n run ∧ p.time.lastValid = some v ∧ v.arrival + 3000 < p.elapsed := by
  unfold Part.referenceLapse
  split
  · next n run v hr hv =>
    split
    · next hlate => exact .inr ⟨n, run, v, hr, hv, hlate⟩
    · exact .inl rfl
  · exact .inl rfl

/-- A timeout that has passed moves neither elapsed nor station time. -/
theorem Part.referenceTimeout_late {p : Part} {n : Nat} {run : List Int} {v : ValidTelegram} (hr : p.time.ref = .locked n run)
    (hv : p.time.lastValid = some v) (hlate : v.arrival + 3000 < p.elapsed) :
    p.referenceTimeout.elapsed = p.elapsed ∧ ∃ r g, p.referenceTimeout.time = p.time.withRef r g := by
  have hmax : max p.elapsed (v.arrival + 3000) = p.elapsed := by omega
  have hms : p.time.sourceMs + (max p.elapsed (v.arrival + 3000) - p.elapsed) = p.time.sourceMs := by omega
  rw [Part.referenceTimeout_locked hr hv]
  refine ⟨hmax, .holdover p.elapsed, min 65535 (p.time.glitches + run.length), ?_⟩
  show ({ p.time with sourceMs := p.time.sourceMs + (max p.elapsed (v.arrival + 3000) - p.elapsed)
                      ref := .holdover (max p.elapsed (v.arrival + 3000)), glitches := _ } : Timebase) = _
  rw [hms, hmax]
  rfl

theorem Part.telegram_seen {bytes : List Byte} {a : Nat} (h : telegramSeconds bytes = some a) (p : Part) :
    (p.telegram bytes).time.lastOffset = some (p.telegramOffset a) ∧ (p.telegram bytes).elapsed = p.elapsed + 21 ∧
    (p.telegram bytes).time.lastValid = some { arrival := p.elapsed, announced := a } := by
  have hfound (q : Part) (hlapse : q.referenceLapse = q) : (q.telegram bytes).time.lastOffset = some (q.telegramOffset a) ∧
      (q.telegram bytes).elapsed = q.elapsed + 21 ∧
      (q.telegram bytes).time.lastValid = some { arrival := q.elapsed, announced := a } := by
    have hsees := ((q.telegramPart a).sees_refAdvance (q.inStep a) a (q.telegramOffset a)).trans (Part.sees_finish _)
    rw [Part.telegram_eq h hlapse]
    exact ⟨hsees.lastOffset, hsees.moves.fields.2.1.trans q.telegramOver_elapsed, hsees.lastValid⟩
  rcases p.referenceLapse_found with hlapse | ⟨n, run, v, hr, hv, hlate⟩
  · exact hfound p hlapse
  · obtain ⟨hnow, r, g, htime⟩ := Part.referenceTimeout_late hr hv hlate
    have hagain : p.referenceTimeout.referenceLapse = p.referenceTimeout := by
      refine Part.referenceLapse_of_unlocked fun n run => ?_
      rw [Part.referenceTimeout_locked hr hv]
      exact nofun
    have hoffset : p.referenceTimeout.telegramOffset a = p.telegramOffset a := by
      unfold Part.telegramOffset
      rw [Part.owedSeconds_time, Part.owedSeconds_time, htime, Timebase.owed_withRef]
      rfl
    have hlaw := hfound p.referenceTimeout hagain
    rwa [← Part.telegram_lapsed h hr hv hlate, hoffset, hnow] at hlaw

/-! ## The run that locks the reference (R6, R8) -/

section
variable {bytes : List Byte} {a n : Nat} {p : Part} (h : telegramSeconds bytes = some a)
include h

theorem Part.telegram_locks (hr : p.time.ref = .qualifying n) (hstep : p.inStep a = true) (hn : 4 ≤ n) : p.telegram bytes =
    ((({ p.telegramPart a with time := { p.telegramSeen a with ref := .locked 0 [] } } : Part).correct a (p.telegramOffset a)).latchNat
      .timeLockChanged 2).finish := by
  have hlapse : p.referenceLapse = p := Part.referenceLapse_of_unlocked (hr ▸ nofun)
  have href : (p.telegramPart a).time.ref = .qualifying n := p.telegramOver_ref.trans hr
  rw [Part.telegram_eq h hlapse, Part.refAdvance, href, hstep]
  dsimp only
  rw [if_neg (by decide), if_neg (Nat.not_lt.mpr hn)]
  rfl

end

/-- The correction on entry to LOCKED. -/
theorem Part.correct_law (q : Part) (a : Nat) (offset : Int) :
    (q.time.valid = true → offset.natAbs ≤ 2000 → q.correct a offset =
      { q with time := { q.time with slew := if offset.natAbs ≤ 10 then none else some offset } }) ∧
    (q.time.valid = false ∨ 2000 < offset.natAbs → q.correct a offset = q.stepTime a 21) := by
  unfold Part.correct
  cases hv : q.time.valid with
  | false => exact ⟨fun h => absurd h Bool.noConfusion, fun _ => if_pos rfl⟩
  | true =>
    refine ⟨fun _ h => (if_neg (by decide)).trans (if_pos h), fun h => (if_neg (by decide)).trans (if_neg ?_)⟩
    rcases h with h | h
    · cases h
    · exact Nat.not_le.mpr h

theorem Part.correct_ref (q : Part) (a : Nat) (offset : Int) : (q.correct a offset).time.ref = q.time.ref := by
  unfold Part.correct
  split
  · exact (q.stepTime_seen _ _).2.2.1
  · split
    · rfl
    · exact (q.stepTime_seen _ _).2.2.1

/-! ## A telegram while LOCKED (R7, R10) -/

theorem Part.telegram_locked {bytes : List Byte} {a n : Nat} {run : List Int} {p : Part} (h : telegramSeconds bytes = some a)
    (hr : p.time.ref = .locked n run) (hintime : ∀ v, p.time.lastValid = some v → p.elapsed ≤ v.arrival + 3000) : p.telegram bytes =
      (((p.telegramPart a).lockedOffset n run a (p.telegramOffset a)).countStep (p.inStep a)).finish := by
  have hlapse : p.referenceLapse = p := by
    rcases p.referenceLapse_found with hlapse | ⟨_, _, v, _, hv, hlate⟩
    · exact hlapse
    · exact absurd hlate (Nat.not_lt.mpr (hintime v hv))
  have href : (p.telegramPart a).time.ref = .locked n run := p.telegramOver_ref.trans hr
  rw [Part.telegram_eq h hlapse, Part.refAdvance, href]

/-- What a locked telegram leaves of the run, when its offset has left `kept` and the glitch count `g`. -/
def Part.leavesRun (s p : Part) (a n : Nat) (kept : List Int) (g : Nat) : Prop :=
  (s.inStep a = true → p.time.ref = .locked 0 kept ∧ p.time.glitches = g) ∧
  (s.inStep a = false → n < 4 → p.time.ref = .locked (n + 1) kept ∧ p.time.glitches = g) ∧
  (s.inStep a = false → 4 ≤ n → p.time.ref = .holdover (s.elapsed + 21) ∧ p.time.glitches = min 65535 (g + kept.length) ∧
    ∀ l, (p.port l).isLatched .timeLockChanged = true ∧
      ((s.port l).subjects.length = 29 → (p.port l).subject .timeLockChanged = 3))

/-- The offset of a locked telegram has left the part `x` with the run `kept`. -/
structure Part.OffsetLeft (s p x : Part) (a n : Nat) (kept : List Int) (g : Nat) : Prop where
  run : s.leavesRun p a n kept g
  time : p.time = { x.time with ref := p.time.ref, glitches := p.time.glitches }
  moves : x.Moves p

theorem Part.offsetLeft {bytes : List Byte} {a n : Nat} {run : List Int} {s x : Part} (h : telegramSeconds bytes = some a)
    (hr : s.time.ref = .locked n run) (hintime : ∀ v, s.time.lastValid = some v → s.elapsed ≤ v.arrival + 3000)
    (hx : (s.telegramPart a).lockedOffset n run a (s.telegramOffset a) = x) {kept : List Int} {g : Nat}
    (hkept : x.time.ref = .locked n kept) (hg : x.time.glitches = g) : s.OffsetLeft (s.telegram bytes) x a n kept g := by
  have hmoves := ((s.telegramPart a).sees_lockedOffset n run a (s.telegramOffset a)).moves
  rw [hx] at hmoves
  have hnow : x.elapsed = s.elapsed + 21 := hmoves.fields.2.1.trans s.telegramOver_elapsed
  have hlength (l : Link) : (x.port l).subjects.length = (s.port l).subjects.length :=
    (hmoves.length l).trans (s.telegramPart_subjects a l)
  obtain ⟨hok, hfew, hmany, htime, hlast⟩ := Part.countStep_law hkept (s.inStep a)
  rw [Part.telegram_locked h hr hintime, hx]
  rw [hg, hnow] at hmany
  rw [hg] at hok hfew
  exact ⟨⟨hok, hfew, fun hs hn => ⟨(hmany hs hn).1, (hmany hs hn).2.1, fun l => ⟨((hmany hs hn).2.2 l).1,
    fun hl => ((hmany hs hn).2.2 l).2 ((hlength l).trans hl)⟩⟩⟩, htime, hlast⟩

theorem Timebase.shown_of_ref {t u : Timebase} {r : RefState} {g : Nat} (h : t = { u with ref := r, glitches := g }) :
    t.day = u.day ∧ t.second = u.second ∧ t.sourceMs = u.sourceMs ∧ t.valid = u.valid ∧ t.slew = u.slew := by
  rw [h]
  exact ⟨rfl, rfl, rfl, rfl, rfl⟩

section
variable {s p x : Part} {a n g : Nat} {kept : List Int} (h : s.OffsetLeft p x a n kept g)
include h

/-- A step of the offset shows in the part that is left. -/
theorem Part.OffsetLeft.stepped {q : Part} (hx : x = q.stepTime a 21) : p.time.day = a / 86400 ∧ p.time.second = a % 86400 ∧
    p.time.sourceMs = 21 ∧ p.time.valid = true ∧ p.time.slew = none ∧ ∀ l, (p.port l).isLatched .timeStepped = true := by
  obtain ⟨hday, hsecond, hms, hvalid, hslew⟩ := q.stepTime_shown a
  obtain ⟨hday', hsecond', hms', hvalid', hslew'⟩ := Timebase.shown_of_ref h.time
  have hmoves := h.moves
  rw [hx] at hday' hsecond' hms' hvalid' hslew' hmoves
  exact ⟨hday'.trans hday, hsecond'.trans hsecond, hms'.trans hms, hvalid'.trans hvalid, hslew'.trans hslew,
    fun l => hmoves.kept l _ (q.stepTime_port a 21 l).1⟩

/-- Without a step station time runs on. -/
theorem Part.OffsetLeft.runsOn {t : Timebase} (hx : x.time = { t with ref := x.time.ref, glitches := x.time.glitches, slew := x.time.slew }) :
    p.time.day = t.day ∧ p.time.second = t.second ∧ p.time.sourceMs = t.sourceMs ∧ p.time.valid = t.valid ∧ p.time.slew = x.time.slew :=
  ⟨(congrArg Timebase.day h.time :).trans (congrArg Timebase.day hx :),
    (congrArg Timebase.second h.time :).trans (congrArg Timebase.second hx :),
    (congrArg Timebase.sourceMs h.time :).trans (congrArg Timebase.sourceMs hx :),
    (congrArg Timebase.valid h.time :).trans (congrArg Timebase.valid hx :), (congrArg Timebase.slew h.time :)⟩

end

/-- What the telegram leaves that locks the reference. -/
theorem Part.telegram_locks_law {bytes : List Byte} {a n : Nat} {s : Part} (h : telegramSeconds bytes = some a)
    (hr : s.time.ref = .qualifying n) (hstep : s.inStep a = true) (hn : 4 ≤ n) :
    let now := s.telegramOver.time
    let offset := s.telegramOffset a
    let p := s.telegram bytes
    p.time.ref = .locked 0 [] ∧
    (∀ l, (p.port l).isLatched .timeLockChanged = true ∧
      ((s.port l).subjects.length = 29 → (p.port l).subject .timeLockChanged = 2)) ∧
    (now.valid = true → offset.natAbs ≤ 2000 →
      p.time.slew = (if offset.natAbs ≤ 10 then none else some offset) ∧ p.time.day = now.day ∧ p.time.second = now.second) ∧
    (now.valid = false ∨ 2000 < offset.natAbs →
      p.time.day = a / 86400 ∧ p.time.second = a % 86400 ∧ p.time.sourceMs = 21 ∧ p.time.valid = true ∧ p.time.slew = none) := by
  intro now offset p
  have hp : p = _ := Part.telegram_locks h hr hstep hn
  have hlength (l : Link) := s.telegramPart_subjects a l
  have hq : ({ s.telegramPart a with time := { s.telegramSeen a with ref := .locked 0 [] } } : Part).time.valid = now.valid := rfl
  have hqday : ({ s.telegramPart a with time := { s.telegramSeen a with ref := .locked 0 [] } } : Part).time.day = now.day := rfl
  have hqsecond : ({ s.telegramPart a with time := { s.telegramSeen a with ref := .locked 0 [] } } : Part).time.second = now.second := rfl
  have hqref : ({ s.telegramPart a with time := { s.telegramSeen a with ref := .locked 0 [] } } : Part).time.ref = .locked 0 [] := rfl
  have hqlength (l : Link) : (({ s.telegramPart a with time := { s.telegramSeen a with ref := .locked 0 [] } } : Part).port l).subjects.length =
      (s.port l).subjects.length := by
    rw [← hlength l]
    cases l <;> rfl
  generalize ({ s.telegramPart a with time := { s.telegramSeen a with ref := .locked 0 [] } } : Part) = q at *
  have htime : p.time = (q.correct a offset).time := by
    rw [hp, Part.finish_time]
    rfl
  obtain ⟨hslews, hsteps⟩ := q.correct_law a offset
  refine ⟨by rw [htime, Part.correct_ref, hqref], fun l => ?_, fun hv hsmall => ?_, fun hbad => ?_⟩
  · obtain ⟨hk, hs⟩ := (((q.correct a offset).latchNat .timeLockChanged 2).finish_port l).other .timeLockChanged (by decide)
    rw [Part.latchNat, Part.latch_port] at hk hs
    have hmoved := (q.sees_correct a offset).moves.length l
    rw [hp]
    exact ⟨hk.trans (Port.latch_isLatched_same _ _ _),
      fun hl => hs.trans (Port.latch_subject_same _ _ _ (hmoved.trans ((hqlength l).trans hl)))⟩
  · rw [htime, hslews (hq.trans hv) hsmall]
    exact ⟨rfl, hqday, hqsecond⟩
  · rw [htime, hsteps (hbad.imp_left hq.trans)]
    exact q.stepTime_shown a

end Sys2Proof.Machine
end

section
/-! O27 itself. -/

namespace Sys2Proof.Machine

section
variable {bytes : List Byte} {a n : Nat} {run : List Int} {s : Part} (h : telegramSeconds bytes = some a)
  (hr : s.time.ref = .locked n run) (hintime : ∀ v, s.time.lastValid = some v → s.elapsed ≤ v.arrival + 3000)

/-- The glitch count a telegram finds. -/
theorem Part.telegramPart_glitches (s : Part) (a : Nat) : (s.telegramPart a).time.glitches = s.time.glitches :=
  (congrArg Timebase.glitches s.telegramOver_beyondRun :)

/-- What the part has of station time after a telegram that made a step. -/
def Part.steppedTo (p : Part) (a : Nat) : Prop :=
  p.time.day = a / 86400 ∧ p.time.second = a % 86400 ∧ p.time.sourceMs = 21 ∧ p.time.valid = true ∧ p.time.slew = none ∧
    ∀ l, (p.port l).isLatched .timeStepped = true

/-- Station time runs on from `now`. -/
def Part.runsOnFrom (p : Part) (now : Timebase) : Prop :=
  p.time.day = now.day ∧ p.time.second = now.second ∧ p.time.sourceMs = now.sourceMs ∧ p.time.valid = true

include h hr hintime

theorem Part.offsetLeft_stepped {q : Part} (hx : (s.telegramPart a).lockedOffset n run a (s.telegramOffset a) = q.stepTime a 21)
    (hq : q.time.ref = .locked n []) (hg : q.time.glitches = (s.telegramPart a).time.glitches) :
    (s.telegram bytes).steppedTo a ∧ s.leavesRun (s.telegram bytes) a n [] s.time.glitches := by
  obtain ⟨-, -, href, hglitches⟩ := q.stepTime_seen a 21
  have hleft := Part.offsetLeft h hr hintime hx (href.trans hq) (hglitches.trans (hg.trans (s.telegramPart_glitches a)))
  exact ⟨hleft.stepped rfl, hleft.run⟩

theorem Part.locked_invalid (hv : s.telegramOver.time.valid = false) :
    (s.telegram bytes).steppedTo a ∧ s.leavesRun (s.telegram bytes) a n [] s.time.glitches := by
  have hx := Part.lockedOffset_invalid (q := s.telegramPart a) (n := n) (a := a) (run := run) (offset := s.telegramOffset a) hv
  exact Part.offsetLeft_stepped h hr hintime hx rfl rfl

variable (hv : s.telegramOver.time.valid = true)
include hv

theorem Part.locked_small (hsmall : (s.telegramOffset a).natAbs ≤ 2000) : (s.telegram bytes).runsOnFrom s.telegramOver.time ∧
    (s.telegram bytes).time.slew = (if (s.telegramOffset a).natAbs ≤ 10 then none else some (s.telegramOffset a)) ∧
    s.leavesRun (s.telegram bytes) a n [] (min 65535 (s.time.glitches + run.length)) := by
  have href : (s.telegramPart a).time.ref = .locked n run := s.telegramOver_ref.trans hr
  have hx := Part.lockedOffset_small (q := s.telegramPart a) (a := a) hv href hsmall
  have hleft := Part.offsetLeft h hr hintime hx rfl rfl
  obtain ⟨hday, hsecond, hms, hvalid, hslew⟩ := hleft.runsOn (t := s.telegramPart a |>.time) rfl
  have hrun := hleft.run
  rw [s.telegramPart_glitches] at hrun
  exact ⟨⟨hday, hsecond, hms, hvalid.trans hv⟩, hslew, hrun⟩

variable (hlarge : 2000 < (s.telegramOffset a).natAbs)
include hlarge

theorem Part.locked_joins (hagree : ∀ o ∈ run, (o - s.telegramOffset a).natAbs ≤ 1000) (hlen : run.length < 2) :
    (s.telegram bytes).runsOnFrom s.telegramOver.time ∧ (s.telegram bytes).time.slew = s.telegramOver.time.slew ∧
    s.leavesRun (s.telegram bytes) a n (run ++ [s.telegramOffset a]) s.time.glitches := by
  have hx := Part.lockedOffset_joins (q := s.telegramPart a) (n := n) (a := a) hv hlarge hagree hlen
  have hleft := Part.offsetLeft h hr hintime hx rfl (s.telegramPart_glitches a)
  obtain ⟨hday, hsecond, hms, hvalid, hslew⟩ := hleft.runsOn (t := s.telegramPart a |>.time) rfl
  exact ⟨⟨hday, hsecond, hms, hvalid.trans hv⟩, hslew, hleft.run⟩

theorem Part.locked_steps (hagree : ∀ o ∈ run, (o - s.telegramOffset a).natAbs ≤ 1000) (hlen : run.length = 2) :
    (s.telegram bytes).steppedTo a ∧ s.leavesRun (s.telegram bytes) a n [] s.time.glitches := by
  have hx := Part.lockedOffset_steps (q := s.telegramPart a) (n := n) (a := a) hv hlarge hagree hlen
  exact Part.offsetLeft_stepped h hr hintime hx rfl rfl

theorem Part.locked_parts (hagree : ¬∀ o ∈ run, (o - s.telegramOffset a).natAbs ≤ 1000) :
    (s.telegram bytes).runsOnFrom s.telegramOver.time ∧ (s.telegram bytes).time.slew = s.telegramOver.time.slew ∧
    s.leavesRun (s.telegram bytes) a n [s.telegramOffset a] (min 65535 (s.time.glitches + run.length)) := by
  have hx := Part.lockedOffset_parts (q := s.telegramPart a) (n := n) (a := a) hv hlarge hagree
  have hleft := Part.offsetLeft h hr hintime hx rfl rfl
  obtain ⟨hday, hsecond, hms, hvalid, hslew⟩ := hleft.runsOn (t := s.telegramPart a |>.time) rfl
  have hrun := hleft.run
  rw [s.telegramPart_glitches] at hrun
  exact ⟨⟨hday, hsecond, hms, hvalid.trans hv⟩, hslew, hrun⟩

end

/-- Settles O27: the telegram that locks, then the five outcomes of an offset while LOCKED. -/
theorem lockedTelegramsCorrectStationTime : Obligations.LockedTelegramsCorrectStationTime := by
  unfold Obligations.LockedTelegramsCorrectStationTime
  intro s bytes a hp h offset now
  obtain ⟨hoffset, hnow, hlast⟩ := Part.telegram_seen h s.part
  refine ⟨_, leaves_act (·.telegram bytes) rfl hp rfl, hoffset, hnow, hlast, fun n hr hstep hn => Part.telegram_locks_law h hr hstep hn,
    fun n run hr hlen hintime => ?_⟩
  exact ⟨fun hv => Part.locked_invalid h hr hintime hv, fun hv hsmall => Part.locked_small h hr hintime hv hsmall,
    fun hv hlarge => ⟨fun hagree hfew => Part.locked_joins h hr hintime hv hlarge hagree hfew,
      fun hagree htwo => Part.locked_steps h hr hintime hv hlarge hagree htwo, fun hagree => Part.locked_parts h hr hintime hv hlarge hagree⟩⟩

end Sys2Proof.Machine
end

section
/-! What a panel's record and the spare's duty are after a reply: the two kinds of change, and the spare's rule (R128 to R136). -/

namespace Sys2Proof.Machine

/-! ## The record of one panel -/

/-- Between `p` and `q` the record of the panel at `a` has been written and events have been latched, and nothing else. -/
structure Part.PanelSet (p q : Part) (a : Nat) : Prop where
  rest : q.beyondChain = p.beyondChain
  chain : q.chain = { p.chain with panels := q.chain.panels }
  length : q.chain.panels.length = p.chain.panels.length
  other : ∀ b, 1 ≤ b → b ≠ a → q.chain.panel b = p.chain.panel b
  port : ∀ l, (p.port l).Latches (· ≠ .spareChanged) (q.port l)

theorem Part.PanelSet.refl (p : Part) (a : Nat) : p.PanelSet p a := ⟨rfl, rfl, rfl, fun _ _ _ => rfl, fun _ => .refl _ _⟩

theorem Part.PanelSet.trans {p q r : Part} {a : Nat} (h : p.PanelSet q a) (h' : q.PanelSet r a) : p.PanelSet r a where
  rest := h'.rest.trans h.rest
  chain := h'.chain.trans (congrArg (fun c : Chain => { c with panels := r.chain.panels }) h.chain :)
  length := h'.length.trans h.length
  other b hb hne := (h'.other b hb hne).trans (h.other b hb hne)
  port l := (h.port l).trans (h'.port l)

theorem Part.modPanel_port (p : Part) (a : Nat) (f : Panel → Panel) (l : Link) : (p.modPanel a f).port l = p.port l := by cases l <;> rfl

theorem Part.panelSet_modPanel (p : Part) {a : Nat} (ha : 1 ≤ a) (f : Panel → Panel) : p.PanelSet (p.modPanel a f) a where
  rest := rfl
  chain := rfl
  length := updateAt_length _ _ _
  other _ hb hne := p.modPanel_other f ha hb hne
  port l := by rw [Part.modPanel_port]; exact .refl _ _

theorem Part.panelSet_latchNat (p : Part) (a : Nat) {k : EventKind} (hk : k ≠ .spareChanged) (n : Nat) : p.PanelSet (p.latchNat k n) a where
  rest := rfl
  chain := rfl
  length := rfl
  other _ _ _ := rfl
  port l := by
    rw [Part.latchNat, Part.latch_port]
    exact Port.latches_latch (sel := (· ≠ .spareChanged)) _ hk _

theorem Part.PanelSet.duty {p q : Part} {a : Nat} (h : p.PanelSet q a) : q.chain.duty = p.chain.duty := (congrArg Chain.duty h.chain :)

theorem Part.PanelSet.mode {p q : Part} {a : Nat} (h : p.PanelSet q a) : q.chain.mode = p.chain.mode := (congrArg Chain.mode h.chain :)

theorem Part.PanelSet.poll {p q : Part} {a : Nat} (h : p.PanelSet q a) : q.chain.poll = p.chain.poll := (congrArg Chain.poll h.chain :)

/-! ## The duty -/

/-- Between `p` and `q` the duty and the mode have been set, and nothing else but what a change of duty does (R133). -/
structure Part.DutySet (p q : Part) : Prop where
  rest : q.beyondChain = p.beyondChain
  chain : q.chain = { p.chain with
    duty := q.chain.duty, mode := q.chain.mode, panels := q.chain.panels
    clearDue := p.chain.clearDue || decide (q.chain.duty ≠ p.chain.duty) }
  kept : q.chain.duty = p.chain.duty → q.chain.panels = p.chain.panels ∧ ∀ l, q.port l = p.port l
  anew : q.chain.duty ≠ p.chain.duty → q.chain.panels = updateAt p.chain.panels 12 fun x => { x with ack := 0, refresh := true }
  port : ∀ l, (p.port l).Latches (· = .spareChanged) (q.port l)
  told : q.chain.duty ≠ p.chain.duty → ∀ l, (q.port l).isLatched .spareChanged = true ∧
    ((p.port l).subjects.length = 29 → (q.port l).subject .spareChanged = BitVec.ofNat 16 (q.chain.duty.covers.getD 0))

theorem Part.dutySet_mode (p : Part) (m : SpareMode) : p.DutySet (p.modChain fun c => { c with mode := m }) where
  rest := rfl
  chain := by simp [Part.modChain]
  kept _ := ⟨rfl, fun l => by cases l <;> rfl⟩
  anew h := absurd rfl h
  port l := by cases l <;> exact .refl _ _
  told h := absurd rfl h

theorem Part.DutySet.refl (p : Part) : p.DutySet p := p.dutySet_mode p.chain.mode

theorem Part.dutySet_setDuty {p : Part} (hpoll : p.chain.poll = none) (d : Duty) : p.DutySet (p.setDuty d) := by
  by_cases hsame : p.chain.duty == d || p.chain.duty == .notFitted
  · rw [Part.setDuty, if_pos hsame]
    exact .refl p
  · have hne : d ≠ p.chain.duty := fun h => hsame (by simp [h])
    have hset : p.setDuty d = ((p.modChain fun c => { c with duty := d, clearDue := true }).modPanel 13
        fun n => { n with ack := 0, refresh := true }).latchNat .spareChanged (d.covers.getD 0) := by
      have hsup : p.chain.supersede (· == 13) = p.chain := by
        unfold Chain.supersede
        rw [hpoll]
        exact (congrArg (fun x => { p.chain with poll := x }) hpoll.symm :)
      rw [Part.setDuty, if_neg hsame]
      exact congrArg (fun c : Chain => (({ p with chain := { c with duty := d, clearDue := true } } : Part).modPanel 13
        fun n => { n with ack := 0, refresh := true }).latchNat .spareChanged (d.covers.getD 0)) hsup
    have hlatched (l : Link) : (p.setDuty d).port l = (p.port l).latch .spareChanged (BitVec.ofNat 16 (d.covers.getD 0)) := by
      rw [hset, Part.latchNat, Part.latch_port]
      cases l <;> rfl
    refine ⟨p.setDuty_beyondChain d, ?_, fun h => ?_, fun _ => ?_, fun l => ?_, fun _ l => ?_⟩
    · have hclear : (p.chain.clearDue || decide ((p.setDuty d).chain.duty ≠ p.chain.duty)) = true := by
        rw [hset]
        exact (congrArg (p.chain.clearDue || ·) (decide_eq_true hne)).trans (Bool.or_true _)
      rw [hclear, hset]
      rfl
    · rw [hset] at h
      exact absurd h hne
    · rw [hset]
      rfl
    · rw [hlatched]
      exact Port.latches_latch (sel := (· = .spareChanged)) _ rfl _
    · rw [hlatched]
      refine ⟨Port.latch_isLatched_same _ _ _, fun hlen => ?_⟩
      rw [Port.latch_subject_same _ _ _ hlen, hset]
      rfl

/-- Two settings, the second of which does not undo the first. -/
theorem Part.DutySet.trans {p q r : Part} (h : p.DutySet q) (h' : q.DutySet r) (hround : r.chain.duty = p.chain.duty → q.chain.duty = p.chain.duty) :
    p.DutySet r where
  rest := h'.rest.trans h.rest
  chain := by
    refine h'.chain.trans ?_
    have hclear : (q.chain.clearDue || decide (r.chain.duty ≠ q.chain.duty)) =
        (p.chain.clearDue || decide (r.chain.duty ≠ p.chain.duty)) := by
      rw [(congrArg Chain.clearDue h.chain : q.chain.clearDue = _), Bool.or_assoc, ← Bool.decide_or]
      refine congrArg (p.chain.clearDue || ·) (decide_eq_decide.mpr ⟨?_, ?_⟩)
      · rintro (hq | hr) heq
        · exact hq (hround heq)
        · exact hr (heq.trans (hround heq).symm)
      · intro hr
        by_cases hq : q.chain.duty = p.chain.duty
        · exact Or.inr (hq ▸ hr)
        · exact Or.inl hq
    rw [hclear]
    exact (congrArg (fun c : Chain => { c with
      duty := r.chain.duty, mode := r.chain.mode, panels := r.chain.panels,
      clearDue := p.chain.clearDue || decide (r.chain.duty ≠ p.chain.duty) }) h.chain :)
  kept heq := by
    have hq := hround heq
    obtain ⟨hpanels, hport⟩ := h.kept hq
    obtain ⟨hpanels', hport'⟩ := h'.kept (heq.trans hq.symm)
    exact ⟨hpanels'.trans hpanels, fun l => (hport' l).trans (hport l)⟩
  anew hne := by
    by_cases hr : r.chain.duty = q.chain.duty
    · rw [(h'.kept hr).1, h.anew (hr ▸ hne)]
    · rw [h'.anew hr]
      by_cases hq : q.chain.duty = p.chain.duty
      · rw [(h.kept hq).1]
      · rw [h.anew hq]
        refine List.ext_getElem? fun i => ?_
        simp only [updateAt_getElem?]
        split
        · cases p.chain.panels[i]? <;> rfl
        · rfl
  port l := (h.port l).trans (h'.port l)
  told hne l := by
    by_cases hr : r.chain.duty = q.chain.duty
    · rw [(h'.kept hr).2 l, hr]
      exact h.told (hr ▸ hne) l
    · obtain ⟨hflag, hsubject⟩ := h'.told hr l
      exact ⟨hflag, fun hlen => hsubject ((h.port l).length.trans hlen)⟩

theorem Part.DutySet.poll {p q : Part} (h : p.DutySet q) : q.chain.poll = p.chain.poll := (congrArg Chain.poll h.chain :)

theorem Part.DutySet.positions {p q : Part} (h : p.DutySet q) : q.chain.positions = p.chain.positions := (congrArg Chain.positions h.chain :)

theorem Part.DutySet.clearDue {p q : Part} (h : p.DutySet q) :
    q.chain.clearDue = (p.chain.clearDue || decide (q.chain.duty ≠ p.chain.duty)) := (congrArg Chain.clearDue h.chain :)

/-- A change of duty writes the acknowledged generation and refresh pending of the spare alone. -/
theorem Part.DutySet.panel {p q : Part} (h : p.DutySet q) (b : Nat) : ∃ k r, q.chain.panel b = { p.chain.panel b with ack := k, refresh := r } := by
  by_cases hd : q.chain.duty = p.chain.duty
  · refine ⟨(p.chain.panel b).ack, (p.chain.panel b).refresh, ?_⟩
    unfold Chain.panel
    rw [(h.kept hd).1]
  · unfold Chain.panel
    rw [h.anew hd, List.getD_eq_getElem?_getD, List.getD_eq_getElem?_getD, updateAt_getElem?]
    split
    · cases p.chain.panels[b - 1]? with
      | none => exact ⟨_, _, rfl⟩
      | some k => exact ⟨_, _, rfl⟩
    · exact ⟨_, _, rfl⟩

theorem Part.DutySet.states {p q : Part} (h : p.DutySet q) : p.chain.SameStates q.chain := fun b => by
  obtain ⟨k, r, hpanel⟩ := h.panel b
  rw [hpanel]

theorem Part.DutySet.panel_kept {p q : Part} (h : p.DutySet q) {b : Nat} (hb : 1 ≤ b) (hkept : b ≠ 13 ∨ q.chain.duty = p.chain.duty) :
    q.chain.panel b = p.chain.panel b := by
  by_cases hd : q.chain.duty = p.chain.duty
  · unfold Chain.panel
    rw [(h.kept hd).1]
  · unfold Chain.panel
    rw [h.anew hd]
    exact updateAt_getD_other _ _ _ _ _ (by rcases hkept with hne | heq <;> [omega; exact absurd heq hd])

theorem Part.DutySet.panel_anew {p q : Part} (h : p.DutySet q) (hlen : p.chain.panels.length = 13) (hd : q.chain.duty ≠ p.chain.duty) :
    (q.chain.panel 13).ack = 0 ∧ (q.chain.panel 13).refresh = true := by
  unfold Chain.panel
  rw [h.anew hd, updateAt_getD_same _ _ _ _ (by omega)]
  exact ⟨rfl, rfl⟩

/-- The spare's choice looks at the panels' states alone. -/
theorem Part.spareChoice_of_states {p q : Part} (hs : p.chain.SameStates q.chain) (hpos : q.chain.positions = p.chain.positions)
    (himage : q.image = p.image) : q.spareChoice = p.spareChoice := by
  have hfault : (fun n => (q.chain.panel n).isFaulted) = fun n => (p.chain.panel n).isFaulted :=
    funext fun n => Panel.isFaulted_of_state (hs n)
  unfold Part.spareChoice
  rw [Panel.isUp_of_state (hs 13), hpos, himage, hfault]

theorem Part.DutySet.dutyChosen {p q : Part} (h : p.DutySet q) : q.dutyChosen = p.dutyChosen :=
  Part.dutyChosen_congr (Part.spareChoice_of_states h.states h.positions (Part.image_of_chain h.rest))

theorem Part.setDuty_mode (p : Part) (d : Duty) : (p.setDuty d).chain.mode = p.chain.mode := (p.setDuty_chain d).2.2.1

theorem Part.setDuty_unfitted {p : Part} (h : p.chain.duty = .notFitted) (d : Duty) : p.setDuty d = p := if_pos (by simp [h])

theorem Part.chooseSpare_unfitted {p : Part} (h : p.chain.duty = .notFitted) : p.chooseSpare = p := by
  by_cases hm : p.chain.mode = .automatic
  · rw [Part.chooseSpare_automatic hm, Part.setDuty_unfitted h]
  · exact Part.chooseSpare_other hm

theorem Part.dutySet_chooseSpare {p : Part} (hpoll : p.chain.poll = none) : p.DutySet p.chooseSpare := by
  by_cases hm : p.chain.mode = .automatic
  · rw [Part.chooseSpare_automatic hm]
    exact Part.dutySet_setDuty hpoll _
  · rw [Part.chooseSpare_other hm]
    exact .refl p

theorem Part.chooseSpare_mode (p : Part) : p.chooseSpare.chain.mode = p.chain.mode := by
  by_cases hm : p.chain.mode = .automatic
  · rw [Part.chooseSpare_automatic hm, Part.setDuty_mode]
  · rw [Part.chooseSpare_other hm]

/-- The duty after a choice. -/
theorem Part.chooseSpare_duty (p : Part) : p.chooseSpare.chain.duty =
    if p.chain.mode = .automatic ∧ p.chain.duty ≠ .notFitted then p.dutyChosen else p.chain.duty := by
  by_cases hd : p.chain.duty = .notFitted
  · rw [Part.chooseSpare_unfitted hd, if_neg (fun h => h.2 hd)]
  by_cases hm : p.chain.mode = .automatic
  · rw [Part.chooseSpare_automatic hm, if_pos ⟨hm, hd⟩, Part.setDuty_duty _ hd]
  · rw [Part.chooseSpare_other hm, if_neg (fun h => hm h.1)]

/-- A spare that is not up covers nothing. -/
theorem Part.dutyChosen_down {p : Part} (h : (p.chain.panel 13).isUp = false) : p.dutyChosen = .standby := by
  unfold Part.dutyChosen Part.spareChoice
  rw [if_pos (by rw [h]; rfl)]

theorem Part.dutyChosen_ne {p : Part} {n : Nat} (h : (p.chain.panel n).isFaulted = false) : p.dutyChosen ≠ .engaged n := by
  intro heq
  unfold Part.dutyChosen at heq
  split at heq
  · next m hm =>
    injection heq with heq
    have hfault := (Part.spareChoice_best hm).2.1.2.2
    rw [heq, h] at hfault
    cases hfault
  · cases heq

end Sys2Proof.Machine
end

section
/-! A reply judged: what the panel enters and leaves, and the spare after it (R128 to R136). -/

namespace Sys2Proof.Machine

/-! ## The spare's rule -/

/-- The panel at `a` has entered FAULTED. -/
def Chain.Faults (c d : Chain) (a : Nat) : Prop := (c.panel a).isFaulted = false ∧ (d.panel a).isFaulted = true

/-- The panel at `a` has left FAULTED. -/
def Chain.Recovers (c d : Chain) (a : Nat) : Prop := (c.panel a).isFaulted = true ∧ (d.panel a).isFaulted = false

/-- The spare has come up from STARTING. -/
def Chain.SpareStarts (c d : Chain) (a : Nat) : Prop := a = 13 ∧ (c.panel a).state = .starting ∧ (d.panel 13).isUp = true

/-- The duty and the mode that follow from what has happened to the panel at `a` (R128, R131, R132, R136). -/
structure Part.SpareRule (s p : Part) (a : Nat) : Prop where
  unfitted : s.chain.duty = .notFitted → p.chain.duty = .notFitted
  fitted : s.chain.duty ≠ .notFitted →
    (s.chain.mode = .automatic → (s.chain.Faults p.chain a ∨ s.chain.Recovers p.chain a ∨ s.chain.SpareStarts p.chain a) →
      p.chain.duty = p.dutyChosen) ∧
    (s.chain.mode ≠ .automatic → s.chain.Faults p.chain a → p.chain.duty = if a = 13 then .standby else s.chain.duty) ∧
    (∀ n, s.chain.mode = .pinned n → s.chain.Recovers p.chain a → a = 13 → p.chain.duty = .engaged n) ∧
    (s.chain.mode = .pinned a → s.chain.Recovers p.chain a → a ≠ 13 → p.chain.duty = p.dutyChosen) ∧
    (s.chain.mode ≠ .automatic → s.chain.mode ≠ .pinned a → s.chain.Recovers p.chain a → a ≠ 13 →
      p.chain.duty = if s.chain.duty = .engaged a then .standby else s.chain.duty) ∧
    (s.chain.mode = .released → s.chain.Recovers p.chain a → a = 13 → p.chain.duty = s.chain.duty) ∧
    (¬s.chain.Faults p.chain a → ¬s.chain.Recovers p.chain a → (s.chain.SpareStarts p.chain a → s.chain.mode ≠ .automatic) →
      p.chain.duty = s.chain.duty)
  mode : p.chain.mode = if (s.chain.panel a).isFaulted = true ∧ (p.chain.panel a).isFaulted = false ∧ s.chain.mode = .pinned a ∧ a ≠ 13
    then .automatic else s.chain.mode

/-- The part `q` is what a reply of the panel at `a` leaves of `s`: `m` once the panel's record has been written, and then the spare
follows. -/
structure Part.Judged (s m q : Part) (a : Nat) : Prop where
  set : s.PanelSet m a
  duty : m.DutySet q
  rule : s.SpareRule q a

/-- Before a reply is judged: no poll is in progress, and there are thirteen panels. -/
structure Part.Judging (s : Part) (a : Nat) : Prop where
  low : 1 ≤ a
  high : a ≤ 13
  length : s.chain.panels.length = 13
  poll : s.chain.poll = none

theorem Part.Judging.of_set {s p : Part} {a : Nat} (h : s.Judging a) (hp : s.PanelSet p a) : p.Judging a :=
  ⟨h.low, h.high, hp.length.trans h.length, hp.poll.trans h.poll⟩

/-- The panel at `a` has been written by `f`, and `k` latched. -/
def Part.panelTold (p : Part) (a : Nat) (f : Panel → Panel) (k : EventKind) : Part := (p.modPanel a f).latchNat k a

theorem Part.Judging.panel {p : Part} {a : Nat} (h : p.Judging a) (f : Panel → Panel) : (p.modPanel a f).chain.panel a = f (p.chain.panel a) :=
  p.modPanel_same f h.low (h.length ▸ h.high)

theorem Part.Judging.panelTold {p : Part} {a : Nat} (h : p.Judging a) (f : Panel → Panel) (k : EventKind) :
    (p.panelTold a f k).chain.panel a = f (p.chain.panel a) := h.panel f

theorem Part.Judging.modPanel {p : Part} {a : Nat} (h : p.Judging a) (f : Panel → Panel) : p.PanelSet (p.modPanel a f) a :=
  p.panelSet_modPanel h.low f

theorem Part.Judging.set_told {p : Part} {a : Nat} (h : p.Judging a) (f : Panel → Panel) {k : EventKind} (hk : k ≠ .spareChanged) :
    p.PanelSet (p.panelTold a f k) a := (h.modPanel f).trans (Part.panelSet_latchNat _ a hk a)

/-- The spare's panel, as the other panels, keeps its state when another one is written. -/
theorem Part.PanelSet.state {s m : Part} {a : Nat} (h : s.PanelSet m a) {b : Nat} (hb : 1 ≤ b) (hsame : (m.chain.panel a).state = (s.chain.panel a).state) :
    (m.chain.panel b).state = (s.chain.panel b).state := by
  by_cases hba : b = a
  · rw [hba, hsame]
  · rw [h.other b hb hba]

/-- A panel that neither enters nor leaves FAULTED, and is not a spare that starts, leaves the duty as it is. -/
theorem Part.judged_quiet {s m : Part} {a : Nat} (h : s.PanelSet m a) (hfault : (m.chain.panel a).isFaulted = (s.chain.panel a).isFaulted)
    (hstart : s.chain.SpareStarts m.chain a → s.chain.mode ≠ .automatic) : s.Judged m m a := by
  have hnofault : ¬s.chain.Faults m.chain a := fun ⟨h0, h1⟩ => by rw [hfault, h0] at h1; cases h1
  have hnorecover : ¬s.chain.Recovers m.chain a := fun ⟨h0, h1⟩ => by rw [hfault, h0] at h1; cases h1
  refine ⟨h, .refl m, fun hd => h.duty.trans hd, fun _ => ?_, ?_⟩
  · refine ⟨fun hm hcase => ?_, fun _ hf => absurd hf hnofault, fun _ _ hr => absurd hr hnorecover, fun _ hr => absurd hr hnorecover,
      fun _ _ hr => absurd hr hnorecover, fun _ hr => absurd hr hnorecover, fun _ _ _ => h.duty⟩
    rcases hcase with hf | hr | hs
    · exact absurd hf hnofault
    · exact absurd hr hnorecover
    · exact absurd hm (hstart hs)
  · rw [if_neg (fun hr => hnorecover ⟨hr.1, hr.2.1⟩)]
    exact h.mode

/-! ## Entry to FAULTED -/

/-- A panel's record at its entry to FAULTED (R129, R134). -/
def Panel.faulted (n : Panel) (why : FaultReason) : Panel :=
  { n with state := .faulted why, misses := 0, recovery := 0, ack := 0, refresh := true }

theorem Panel.faulted_isFaulted (n : Panel) (why : FaultReason) : (n.faulted why).isFaulted = true := rfl

theorem Panel.isUp_of_isFaulted {n : Panel} (h : n.isFaulted = true) : n.isUp = false := by
  cases hup : n.isUp with
  | false => rfl
  | true =>
    rw [Panel.not_isFaulted_of_isUp hup] at h
    cases h

theorem Part.enterFault_other (p : Part) {a : Nat} (h : a ≠ 13) (why : FaultReason) :
    p.enterFault a why = (p.panelTold a (·.faulted why) .panelFault).chooseSpare := by
  unfold Part.enterFault
  dsimp only
  rw [if_neg (by simpa using h)]
  rfl

/-- The spare that fails is on STANDBY whatever the mode: there is nothing to choose. -/
theorem Part.enterFault_spare {p : Part} (h : p.Judging 13) (why : FaultReason) :
    p.enterFault 13 why = (p.panelTold 13 (·.faulted why) .panelFault).setDuty .standby := by
  have hdef : p.enterFault 13 why = ((p.panelTold 13 (·.faulted why) .panelFault).setDuty .standby).chooseSpare := rfl
  have hdown : ((p.panelTold 13 (·.faulted why) .panelFault).chain.panel 13).isUp = false :=
    Panel.isUp_of_isFaulted (by rw [h.panelTold]; rfl)
  rw [hdef]
  generalize p.panelTold 13 (·.faulted why) .panelFault = m at hdown ⊢
  by_cases hfit : m.chain.duty = .notFitted
  · rw [Part.setDuty_unfitted hfit, Part.chooseSpare_unfitted hfit]
  by_cases hmode : (m.setDuty .standby).chain.mode = .automatic
  · have hstates := (m.setDuty_chain .standby).2.1
    rw [Part.chooseSpare_automatic hmode, Part.dutyChosen_down ((Panel.isUp_of_state (hstates 13)).trans hdown)]
    exact Part.setDuty_same (Part.setDuty_duty _ hfit)
  · exact Part.chooseSpare_other hmode

theorem Part.judged_enterFault {s p : Part} {a : Nat} (hs : s.Judging a) (h : s.PanelSet p a) (hup : (s.chain.panel a).isFaulted = false)
    (why : FaultReason) : s.Judged (p.panelTold a (·.faulted why) .panelFault) (p.enterFault a why) a := by
  have hp := hs.of_set h
  have hset := h.trans (hp.set_told (·.faulted why) (k := .panelFault) (by decide))
  have hm := hs.of_set hset
  have hpanel : (p.panelTold a (·.faulted why) .panelFault).chain.panel a = (p.chain.panel a).faulted why := hp.panelTold _ _
  have hduty : (p.panelTold a (·.faulted why) .panelFault).DutySet (p.enterFault a why) ∧
      (p.enterFault a why).chain.mode = s.chain.mode ∧
      (s.chain.duty = .notFitted → (p.enterFault a why).chain.duty = .notFitted) ∧
      (s.chain.duty ≠ .notFitted → s.chain.mode = .automatic → (p.enterFault a why).chain.duty = (p.enterFault a why).dutyChosen) ∧
      (s.chain.duty ≠ .notFitted → s.chain.mode ≠ .automatic → (p.enterFault a why).chain.duty = if a = 13 then .standby else s.chain.duty) := by
    by_cases ha : a = 13
    · subst ha
      rw [Part.enterFault_spare hp]
      generalize p.panelTold 13 (·.faulted why) .panelFault = m at *
      refine ⟨Part.dutySet_setDuty hm.poll _, (Part.setDuty_mode _ _).trans hset.mode, fun hd => ?_, fun hd _ => ?_, fun hd _ => ?_⟩
      · rw [Part.setDuty_unfitted (hset.duty.trans hd)]
        exact hset.duty.trans hd
      · rw [Part.setDuty_duty _ (hset.duty ▸ hd), (Part.dutySet_setDuty hm.poll _).dutyChosen, Part.dutyChosen_down]
        exact Panel.isUp_of_isFaulted (by rw [hpanel]; rfl)
      · rw [Part.setDuty_duty _ (hset.duty ▸ hd), if_pos rfl]
    · rw [Part.enterFault_other p ha]
      generalize p.panelTold a (·.faulted why) .panelFault = m at *
      have hchosen := Part.dutySet_chooseSpare hm.poll
      refine ⟨hchosen, (Part.chooseSpare_mode _).trans hset.mode, fun hd => ?_, fun hd hmode => ?_, fun hd hmode => ?_⟩
      · rw [Part.chooseSpare_unfitted (hset.duty.trans hd)]
        exact hset.duty.trans hd
      · rw [Part.chooseSpare_duty, hchosen.dutyChosen, if_pos ⟨hset.mode.trans hmode, hset.duty ▸ hd⟩]
      · rw [Part.chooseSpare_duty, if_neg (fun hx => hmode (hset.mode ▸ hx.1)), if_neg ha, hset.duty]
  obtain ⟨hleft, hmode, hunfit, hauto, hother⟩ := hduty
  have hfaults : s.chain.Faults (p.enterFault a why).chain a :=
    ⟨hup, by rw [Panel.isFaulted_of_state (hleft.states a), hpanel]; rfl⟩
  have hnorecover : ¬s.chain.Recovers (p.enterFault a why).chain a := fun hr => by rw [hr.1] at hup; cases hup
  refine ⟨hset, hleft, hunfit, fun hd => ⟨fun hm _ => hauto hd hm, fun hm _ => hother hd hm, fun _ _ hr => absurd hr hnorecover,
    fun _ hr => absurd hr hnorecover, fun _ _ hr => absurd hr hnorecover, fun _ hr => absurd hr hnorecover,
    fun hno => absurd hfaults hno⟩, ?_⟩
  rw [if_neg (fun hr => hnorecover ⟨hr.1, hr.2.1⟩), hmode]

/-! ## Entry to ACTIVE and WARM -/

/-- The record written and the event latched at an entry to ACTIVE or WARM. -/
def Part.raised (p : Part) (a : Nat) (st : PanelState) : Part :=
  if st = .warm then p.panelTold a (fun n => { n with state := st }) .thermalWarning else p.modPanel a fun n => { n with state := st }

theorem Part.Judging.set_raised {p : Part} {a : Nat} (h : p.Judging a) (st : PanelState) : p.PanelSet (p.raised a st) a := by
  unfold Part.raised
  split
  · exact h.set_told _ (by decide)
  · exact h.modPanel _

theorem Part.Judging.panel_raised {p : Part} {a : Nat} (h : p.Judging a) (st : PanelState) :
    (p.raised a st).chain.panel a = { p.chain.panel a with state := st } := by
  unfold Part.raised
  split
  · exact h.panelTold _ _
  · exact h.panel _

theorem Part.enterUp_eq (p : Part) (a : Nat) (st : PanelState) : p.enterUp a st =
    if a = 13 ∧ (p.chain.panel a).state = .starting then (p.raised a st).chooseSpare else p.raised a st := by
  have hraised : (if st == .warm then (p.modPanel a fun n => { n with state := st }).latchNat .thermalWarning a
      else p.modPanel a fun n => { n with state := st }) = p.raised a st := by
    unfold Part.raised Part.panelTold
    by_cases hw : st = .warm
    · rw [if_pos hw, if_pos (by simpa using hw)]
    · rw [if_neg hw, if_neg (by simpa using hw)]
  unfold Part.enterUp
  dsimp only
  rw [hraised]
  by_cases h : a = 13 ∧ (p.chain.panel a).state = .starting
  · rw [if_pos h, if_pos (by simpa using h)]
  · rw [if_neg h, if_neg (by simpa using h)]

theorem Part.judged_enterUp {s p : Part} {a : Nat} (hs : s.Judging a) (h : s.PanelSet p a)
    (hsame : (p.chain.panel a).state = (s.chain.panel a).state) (hnot : (s.chain.panel a).isFaulted = false) {st : PanelState} (hst : st.up) :
    s.Judged (p.raised a st) (p.enterUp a st) a := by
  have hp := hs.of_set h
  have hset := h.trans (hp.set_raised st)
  have hm := hs.of_set hset
  have hpanel := hp.panel_raised st
  rw [Part.enterUp_eq, hsame]
  generalize p.raised a st = m at *
  have hup : (m.chain.panel a).isUp = true := Panel.isUp_of_up (by rw [hpanel]; exact hst)
  have hfault : (m.chain.panel a).isFaulted = (s.chain.panel a).isFaulted := (Panel.not_isFaulted_of_isUp hup).trans hnot.symm
  split
  · next hstart =>
    obtain ⟨rfl, hstarting⟩ := hstart
    have hchosen := Part.dutySet_chooseSpare hm.poll
    have hstill : (m.chooseSpare.chain.panel 13).isFaulted = false :=
      (Panel.isFaulted_of_state (hchosen.states 13)).trans (Panel.not_isFaulted_of_isUp hup)
    have hnofault : ¬s.chain.Faults m.chooseSpare.chain 13 := fun hf => by rw [hf.2] at hstill; cases hstill
    have hnorecover : ¬s.chain.Recovers m.chooseSpare.chain 13 := fun hr => by rw [hr.1] at hnot; cases hnot
    have hstarts : s.chain.SpareStarts m.chooseSpare.chain 13 := ⟨rfl, hstarting, (Panel.isUp_of_state (hchosen.states 13)).trans hup⟩
    refine ⟨hset, hchosen, fun hd => ?_, fun hd => ⟨fun hmode _ => ?_, fun _ hf => absurd hf hnofault, fun _ _ hr => absurd hr hnorecover,
      fun _ hr => absurd hr hnorecover, fun _ _ hr => absurd hr hnorecover, fun _ hr => absurd hr hnorecover, fun _ _ hno => ?_⟩, ?_⟩
    · rw [Part.chooseSpare_unfitted (hset.duty.trans hd)]
      exact hset.duty.trans hd
    · rw [Part.chooseSpare_duty, hchosen.dutyChosen, if_pos ⟨hset.mode.trans hmode, hset.duty ▸ hd⟩]
    · rw [Part.chooseSpare_duty, if_neg (fun hx => hno hstarts (hset.mode ▸ hx.1)), hset.duty]
    · rw [if_neg (fun hr => hnorecover ⟨hr.1, hr.2.1⟩), Part.chooseSpare_mode, hset.mode]
  · next hno => exact Part.judged_quiet hset hfault fun hx => absurd ⟨hx.1, hx.2.1⟩ hno

/-! ## Recovery -/

/-- What the spare does after a recovery, before the choice. -/
def Part.recovered (p : Part) (a : Nat) : Part := if a = 13 then p.repin else p.leaveRecovered a

theorem Part.repin_pinned {p : Part} {n : Nat} (h : p.chain.mode = .pinned n) : p.repin = p.setDuty (.engaged n) := by
  unfold Part.repin
  rw [h]

theorem Part.repin_other {p : Part} (h : ∀ n, p.chain.mode ≠ .pinned n) : p.repin = p := by
  unfold Part.repin
  split
  · next n hn => exact absurd hn (h n)
  · rfl
  · rfl

/-- The spare after its own recovery (R136). -/
theorem Part.judged_spareRecovered {s m : Part} (hs : s.Judging 13) (h : s.PanelSet m 13) (hfault : (s.chain.panel 13).isFaulted = true)
    (hup : (m.chain.panel 13).isUp = true) : s.Judged m m.repin.chooseSpare 13 := by
  have hm := hs.of_set h
  have hstate (q : Part) (hq : m.DutySet q) : (q.chain.panel 13).isFaulted = false :=
    (Panel.isFaulted_of_state (hq.states 13)).trans (Panel.not_isFaulted_of_isUp hup)
  have hcases : m.DutySet m.repin.chooseSpare ∧ m.repin.chooseSpare.chain.mode = s.chain.mode ∧
      (s.chain.duty = .notFitted → m.repin.chooseSpare.chain.duty = .notFitted) ∧
      (s.chain.duty ≠ .notFitted →
        (s.chain.mode = .automatic → m.repin.chooseSpare.chain.duty = m.repin.chooseSpare.dutyChosen) ∧
        (∀ n, s.chain.mode = .pinned n → m.repin.chooseSpare.chain.duty = .engaged n) ∧
        (s.chain.mode = .released → m.repin.chooseSpare.chain.duty = s.chain.duty)) := by
    by_cases hpin : ∃ n, m.chain.mode = .pinned n
    · obtain ⟨n, hn⟩ := hpin
      have hchoose : m.repin.chooseSpare = m.setDuty (.engaged n) := by
        rw [Part.repin_pinned hn]
        exact Part.chooseSpare_other (by rw [Part.setDuty_mode, hn]; exact nofun)
      rw [hchoose]
      have hmode := h.mode.symm.trans hn
      refine ⟨Part.dutySet_setDuty hm.poll _, (Part.setDuty_mode _ _).trans h.mode, fun hd => ?_, fun hd => ⟨fun ha => ?_, fun k hk => ?_, fun hr => ?_⟩⟩
      · rw [Part.setDuty_unfitted (h.duty.trans hd)]
        exact h.duty.trans hd
      · rw [hmode] at ha
        cases ha
      · rw [hmode] at hk
        injection hk with hk
        rw [Part.setDuty_duty _ (h.duty ▸ hd), hk]
      · rw [hmode] at hr
        cases hr
    · have hno : ∀ n, m.chain.mode ≠ .pinned n := fun n hn => hpin ⟨n, hn⟩
      rw [Part.repin_other hno]
      have hchosen := Part.dutySet_chooseSpare hm.poll
      refine ⟨hchosen, (Part.chooseSpare_mode _).trans h.mode, fun hd => ?_, fun hd => ⟨fun ha => ?_, fun k hk => ?_, fun hr => ?_⟩⟩
      · rw [Part.chooseSpare_unfitted (h.duty.trans hd)]
        exact h.duty.trans hd
      · rw [Part.chooseSpare_duty, hchosen.dutyChosen, if_pos ⟨h.mode.trans ha, h.duty ▸ hd⟩]
      · exact absurd (h.mode.trans hk) (hno k)
      · rw [Part.chooseSpare_duty, if_neg (by rw [h.mode, hr]; exact fun hx => nomatch hx.1), h.duty]
  obtain ⟨hleft, hmode, hunfit, hfit⟩ := hcases
  have hstill := hstate _ hleft
  have hnofault : ¬s.chain.Faults m.repin.chooseSpare.chain 13 := fun hf => by rw [hf.2] at hstill; cases hstill
  have hrecovers : s.chain.Recovers m.repin.chooseSpare.chain 13 := ⟨hfault, hstill⟩
  refine ⟨h, hleft, hunfit, fun hd => ?_, ?_⟩
  · obtain ⟨hauto, hpinned, hreleased⟩ := hfit hd
    exact ⟨fun ha _ => hauto ha, fun _ hf => absurd hf hnofault, fun n hn _ _ => hpinned n hn, fun _ _ hne => absurd rfl hne,
      fun _ _ _ hne => absurd rfl hne, fun hr _ _ => hreleased hr, fun _ hno => absurd hrecovers hno⟩
  · rw [if_neg (fun hx => hx.2.2.2 rfl), hmode]

theorem Part.leaveRecovered_eq (p : Part) (a : Nat) : p.leaveRecovered a =
    let q := if p.chain.duty = .engaged a then p.setDuty .standby else p
    if p.chain.mode = .pinned a then q.modChain (fun c => { c with mode := .automatic }) else q := by
  unfold Part.leaveRecovered
  dsimp only
  have hq : (if (p.chain.duty == .engaged a) = true then p.setDuty .standby else p) =
      if p.chain.duty = .engaged a then p.setDuty .standby else p := by simp only [beq_iff_eq]
  have hmode : (if p.chain.duty = .engaged a then p.setDuty .standby else p).chain.mode = p.chain.mode := by
    split
    · exact Part.setDuty_mode _ _
    · rfl
  rw [hq]
  generalize (if p.chain.duty = .engaged a then p.setDuty .standby else p) = q at *
  rw [hmode]
  simp only [beq_iff_eq]

theorem Part.leaveRecovered_law {p : Part} (hpoll : p.chain.poll = none) (a : Nat) : p.DutySet (p.leaveRecovered a) ∧
    (p.leaveRecovered a).chain.mode = (if p.chain.mode = .pinned a then .automatic else p.chain.mode) ∧
    (p.leaveRecovered a).chain.duty = if p.chain.duty = .engaged a then .standby else p.chain.duty := by
  rw [Part.leaveRecovered_eq]
  dsimp only
  have hq : p.DutySet (if p.chain.duty = .engaged a then p.setDuty .standby else p) ∧
      (if p.chain.duty = .engaged a then p.setDuty .standby else p).chain.mode = p.chain.mode ∧
      (if p.chain.duty = .engaged a then p.setDuty .standby else p).chain.duty = if p.chain.duty = .engaged a then .standby else p.chain.duty := by
    split
    · next hd => exact ⟨Part.dutySet_setDuty hpoll _, Part.setDuty_mode _ _, Part.setDuty_duty _ (by rw [hd]; exact nofun)⟩
    · exact ⟨.refl p, rfl, rfl⟩
  generalize (if p.chain.duty = .engaged a then p.setDuty .standby else p) = q at *
  obtain ⟨hleft, hmode, hduty⟩ := hq
  split
  · exact ⟨hleft.trans (q.dutySet_mode .automatic) (fun h => h), rfl, hduty⟩
  · exact ⟨hleft, hmode, hduty⟩

/-- The spare after the recovery of a position's own panel (R131, R136). -/
theorem Part.judged_otherRecovered {s m : Part} {a : Nat} (hs : s.Judging a) (h : s.PanelSet m a) (hfault : (s.chain.panel a).isFaulted = true)
    (hup : (m.chain.panel a).isUp = true) (ha : a ≠ 13) : s.Judged m (m.leaveRecovered a).chooseSpare a := by
  have hm := hs.of_set h
  obtain ⟨hleave, hmode, hduty⟩ := Part.leaveRecovered_law hm.poll a
  rw [h.mode] at hmode
  rw [h.duty] at hduty
  generalize m.leaveRecovered a = q at *
  have hchosen := Part.dutySet_chooseSpare (hleave.poll.trans hm.poll)
  have hduty' := q.chooseSpare_duty
  have hmode' := q.chooseSpare_mode
  have hpick : q.dutyChosen ≠ .engaged a := Part.dutyChosen_ne
    ((Panel.isFaulted_of_state (hleave.states a)).trans (Panel.not_isFaulted_of_isUp hup))
  have hchoice := hchosen.dutyChosen
  generalize q.chooseSpare = t at *
  have hround : t.chain.duty = m.chain.duty → q.chain.duty = m.chain.duty := by
    intro heq
    rw [h.duty] at heq ⊢
    by_cases hd : s.chain.duty = .engaged a
    · rw [hduty', hduty, if_pos hd, hd] at heq
      split at heq
      · exact absurd heq hpick
      · cases heq
    · rw [hduty, if_neg hd]
  have hleft := hleave.trans hchosen hround
  have hstill : (t.chain.panel a).isFaulted = false :=
    (Panel.isFaulted_of_state (hleft.states a)).trans (Panel.not_isFaulted_of_isUp hup)
  have hnofault : ¬s.chain.Faults t.chain a := fun hf => by rw [hf.2] at hstill; cases hstill
  have hrecovers : s.chain.Recovers t.chain a := ⟨hfault, hstill⟩
  have hunfitted : q.chain.duty = .notFitted ↔ s.chain.duty = .notFitted := by
    rw [hduty]
    split
    · next hd => rw [hd]; exact ⟨nofun, nofun⟩
    · rfl
  have hautomatic : s.chain.duty ≠ .notFitted → q.chain.mode = .automatic → t.chain.duty = t.dutyChosen := fun hd hx => by
    rw [hduty', hchoice, if_pos ⟨hx, fun hy => hd (hunfitted.mp hy)⟩]
  refine ⟨h, hleft, fun hd => ?_, fun hd => ⟨fun hx _ => ?_, fun _ hf => absurd hf hnofault, fun _ _ _ hx => absurd hx ha, fun hx _ _ => ?_,
    fun hna hnp _ _ => ?_, fun _ _ hx => absurd hx ha, fun _ hno => absurd hrecovers hno⟩, ?_⟩
  · rw [hduty', if_neg (fun hx => hx.2 (hunfitted.mpr hd)), hunfitted.mpr hd]
  · exact hautomatic hd (by rw [hmode, hx]; rfl)
  · exact hautomatic hd (by rw [hmode, if_pos hx])
  · rw [hduty', if_neg (fun hx => hna (by rw [hmode, if_neg hnp] at hx; exact hx.1)), hduty]
  · rw [hmode', hmode]
    by_cases hx : s.chain.mode = .pinned a
    · rw [if_pos hx, if_pos ⟨hfault, hstill, hx, ha⟩]
    · rw [if_neg hx, if_neg (fun hy => hx hy.2.2.1)]

end Sys2Proof.Machine
end

section
/-! Replies and misses judged (R126 to R130). -/

namespace Sys2Proof.Machine

/-- The event of the kind is latched on both links with the panel's address. -/
def Part.Tells (m : Part) (a : Nat) (k : EventKind) : Prop := ∀ l, (m.port l).isLatched k = true ∧
  ((m.port l).subjects.length = 29 → (m.port l).subject k = BitVec.ofNat 16 a)

theorem Part.tells_panelTold (p : Part) (a : Nat) (f : Panel → Panel) (k : EventKind) : (p.panelTold a f k).Tells a k := fun l => by
  unfold Part.panelTold Part.latchNat
  rw [Part.latch_port]
  generalize (p.modPanel a f).port l = x
  refine ⟨Port.latch_isLatched_same x k _, fun hlen => Port.latch_subject_same x k _ ?_⟩
  rw [← hlen]
  exact (updateAt_length _ _ _).symm

theorem Part.tells_raised {p : Part} {a : Nat} : (p.raised a .warm).Tells a .thermalWarning := by
  rw [Part.raised, if_pos rfl]
  exact p.tells_panelTold a _ _

/-- Events that are latched stay so while other kinds are. -/
theorem Part.Tells.raised {p : Part} {a : Nat} {k : EventKind} (h : p.Tells a k) (hk : k ≠ .thermalWarning) (st : PanelState) :
    (p.raised a st).Tells a k := fun l => by
  have hport : (p.port l).Latches (· = .thermalWarning) ((p.raised a st).port l) := by
    unfold Part.raised
    split
    · unfold Part.panelTold Part.latchNat
      rw [Part.latch_port, Part.modPanel_port]
      exact Port.latches_latch (sel := (· = .thermalWarning)) _ rfl _
    · rw [Part.modPanel_port]
      exact .refl _ _
  obtain ⟨hflag, hsubject⟩ := h l
  obtain ⟨hflag', hsubject'⟩ := hport.other k hk
  exact ⟨hflag'.trans hflag, fun hlen => hsubject'.trans (hsubject (hport.length ▸ hlen))⟩

/-! ## A good reply to a panel that is not FAULTED (R128) -/

/-- The state that a good reply below 85 degrees with a working driver brings. -/
def PanelState.heard (w : PanelState) (t : Int) : PanelState :=
  if 70 ≤ t then .warm else if 65 ≤ t ∧ w = .warm then .warm else .active

theorem PanelState.heard_up (w : PanelState) (t : Int) : (w.heard t).up := by
  unfold PanelState.heard
  split
  · exact Or.inr rfl
  · split
    · exact Or.inr rfl
    · exact Or.inl rfl

/-- A good reply enters the state it brings, or finds the panel there. -/
theorem Part.judge_up {p : Part} {a : Nat} {t : Int} (ht : t < 85) (hnot : (p.chain.panel a).isFaulted = false) :
    p.judge a t false = p ∧ (p.chain.panel a).state.heard t = (p.chain.panel a).state ∧ (p.chain.panel a).state ≠ .starting ∨
    p.judge a t false = p.enterUp a ((p.chain.panel a).state.heard t) := by
  have hfault : ∀ why, (p.chain.panel a).state ≠ .faulted why := fun why hw => by
    unfold Panel.isFaulted at hnot
    rw [hw] at hnot
    cases hnot
  unfold Part.judge PanelState.heard
  dsimp only
  rw [if_neg (by omega), if_neg Bool.false_ne_true]
  generalize (p.chain.panel a).state = st at *
  by_cases h70 : 70 ≤ t
  · simp only [if_pos h70]
    cases st with
    | warm => exact Or.inl ⟨rfl, rfl, nofun⟩
    | starting => exact Or.inr rfl
    | active => exact Or.inr rfl
    | faulted why => exact absurd rfl (hfault why)
  · simp only [if_neg h70]
    by_cases h65 : 65 ≤ t
    · simp only [h65, true_and]
      cases st with
      | warm => exact Or.inl ⟨rfl, rfl, nofun⟩
      | starting => exact Or.inr rfl
      | active => exact Or.inl ⟨rfl, rfl, nofun⟩
      | faulted why => exact absurd rfl (hfault why)
    · simp only [h65, false_and, if_false]
      cases st with
      | warm => exact Or.inr rfl
      | starting => exact Or.inr rfl
      | active => exact Or.inl ⟨rfl, rfl, nofun⟩
      | faulted why => exact absurd rfl (hfault why)

theorem Part.judge_fault {p : Part} {a : Nat} {t : Int} {driver : Bool} (h : 85 ≤ t ∨ driver = true) :
    p.judge a t driver = p.enterFault a (if 85 ≤ t then .thermal else .driver) := by
  unfold Part.judge
  dsimp only
  by_cases ht : 85 ≤ t
  · rw [if_pos ht, if_pos ht]
  · rw [if_neg ht, if_neg ht, if_pos (h.resolve_left ht)]

theorem Part.judged_judge_fault {s p : Part} {a : Nat} {t : Int} {driver : Bool} (hs : s.Judging a) (h : s.PanelSet p a)
    (hnot : (s.chain.panel a).isFaulted = false) (hbad : 85 ≤ t ∨ driver = true) :
    ∃ m, s.Judged m (p.judge a t driver) a ∧ m.Tells a .panelFault ∧
      m.chain.panel a = (p.chain.panel a).faulted (if 85 ≤ t then .thermal else .driver) := by
  rw [Part.judge_fault hbad]
  exact ⟨_, Part.judged_enterFault hs h hnot _, p.tells_panelTold a _ _, (hs.of_set h).panelTold _ _⟩

theorem Part.judged_judge_up {s p : Part} {a : Nat} {t : Int} (hs : s.Judging a) (h : s.PanelSet p a)
    (hsame : (p.chain.panel a).state = (s.chain.panel a).state) (hnot : (s.chain.panel a).isFaulted = false) (ht : t < 85) :
    ∃ m, s.Judged m (p.judge a t false) a ∧
      (70 ≤ t → (s.chain.panel a).state ≠ .warm → m.Tells a .thermalWarning) ∧
      m.chain.panel a = { p.chain.panel a with state := (s.chain.panel a).state.heard t } := by
  have hpnot := (Panel.isFaulted_of_state hsame).trans hnot
  rcases Part.judge_up ht hpnot with ⟨heq, hstate, hstart⟩ | heq
  · rw [heq]
    rw [hsame] at hstate
    refine ⟨p, Part.judged_quiet h (hpnot.trans hnot.symm) fun hx => absurd (hsame.trans hx.2.1) hstart, fun h70 hw => ?_, ?_⟩
    · rw [PanelState.heard, if_pos h70] at hstate
      exact absurd hstate.symm hw
    · rw [hstate, ← hsame]
  · rw [heq, hsame]
    refine ⟨_, Part.judged_enterUp hs h hsame hnot (PanelState.heard_up _ t), fun h70 _ => ?_, (hs.of_set h).panel_raised _⟩
    rw [PanelState.heard, if_pos h70]
    exact Part.tells_raised

/-! ## A good reply to a FAULTED panel (R130) -/

/-- A recovered panel's record. -/
def Panel.recovered (n : Panel) (st : PanelState) : Panel := { n with state := st, misses := 0, refresh := true }

theorem Part.judge_active {p : Part} {a : Nat} {t : Int} (ht : t < 85) (hactive : (p.chain.panel a).state = .active) :
    p.judge a t false = if 70 ≤ t then p.raised a .warm else p := by
  unfold Part.judge
  dsimp only
  rw [if_neg (by omega), if_neg Bool.false_ne_true, hactive]
  by_cases h70 : 70 ≤ t
  · have hno : ¬(a = 13 ∧ (p.chain.panel a).state = .starting) := fun h => by rw [hactive] at h; cases h.2
    rw [if_pos h70, if_pos h70, if_neg (by decide), Part.enterUp_eq, if_neg hno]
  · rw [if_neg h70, if_neg h70]
    split <;> rfl

theorem Part.judged_recover {s p : Part} {a : Nat} {t : Int} (hs : s.Judging a) (h : s.PanelSet p a)
    (hfault : (s.chain.panel a).isFaulted = true) (ht : t < 85) :
    ∃ m, s.Judged m (p.recover a t) a ∧ m.Tells a .panelRecovered ∧
      m.chain.panel a = (p.chain.panel a).recovered (if 70 ≤ t then .warm else .active) := by
  have hp := hs.of_set h
  have hdef : p.recover a t = (if a == 13 then ((p.panelTold a (·.recovered .active) .panelRecovered).judge a t false).repin
      else ((p.panelTold a (·.recovered .active) .panelRecovered).judge a t false).leaveRecovered a).chooseSpare := rfl
  have hset := h.trans (hp.set_told (·.recovered .active) (k := .panelRecovered) (by decide))
  have hpanel : (p.panelTold a (·.recovered .active) .panelRecovered).chain.panel a = (p.chain.panel a).recovered .active := hp.panelTold _ _
  have htells := p.tells_panelTold a (·.recovered .active) .panelRecovered
  rw [hdef, Part.judge_active ht (by rw [hpanel]; rfl)]
  generalize p.panelTold a (·.recovered .active) .panelRecovered = q at *
  have hq := hs.of_set hset
  have hm : s.PanelSet (if 70 ≤ t then q.raised a .warm else q) a ∧ (if 70 ≤ t then q.raised a .warm else q).Tells a .panelRecovered ∧
      (if 70 ≤ t then q.raised a .warm else q).chain.panel a = (p.chain.panel a).recovered (if 70 ≤ t then .warm else .active) := by
    by_cases h70 : 70 ≤ t
    · simp only [if_pos h70]
      refine ⟨hset.trans (hq.set_raised _), htells.raised (by decide) _, ?_⟩
      rw [hq.panel_raised, hpanel]
      rfl
    · simp only [if_neg h70]
      exact ⟨hset, htells, hpanel⟩
  generalize (if 70 ≤ t then q.raised a .warm else q) = m at *
  obtain ⟨hmset, hmtells, hmpanel⟩ := hm
  have hup : (m.chain.panel a).isUp = true := by
    rw [hmpanel]
    split <;> rfl
  refine ⟨m, ?_, hmtells, hmpanel⟩
  by_cases ha : a = 13
  · subst ha
    exact Part.judged_spareRecovered hs hmset hfault hup
  · rw [if_neg (by simpa using ha)]
    exact Part.judged_otherRecovered hs hmset hfault hup ha

/-- A panel that stays FAULTED. -/
theorem Part.judged_stillFaulted {s p : Part} {a : Nat} (hs : s.Judging a) (h : s.PanelSet p a) (hfault : (s.chain.panel a).isFaulted = true)
    (f : Panel → Panel) (hf : (f (p.chain.panel a)).isFaulted = true) : s.Judged (p.modPanel a f) (p.modPanel a f) a := by
  have hp := hs.of_set h
  refine Part.judged_quiet (h.trans (hp.modPanel f)) ?_ fun hx => ?_
  · rw [hp.panel, hf, hfault]
  · have := hx.2.1
    unfold Panel.isFaulted at hfault
    rw [this] at hfault
    cases hfault

/-- The reason of a panel that a good reply leaves FAULTED. -/
def FaultReason.heard (why : FaultReason) (t : Int) (driver : Bool) : FaultReason :=
  if 85 ≤ t then .thermal else if driver then (if why = .thermal then .thermal else .driver) else why

/-- A good reply that does not count towards recovery. -/
theorem Part.judged_faultedReply_bad {s p : Part} {a : Nat} {t : Int} {driver : Bool} {why : FaultReason} (hs : s.Judging a) (h : s.PanelSet p a)
    (hfault : (s.chain.panel a).isFaulted = true) (hwhy : (p.chain.panel a).state = .faulted why)
    (hbad : 85 ≤ t ∨ driver = true ∨ why = .thermal ∧ 65 ≤ t) :
    ∃ m, s.Judged m (p.faultedReply a why t driver) a ∧
      m.chain.panel a = { p.chain.panel a with state := .faulted (why.heard t driver), recovery := 0 } := by
  have hp := hs.of_set h
  have hdef : p.faultedReply a why t driver =
      p.modPanel a fun n => { n with state := if 85 ≤ t ∨ driver = true then .faulted (why.heard t driver) else n.state, recovery := 0 } := by
    unfold Part.faultedReply FaultReason.heard
    dsimp only
    by_cases h85 : 85 ≤ t
    · simp only [h85, true_or, if_true]
    · cases driver with
      | true =>
        simp only [if_neg h85, if_true, or_true, beq_iff_eq]
      | false =>
        have hboth : why = .thermal ∧ 65 ≤ t := by simpa [h85] using hbad
        simp only [h85, false_or, Bool.false_eq_true, if_false]
        rw [if_pos (by simpa using hboth)]
        rfl
  rw [hdef]
  refine ⟨_, Part.judged_stillFaulted hs h hfault _ ?_, ?_⟩
  · split
    · rfl
    · unfold Panel.isFaulted
      rw [hwhy]
  · rw [hp.panel]
    split
    · rfl
    · next hno =>
      rw [hwhy, FaultReason.heard, if_neg (fun hx => hno (Or.inl hx)), if_neg (fun hx => hno (Or.inr hx))]

/-- A good reply that counts towards recovery. -/
theorem Part.judged_faultedReply_good {s p : Part} {a : Nat} {t : Int} {why : FaultReason} (hs : s.Judging a) (h : s.PanelSet p a)
    (hfault : (s.chain.panel a).isFaulted = true) (hwhy : (p.chain.panel a).state = .faulted why)
    (ht : t < 85) (hcool : why = .thermal → t < 65) :
    ((p.chain.panel a).recovery < 7 → ∃ m, s.Judged m (p.faultedReply a why t false) a ∧
      m.chain.panel a = { p.chain.panel a with recovery := (p.chain.panel a).recovery + 1 }) ∧
    (7 ≤ (p.chain.panel a).recovery → ∃ m, s.Judged m (p.faultedReply a why t false) a ∧ m.Tells a .panelRecovered ∧
      m.chain.panel a = ({ p.chain.panel a with recovery := (p.chain.panel a).recovery + 1 } : Panel).recovered
        (if 70 ≤ t then .warm else .active)) := by
  have hp := hs.of_set h
  have hdef : p.faultedReply a why t false = if 8 ≤ (p.chain.panel a).recovery + 1
      then (p.setRecovery a ((p.chain.panel a).recovery + 1)).recover a t else p.setRecovery a ((p.chain.panel a).recovery + 1) := by
    unfold Part.faultedReply
    dsimp only
    rw [if_neg (by omega), if_neg Bool.false_ne_true, if_neg]
    simp only [Bool.and_eq_true, beq_iff_eq, decide_eq_true_eq]
    exact fun ⟨hx, hy⟩ => absurd (hcool hx) (by omega)
  have hpanel : (p.setRecovery a ((p.chain.panel a).recovery + 1)).chain.panel a =
      { p.chain.panel a with recovery := (p.chain.panel a).recovery + 1 } := hp.panel _
  refine ⟨fun hlow => ?_, fun hhigh => ?_⟩
  · rw [hdef, if_neg (by omega)]
    refine ⟨_, Part.judged_stillFaulted hs h hfault _ ?_, hpanel⟩
    unfold Panel.isFaulted
    dsimp only
    rw [hwhy]
  · rw [hdef, if_pos (by omega), ← hpanel]
    exact Part.judged_recover hs (h.trans (hp.modPanel _)) hfault ht

/-! ## A miss or an invalid reply (R129, R130) -/

theorem Part.badReply_faulted {s : Part} {a : Nat} (hs : s.Judging a) (hfault : (s.chain.panel a).isFaulted = true) :
    ∃ m, s.Judged m (s.badReply a) a ∧ m.chain.panel a = { s.chain.panel a with refresh := true, recovery := 0 } := by
  have hset := hs.modPanel fun n => { n with refresh := true }
  have hpanel := hs.panel fun n => { n with refresh := true }
  have hdef : ∀ why, ((s.modPanel a fun n => { n with refresh := true }).chain.panel a).state = .faulted why →
      s.badReply a = (s.modPanel a fun n => { n with refresh := true }).setRecovery a 0 := fun why hw => by
    unfold Part.badReply
    dsimp only
    rw [hw]
  have hwhy : ∃ why, ((s.modPanel a fun n => { n with refresh := true }).chain.panel a).state = .faulted why := by
    rw [hpanel]
    unfold Panel.isFaulted at hfault
    split at hfault
    · next why hw => exact ⟨why, hw⟩
    · cases hfault
  obtain ⟨why, hwhy⟩ := hwhy
  rw [hdef why hwhy]
  generalize (s.modPanel a fun n => { n with refresh := true }) = p at *
  refine ⟨_, Part.judged_stillFaulted hs hset hfault _ ?_, ?_⟩
  · unfold Panel.isFaulted
    dsimp only
    rw [hwhy]
  · exact ((hs.of_set hset).panel _).trans (congrArg (fun x : Panel => { x with recovery := 0 }) hpanel :)

theorem Part.badReply_up {s : Part} {a : Nat} (hs : s.Judging a) (hnot : (s.chain.panel a).isFaulted = false) :
    ((s.chain.panel a).misses < 2 → ∃ m, s.Judged m (s.badReply a) a ∧
      m.chain.panel a = { s.chain.panel a with refresh := true, misses := (s.chain.panel a).misses + 1 }) ∧
    (2 ≤ (s.chain.panel a).misses → ∃ m, s.Judged m (s.badReply a) a ∧ m.Tells a .panelFault ∧
      m.chain.panel a = ({ s.chain.panel a with refresh := true } : Panel).faulted .silent) := by
  have hset := hs.modPanel fun n => { n with refresh := true }
  have hpanel := hs.panel fun n => { n with refresh := true }
  have hdef : s.badReply a = if 3 ≤ (s.chain.panel a).misses + 1
      then (s.modPanel a fun n => { n with refresh := true }).enterFault a .silent
      else (s.modPanel a fun n => { n with refresh := true }).modPanel a fun n => { n with misses := (s.chain.panel a).misses + 1 } := by
    unfold Part.badReply
    dsimp only
    rw [hpanel]
    dsimp only
    unfold Panel.isFaulted at hnot
    split
    · next why hw => rw [hw] at hnot; cases hnot
    all_goals rfl
  rw [hdef]
  generalize (s.modPanel a fun n => { n with refresh := true }) = p at *
  refine ⟨fun hlow => ?_, fun hhigh => ?_⟩
  · have hp := hs.of_set hset
    rw [if_neg (by omega)]
    have hafter : (p.modPanel a fun n => { n with misses := (s.chain.panel a).misses + 1 }).chain.panel a =
        { s.chain.panel a with refresh := true, misses := (s.chain.panel a).misses + 1 } :=
      (hp.panel _).trans (congrArg (fun x : Panel => { x with misses := (s.chain.panel a).misses + 1 }) hpanel :)
    refine ⟨_, Part.judged_quiet (hset.trans (hp.modPanel _)) ?_ fun hx => ?_, hafter⟩
    · rw [hafter]
      rfl
    · have hup := hx.2.2
      obtain ⟨ha, hstart, _⟩ := hx
      rw [← ha, hafter] at hup
      unfold Panel.isUp at hup
      dsimp only at hup
      rw [hstart] at hup
      cases hup
  · rw [if_pos (by omega), ← hpanel]
    exact ⟨_, Part.judged_enterFault hs hset hnot _, p.tells_panelTold a _ _, (hs.of_set hset).panelTold _ _⟩

end Sys2Proof.Machine
end

section
/-! What the end of a poll leaves (O44). -/

namespace Sys2Proof.Machine

/-! ## A good reply -/

/-- A reply that is good (R126). -/
def GoodReply (poll : Poll) (r : PanelReplyFrame) : Prop :=
  r.checkOk = true ∧ r.address.toNat = poll.frame.address ∧ r.generation.toNat = poll.frame.generation ∧
    -40 ≤ r.temperature.toInt ∧ r.temperature.toInt ≤ 125 ∧ r.lineCheck = lineCheck poll.shows

theorem goodPanelReply_iff (poll : Poll) (r : PanelReplyFrame) : goodPanelReply poll r = true ↔ GoodReply poll r := by
  simp only [goodPanelReply, GoodReply, Bool.and_eq_true, beq_iff_eq, decide_eq_true_eq, and_assoc]

theorem Part.goodReply_faulted {s : Part} {poll : Poll} (hs : s.Judging poll.frame.address) {why : FaultReason}
    (hw : (s.chain.panel poll.frame.address).state = .faulted why) (t : Int) (d : Bool) : ∃ p, s.PanelSet p poll.frame.address ∧
      p.chain.panel poll.frame.address = (s.chain.panel poll.frame.address).heard poll t d ∧
      s.goodReply poll t d = p.faultedReply poll.frame.address why t d := by
  have hpanel := hs.panel fun n => n.heard poll t d
  refine ⟨_, hs.modPanel fun n => n.heard poll t d, hpanel, ?_⟩
  unfold Part.goodReply
  dsimp only
  rw [hpanel, Panel.heard_state, hw]

theorem Part.goodReply_up {s : Part} {poll : Poll} (hs : s.Judging poll.frame.address)
    (hnot : (s.chain.panel poll.frame.address).isFaulted = false) (t : Int) (d : Bool) : ∃ p, s.PanelSet p poll.frame.address ∧
      p.chain.panel poll.frame.address = { (s.chain.panel poll.frame.address).heard poll t d with misses := 0 } ∧
      s.goodReply poll t d = p.judge poll.frame.address t d := by
  have hset := hs.modPanel fun n => n.heard poll t d
  have hpanel := hs.panel fun n => n.heard poll t d
  have hdef : s.goodReply poll t d =
      ((s.modPanel poll.frame.address fun n => n.heard poll t d).modPanel poll.frame.address fun n => { n with misses := 0 }).judge
        poll.frame.address t d := by
    unfold Panel.isFaulted at hnot
    unfold Part.goodReply
    dsimp only
    rw [hpanel, Panel.heard_state]
    split
    · next why hw => rw [hw] at hnot; cases hnot
    all_goals rfl
  generalize (s.modPanel poll.frame.address fun n => n.heard poll t d) = p at *
  exact ⟨_, hset.trans ((hs.of_set hset).modPanel _), ((hs.of_set hset).panel _).trans
    (congrArg (fun x : Panel => { x with misses := 0 }) hpanel :), hdef⟩

/-! ## The next poll and the end of the event -/

/-- A part whose poll has been taken for processing. -/
def Part.pollTaken (p : Part) : Part := Part.begin { p with chain := { p.chain with poll := none } }

/-- The other panels are as they were, but for what a change of duty does to the spare's. -/
def Part.OthersKept (s p : Part) (a : Nat) : Prop := ∀ b, 1 ≤ b → b ≤ 13 → b ≠ a →
  (p.chain.panel b).state = (s.chain.panel b).state ∧ (b ≠ 13 → p.chain.panel b = s.chain.panel b)

/-- What a change of duty does to the spare's panel, and the event it latches (R133). -/
def Part.SpareTold (s p : Part) (a : Nat) : Prop :=
  (p.chain.duty ≠ s.chain.duty → (p.chain.panel 13).ack = 0 ∧ (p.chain.panel 13).refresh = true ∧
    ∀ l, (p.port l).isLatched .spareChanged = true ∧ ((s.port l).subjects.length = 29 →
      (p.port l).subject .spareChanged = BitVec.ofNat 16 (p.chain.duty.covers.getD 0))) ∧
  (p.chain.duty = s.chain.duty → a ≠ 13 → p.chain.panel 13 = s.chain.panel 13)

/-- The next poll of the cycle has been sent, if there is one (R124). -/
def Part.NextPolled (s p : Part) : Prop :=
  let clears : Bool := s.chain.clearDue || decide (p.chain.duty ≠ s.chain.duty)
  (s.chain.cycleRest = [] → p.chain.poll = none ∧ p.chain.cycleRest = [] ∧ p.chain.clearDue = clears ∧
    p.chain.lastSent = s.chain.lastSent) ∧
  (∀ b rest, s.chain.cycleRest = b :: rest →
    let frame : PollFrame := { p.pollFrame b with clear := b == 13 && clears }
    p.chain.poll = some { frame := frame, shows := p.panelShows b, sentAt := p.elapsed, superseded := false } ∧
    p.chain.cycleRest = rest ∧ p.chain.clearDue = (clears && b != 13) ∧ p.chain.lastSent = some frame) ∧
  p.chain.nextCycleAt = s.chain.nextCycleAt ∧ p.chain.test = s.chain.test ∧ p.elapsed = s.elapsed ∧ p.image = s.image

/-- What the next poll leaves as it is, and what it writes. -/
theorem Part.nextPoll_frame (q : Part) : q.nextPoll = { q with chain := { q.chain with
    poll := q.nextPoll.chain.poll, cycleRest := q.nextPoll.chain.cycleRest, clearDue := q.nextPoll.chain.clearDue,
    lastSent := q.nextPoll.chain.lastSent } } := by
  unfold Part.nextPoll
  split <;> rfl

theorem Part.nextPoll_none {q : Part} (h : q.chain.cycleRest = []) : q.nextPoll = q := by
  unfold Part.nextPoll
  rw [h]

theorem Part.nextPoll_some {q : Part} {b : Nat} {rest : List Nat} (h : q.chain.cycleRest = b :: rest) : q.nextPoll = q.sendPoll b rest := by
  unfold Part.nextPoll
  rw [h]

/-- A poll is composed from the image, the panels, the duty and the settings. -/
theorem Part.pollFrame_congr {p q : Part} (himage : q.image = p.image) (hown : q.own = p.own) (hpanels : q.chain.panels = p.chain.panels)
    (hduty : q.chain.duty = p.chain.duty) (b : Nat) (clear : Bool) :
    ({ q.pollFrame b with clear := clear } : PollFrame) = { p.pollFrame b with clear := clear } ∧ q.panelShows b = p.panelShows b := by
  unfold Part.pollFrame Part.pollCarries Part.panelShows Part.globalLevel Chain.shownPosition Chain.panel
  dsimp only
  rw [himage, hown, hpanels, hduty]
  exact ⟨rfl, rfl⟩

/-- What the end of the event leaves of a part after a reply has been judged. -/
structure Part.PollEnded (q r : Part) : Prop where
  chain : r.chain = q.nextPoll.chain
  image : r.image = q.image
  elapsed : r.elapsed = q.elapsed
  own : r.own = q.own
  port : ∀ l, (q.port l).Latches (· = .cueFailed) (r.port l)

theorem Part.pollEnded {q : Part} (hev : q.ev.wallTold = false) : q.PollEnded q.nextPoll.finish := by
  have hframe := q.nextPoll_frame
  have hev' : q.nextPoll.ev.wallTold = false := (congrArg (fun x : Part => x.ev.wallTold) hframe :).trans hev
  have himage : q.nextPoll.image = q.image := (congrArg Part.image hframe :)
  have helapsed : q.nextPoll.elapsed = q.elapsed := (congrArg Part.elapsed hframe :)
  have hown : q.nextPoll.own = q.own := (congrArg Part.own hframe :)
  have hport (l : Link) : q.nextPoll.port l = q.port l := by
    cases l
    · exact (congrArg Part.info hframe :)
    · exact (congrArg Part.ctl hframe :)
  generalize hq : q.nextPoll = n at *
  refine ⟨(Part.finish_chain _).trans (congrArg Part.chain hq.symm), ?_, (Part.finish_elapsed _).trans helapsed,
    (Part.finish_own _).trans hown, fun l => hport l ▸ n.finish_port l⟩
  rw [Part.finish_eq_ended, Part.ended_image, hev', if_neg Bool.false_ne_true, himage]

theorem Part.PollEnded.panels {q r : Part} (h : q.PollEnded r) : r.chain.panels = q.chain.panels :=
  (congrArg Chain.panels h.chain :).trans (congrArg (fun x : Part => x.chain.panels) q.nextPoll_frame :)

theorem Part.PollEnded.panel {q r : Part} (h : q.PollEnded r) (b : Nat) : r.chain.panel b = q.chain.panel b := by
  unfold Chain.panel
  rw [h.panels]

theorem Part.PollEnded.duty {q r : Part} (h : q.PollEnded r) : r.chain.duty = q.chain.duty :=
  (congrArg Chain.duty h.chain :).trans (congrArg (fun x : Part => x.chain.duty) q.nextPoll_frame :)

theorem Part.PollEnded.mode {q r : Part} (h : q.PollEnded r) : r.chain.mode = q.chain.mode :=
  (congrArg Chain.mode h.chain :).trans (congrArg (fun x : Part => x.chain.mode) q.nextPoll_frame :)

theorem Part.PollEnded.positions {q r : Part} (h : q.PollEnded r) : r.chain.positions = q.chain.positions :=
  (congrArg Chain.positions h.chain :).trans (congrArg (fun x : Part => x.chain.positions) q.nextPoll_frame :)

theorem Part.PollEnded.fixed {q r : Part} (h : q.PollEnded r) : r.chain.nextCycleAt = q.chain.nextCycleAt ∧ r.chain.test = q.chain.test :=
  ⟨(congrArg Chain.nextCycleAt h.chain :).trans (congrArg (fun x : Part => x.chain.nextCycleAt) q.nextPoll_frame :),
    (congrArg Chain.test h.chain :).trans (congrArg (fun x : Part => x.chain.test) q.nextPoll_frame :)⟩

theorem Part.PollEnded.dutyChosen {q r : Part} (h : q.PollEnded r) : r.dutyChosen = q.dutyChosen :=
  Part.dutyChosen_congr (Part.spareChoice_congr h.panels h.positions h.image)

theorem Part.PollEnded.tells {q r : Part} (h : q.PollEnded r) {a : Nat} {k : EventKind} (hk : k ≠ .cueFailed) (ht : q.Tells a k) :
    r.Tells a k := fun l => by
  obtain ⟨hflag, hsubject⟩ := ht l
  obtain ⟨hflag', hsubject'⟩ := (h.port l).other k hk
  exact ⟨hflag'.trans hflag, fun hlen => hsubject'.trans (hsubject ((h.port l).length ▸ hlen))⟩

/-- The rule speaks of panels, duty, mode and choice alone. -/
theorem Part.SpareRule.congr {s q r : Part} {a : Nat} (h : s.SpareRule q a) (hpanel : ∀ b, r.chain.panel b = q.chain.panel b)
    (hduty : r.chain.duty = q.chain.duty) (hmode : r.chain.mode = q.chain.mode) (hchoice : r.dutyChosen = q.dutyChosen) :
    s.SpareRule r a := by
  obtain ⟨hunfit, hfit, hm⟩ := h
  constructor
  · rw [hduty]
    exact hunfit
  · unfold Chain.Faults Chain.Recovers Chain.SpareStarts at *
    rw [hduty, hchoice, hpanel, hpanel]
    exact hfit
  · rw [hmode, hpanel]
    exact hm

/-! ## A reply judged, to its end -/

variable {s m q r : Part} {a : Nat}

theorem Part.Judged.tells (h : s.Judged m q a) (he : q.PollEnded r) {k : EventKind} (hk : k ≠ .cueFailed) (hk' : k ≠ .spareChanged)
    (ht : m.Tells a k) : r.Tells a k := he.tells hk fun l => by
  obtain ⟨hflag, hsubject⟩ := ht l
  obtain ⟨hflag', hsubject'⟩ := (h.duty.port l).other k hk'
  exact ⟨hflag'.trans hflag, fun hlen => hsubject'.trans (hsubject ((h.duty.port l).length ▸ hlen))⟩

theorem Part.Judged.lengths (h : s.Judged m q a) (he : q.PollEnded r) (l : Link) : (r.port l).subjects.length = (s.port l).subjects.length :=
  (he.port l).length.trans ((h.duty.port l).length.trans (h.set.port l).length)

theorem Part.Judged.others (h : s.Judged m q a) (he : q.PollEnded r) : s.OthersKept r a := fun b hb _ hne => by
  rw [he.panel]
  refine ⟨?_, fun h13 => ?_⟩
  · rw [h.duty.states b, h.set.other b hb hne]
  · rw [h.duty.panel_kept hb (Or.inl h13), h.set.other b hb hne]

theorem Part.Judged.ruled (h : s.Judged m q a) (he : q.PollEnded r) : s.SpareRule r a :=
  h.rule.congr he.panel he.duty he.mode he.dutyChosen

theorem Part.Judged.told (h : s.Judged m q a) (he : q.PollEnded r) (hs : s.Judging a) : s.SpareTold r a := by
  unfold Part.SpareTold
  rw [he.duty, he.panel, ← h.set.duty]
  refine ⟨fun hd => ?_, fun hd ha => ?_⟩
  · obtain ⟨hack, hrefresh⟩ := h.duty.panel_anew (h.set.length.trans hs.length) hd
    refine ⟨hack, hrefresh, fun l => ?_⟩
    obtain ⟨hflag, hsubject⟩ := h.duty.told hd l
    obtain ⟨hflag', hsubject'⟩ := (he.port l).other .spareChanged (by decide)
    exact ⟨hflag'.trans hflag, fun hlen => hsubject'.trans (hsubject ((h.set.port l).length.trans hlen))⟩
  · rw [h.duty.panel_kept (by omega) (Or.inr hd), h.set.other 13 (by omega) (Ne.symm ha)]

/-- The chain after the reply but for the panels: the spare's duty and mode are what is written. -/
theorem Part.Judged.chain (h : s.Judged m q a) : q.chain = { s.chain with
    duty := q.chain.duty, mode := q.chain.mode, panels := q.chain.panels
    clearDue := s.chain.clearDue || decide (q.chain.duty ≠ s.chain.duty) } := by
  refine h.duty.chain.trans ?_
  rw [h.set.duty]
  exact (congrArg (fun c : Chain => { c with
    duty := q.chain.duty, mode := q.chain.mode, panels := q.chain.panels,
    clearDue := c.clearDue || decide (q.chain.duty ≠ s.chain.duty) }) h.set.chain :)

theorem Part.Judged.next (h : s.Judged m q a) (he : q.PollEnded r) (hs : s.Judging a) : s.NextPolled r := by
  have hrest : q.beyondChain = s.beyondChain := h.duty.rest.trans h.set.rest
  have hchain := h.chain
  have hcycle : q.chain.cycleRest = s.chain.cycleRest := (congrArg Chain.cycleRest hchain :)
  have hclear : q.chain.clearDue = (s.chain.clearDue || decide (q.chain.duty ≠ s.chain.duty)) := (congrArg Chain.clearDue hchain :)
  have hpoll : q.chain.poll = none := h.duty.poll.trans (h.set.poll.trans hs.poll)
  have hsent : q.chain.lastSent = s.chain.lastSent := (congrArg Chain.lastSent hchain :)
  have hat : q.chain.nextCycleAt = s.chain.nextCycleAt := (congrArg Chain.nextCycleAt hchain :)
  have htest : q.chain.test = s.chain.test := (congrArg Chain.test hchain :)
  unfold Part.NextPolled
  dsimp only
  rw [he.duty, ← hclear]
  refine ⟨fun hnil => ?_, fun b rest hcons => ?_, he.fixed.1.trans hat, he.fixed.2.trans htest,
    he.elapsed.trans (Part.elapsed_of_chain hrest), he.image.trans (Part.image_of_chain hrest)⟩
  · have hr := he.chain
    rw [Part.nextPoll_none (hcycle.trans hnil)] at hr
    rw [hr]
    exact ⟨hpoll, hcycle.trans hnil, rfl, hsent⟩
  · obtain ⟨hframe, hshows⟩ := Part.pollFrame_congr he.image he.own he.panels he.duty b (b == 13 && q.chain.clearDue)
    have hr := he.chain
    rw [Part.nextPoll_some (hcycle.trans hcons)] at hr
    rw [hframe, hshows, hr, he.elapsed]
    exact ⟨rfl, rfl, rfl, rfl⟩

end Sys2Proof.Machine
end

section
/-! A panel's reply or miss, from the command to the next poll (O44). -/

namespace Sys2Proof.Machine

theorem Part.endPoll_complete {p : Part} {poll : Poll} (hp : p.chain.poll = some poll) (hr : p.chain.reset = .complete)
    (f : Poll → Part → Part) : p.endPoll f = (f poll p.pollTaken).nextPoll.finish := by
  unfold Part.endPoll
  rw [hp]
  dsimp only [Part.modChain]
  split
  · rfl
  · next h => exact nomatch hr.symm.trans h
  · next h => exact nomatch hr.symm.trans h

theorem Part.endPoll_awaiting {p : Part} {poll : Poll} (hp : p.chain.poll = some poll) (hr : p.chain.reset = .awaitingReply)
    (f : Poll → Part → Part) : p.endPoll f = { p with chain := { p.chain with poll := none, reset := .discarded } } := by
  unfold Part.endPoll
  rw [hp]
  dsimp only [Part.modChain]
  split
  · next h => exact nomatch hr.symm.trans h
  · rfl
  · next h => exact nomatch hr.symm.trans h

/-- A miss is a bad reply. -/
theorem leaves_badReply {s : State} {poll : Poll} {c : Instr} (hpow : s.part.powered = true) (hp : s.part.chain.poll = some poll)
    (hr : s.part.chain.reset = .complete) (hc : c = .panelReplyMiss ∨ ∃ r, c = .panelReply r ∧ ¬GoodReply poll r) :
    Leaves c s (s.part.pollTaken.badReply poll.frame.address).nextPoll.finish := by
  rcases hc with rfl | ⟨r, rfl, hbad⟩
  · exact leaves_act Part.panelMiss rfl hpow (Part.endPoll_complete hp hr _)
  · refine leaves_act (fun p => p.panelReply r) rfl hpow ((Part.endPoll_complete hp hr _).trans ?_)
    rw [if_neg (fun h => hbad ((goodPanelReply_iff poll r).mp h))]

theorem leaves_goodReply {s : State} {poll : Poll} {r : PanelReplyFrame} (hpow : s.part.powered = true) (hp : s.part.chain.poll = some poll)
    (hr : s.part.chain.reset = .complete) (hgood : GoodReply poll r) :
    Leaves (.panelReply r) s (s.part.pollTaken.goodReply poll r.temperature.toInt (r.flags.getLsbD 0)).nextPoll.finish := by
  refine leaves_act (fun p => p.panelReply r) rfl hpow ((Part.endPoll_complete hp hr _).trans ?_)
  rw [if_pos ((goodPanelReply_iff poll r).mpr hgood)]

theorem leaves_resetReply {s : State} {poll : Poll} {c : Instr} (hpow : s.part.powered = true) (hp : s.part.chain.poll = some poll)
    (hr : s.part.chain.reset = .awaitingReply) (hc : c = .panelReplyMiss ∨ ∃ r, c = .panelReply r) :
    Leaves c s { s.part with chain := { s.part.chain with poll := none, reset := .discarded } } := by
  rcases hc with rfl | ⟨r, rfl⟩
  · exact leaves_act Part.panelMiss rfl hpow (Part.endPoll_awaiting hp hr _)
  · exact leaves_act (fun p => p.panelReply r) rfl hpow (Part.endPoll_awaiting hp hr _)

/-! ## The panel's record -/

/-- The record at the end is the one written, but for what a change of duty does to the spare's. -/
theorem Part.Judged.record {s m q r : Part} {a : Nat} (h : s.Judged m q a) (he : q.PollEnded r) (hs : s.Judging a) :
    ∃ k f, r.chain.panel a = { m.chain.panel a with ack := k, refresh := f } ∧
      ((a ≠ 13 ∨ r.chain.duty = s.chain.duty) → k = (m.chain.panel a).ack ∧ f = (m.chain.panel a).refresh) ∧
      ((m.chain.panel a).ack = 0 → k = 0) ∧ ((m.chain.panel a).refresh = true → f = true) := by
  rw [he.panel, he.duty, ← h.set.duty]
  by_cases hkept : a ≠ 13 ∨ q.chain.duty = m.chain.duty
  · exact ⟨_, _, h.duty.panel_kept hs.low hkept, fun _ => ⟨rfl, rfl⟩, id, id⟩
  · obtain ⟨rfl, hd⟩ : a = 13 ∧ q.chain.duty ≠ m.chain.duty := ⟨by_contra fun hx => hkept (Or.inl hx), fun hx => hkept (Or.inr hx)⟩
    obtain ⟨k, f, hpanel⟩ := h.duty.panel 13
    obtain ⟨hack, hrefresh⟩ := h.duty.panel_anew (h.set.length.trans hs.length) hd
    rw [hpanel] at hack hrefresh
    exact ⟨k, f, hpanel, fun hx => absurd hx hkept, fun _ => hack, fun _ => hrefresh⟩

/-! ## The outcomes -/

/-- The reply to a poll has been judged: the other panels, the spare and the next poll are as the rules say. -/
structure Part.ReplyJudged (s p : Part) (a : Nat) : Prop where
  others : s.OthersKept p a
  rule : s.SpareRule p a
  told : s.SpareTold p a
  next : s.NextPolled p
  lengths : ∀ l, (p.port l).subjects.length = (s.port l).subjects.length

theorem Part.Judged.replyJudged {s m q r : Part} {a : Nat} (h : s.Judged m q a) (he : q.PollEnded r) (hs : s.Judging a) : s.ReplyJudged r a :=
  ⟨h.others he, h.ruled he, h.told he hs, h.next he hs, h.lengths he⟩

/-- What a miss or an invalid reply does to its panel (R126, R129, R130). -/
theorem Part.badReply_ended {s : Part} {a : Nat} (hs : s.Judging a) (hev : s.ev.wallTold = false) :
    let w := s.chain.panel a
    let p := (s.badReply a).nextPoll.finish
    let x := p.chain.panel a
    s.ReplyJudged p a ∧ x.refresh = true ∧ x.temperature = w.temperature ∧ x.driver = w.driver ∧
      (w.isFaulted = true → x.state = w.state ∧ x.recovery = 0) ∧
      (w.isFaulted = false → w.misses < 2 → x.state = w.state ∧ x.misses = w.misses + 1) ∧
      (w.isFaulted = false → 2 ≤ w.misses → x.state = .faulted .silent ∧ x.misses = 0 ∧ x.ack = 0 ∧ p.Tells a .panelFault) := by
  intro w p x
  have he : (s.badReply a).PollEnded p := Part.pollEnded ((congrArg (fun e => e.wallTold) (Part.ev_of_chain (s.badReply_beyondChain a))).trans hev)
  cases hw : w.isFaulted with
  | true =>
    obtain ⟨m, hm, hpanel⟩ := Part.badReply_faulted hs hw
    obtain ⟨k, f, hx, _, _, hf⟩ := hm.record he hs
    rw [hpanel] at hx hf
    exact ⟨hm.replyJudged he hs, (congrArg Panel.refresh hx).trans (hf rfl), (congrArg Panel.temperature hx :), (congrArg Panel.driver hx :),
      fun _ => ⟨(congrArg Panel.state hx :), (congrArg Panel.recovery hx :)⟩, nofun, nofun⟩
  | false =>
    obtain ⟨hfew, hmany⟩ := Part.badReply_up hs hw
    by_cases hmiss : w.misses < 2
    · obtain ⟨m, hm, hpanel⟩ := hfew hmiss
      obtain ⟨k, f, hx, _, _, hf⟩ := hm.record he hs
      rw [hpanel] at hx hf
      exact ⟨hm.replyJudged he hs, (congrArg Panel.refresh hx).trans (hf rfl), (congrArg Panel.temperature hx :), (congrArg Panel.driver hx :),
        nofun, fun _ _ => ⟨(congrArg Panel.state hx :), (congrArg Panel.misses hx :)⟩, fun _ h => absurd hmiss (Nat.not_lt.mpr h)⟩
    · obtain ⟨m, hm, htells, hpanel⟩ := hmany (Nat.not_lt.mp hmiss)
      obtain ⟨k, f, hx, _, hk, hf⟩ := hm.record he hs
      rw [hpanel] at hx hk hf
      exact ⟨hm.replyJudged he hs, (congrArg Panel.refresh hx).trans (hf rfl), (congrArg Panel.temperature hx :), (congrArg Panel.driver hx :),
        nofun, fun _ h => absurd h hmiss, fun _ _ => ⟨(congrArg Panel.state hx :), (congrArg Panel.misses hx :), (congrArg Panel.ack hx).trans (hk rfl),
          hm.tells he (by decide) (by decide) htells⟩⟩

/-- What a good reply does to a panel that is not FAULTED (R128). -/
theorem Part.goodReply_ended_up {s : Part} {poll : Poll} (hs : s.Judging poll.frame.address) (hev : s.ev.wallTold = false) (t : Int) (d : Bool)
    (hw : (s.chain.panel poll.frame.address).isFaulted = false) :
    let a := poll.frame.address
    let w := s.chain.panel a
    let p := (s.goodReply poll t d).nextPoll.finish
    let x := p.chain.panel a
    s.ReplyJudged p a ∧ x.temperature = some t ∧ x.driver = d ∧ x.misses = 0 ∧
      (85 ≤ t ∨ d = true → x.state = .faulted (if 85 ≤ t then .thermal else .driver) ∧ x.ack = 0 ∧ x.refresh = true ∧ p.Tells a .panelFault) ∧
      (t < 85 → d = false → x.state = w.state.heard t ∧ (70 ≤ t → w.state ≠ .warm → p.Tells a .thermalWarning) ∧
        ((a ≠ 13 ∨ p.chain.duty = s.chain.duty) → x.ack = (if poll.superseded then w.ack else poll.frame.generation) ∧
          x.refresh = (poll.superseded && w.refresh))) := by
  intro a w p x
  have he : (s.goodReply poll t d).PollEnded p :=
    Part.pollEnded ((congrArg (fun e => e.wallTold) (Part.ev_of_chain (s.goodReply_beyondChain poll t d))).trans hev)
  obtain ⟨y, hset, hy, heq⟩ := Part.goodReply_up hs hw t d
  rw [heq] at he
  by_cases hbad : 85 ≤ t ∨ d = true
  · obtain ⟨m, hm, htells, hpanel⟩ := Part.judged_judge_fault hs hset hw hbad
    obtain ⟨k, f, hx, _, hk, hf⟩ := hm.record he hs
    rw [hpanel, hy] at hx hk hf
    refine ⟨hm.replyJudged he hs, (congrArg Panel.temperature hx :), (congrArg Panel.driver hx :), (congrArg Panel.misses hx :),
      fun _ => ⟨(congrArg Panel.state hx :), (congrArg Panel.ack hx).trans (hk rfl), (congrArg Panel.refresh hx).trans (hf rfl),
        hm.tells he (by decide) (by decide) htells⟩, fun ht hd => absurd hbad ?_⟩
    rw [hd]
    exact fun h => h.elim (fun h => absurd ht (not_lt.mpr h)) nofun
  · obtain ⟨ht, rfl⟩ : t < 85 ∧ d = false := by simpa using hbad
    obtain ⟨m, hm, htells, hpanel⟩ := Part.judged_judge_up hs hset (congrArg Panel.state hy :) hw ht
    obtain ⟨k, f, hx, hkept, _, _⟩ := hm.record he hs
    rw [hpanel, hy] at hx hkept
    refine ⟨hm.replyJudged he hs, (congrArg Panel.temperature hx :), (congrArg Panel.driver hx :), (congrArg Panel.misses hx :),
      fun h => absurd h hbad, fun _ _ => ⟨(congrArg Panel.state hx :), fun h70 hne => hm.tells he (by decide) (by decide) (htells h70 hne),
        fun hsame => ?_⟩⟩
    obtain ⟨hk, hf⟩ := hkept hsame
    exact ⟨(congrArg Panel.ack hx).trans hk, (congrArg Panel.refresh hx).trans hf⟩

/-- What a good reply does to a FAULTED panel (R130). -/
theorem Part.goodReply_ended_faulted {s : Part} {poll : Poll} (hs : s.Judging poll.frame.address) (hev : s.ev.wallTold = false) (t : Int) (d : Bool)
    {why : FaultReason} (hw : (s.chain.panel poll.frame.address).state = .faulted why) :
    let a := poll.frame.address
    let w := s.chain.panel a
    let p := (s.goodReply poll t d).nextPoll.finish
    let x := p.chain.panel a
    s.ReplyJudged p a ∧ x.temperature = some t ∧ x.driver = d ∧
      (85 ≤ t ∨ d = true ∨ why = .thermal ∧ 65 ≤ t → x.state = .faulted (why.heard t d) ∧ x.recovery = 0) ∧
      (t < 85 → d = false → (why = .thermal → t < 65) →
        (w.recovery < 7 → x.state = w.state ∧ x.recovery = w.recovery + 1) ∧
        (7 ≤ w.recovery → x.state = (if 70 ≤ t then .warm else .active) ∧ x.misses = 0 ∧ x.refresh = true ∧ p.Tells a .panelRecovered)) := by
  intro a w p x
  have he : (s.goodReply poll t d).PollEnded p :=
    Part.pollEnded ((congrArg (fun e => e.wallTold) (Part.ev_of_chain (s.goodReply_beyondChain poll t d))).trans hev)
  have hfault : w.isFaulted = true := by
    unfold Panel.isFaulted
    rw [hw]
  obtain ⟨y, hset, hy, heq⟩ := Part.goodReply_faulted hs hw t d
  have hwhy : (y.chain.panel poll.frame.address).state = .faulted why := (congrArg Panel.state hy :).trans hw
  have hrec : (y.chain.panel poll.frame.address).recovery = w.recovery := (congrArg Panel.recovery hy :)
  rw [heq] at he
  by_cases hbad : 85 ≤ t ∨ d = true ∨ why = .thermal ∧ 65 ≤ t
  · obtain ⟨m, hm, hpanel⟩ := Part.judged_faultedReply_bad hs hset hfault hwhy hbad
    obtain ⟨k, f, hx, _, _, _⟩ := hm.record he hs
    rw [hpanel, hy] at hx
    refine ⟨hm.replyJudged he hs, (congrArg Panel.temperature hx :), (congrArg Panel.driver hx :),
      fun _ => ⟨(congrArg Panel.state hx :), (congrArg Panel.recovery hx :)⟩, fun ht hd hcool => absurd hbad ?_⟩
    rw [hd]
    rintro (h | h | ⟨h, h'⟩)
    · omega
    · cases h
    · exact absurd (hcool h) (by omega)
  · obtain ⟨ht, hd, hcool⟩ : t < 85 ∧ d = false ∧ (why = .thermal → t < 65) := by simpa using hbad
    subst hd
    obtain ⟨hfew, hmany⟩ := Part.judged_faultedReply_good hs hset hfault hwhy ht hcool
    rw [hrec] at hfew hmany
    by_cases hcount : w.recovery < 7
    · obtain ⟨m, hm, hpanel⟩ := hfew hcount
      obtain ⟨k, f, hx, _, _, _⟩ := hm.record he hs
      rw [hpanel, hy] at hx
      exact ⟨hm.replyJudged he hs, (congrArg Panel.temperature hx :), (congrArg Panel.driver hx :), fun h => absurd h hbad,
        fun _ _ _ => ⟨fun _ => ⟨(congrArg Panel.state hx :), (congrArg Panel.recovery hx :)⟩, fun h => absurd hcount (Nat.not_lt.mpr h)⟩⟩
    · obtain ⟨m, hm, htells, hpanel⟩ := hmany (Nat.not_lt.mp hcount)
      obtain ⟨k, f, hx, _, _, hf⟩ := hm.record he hs
      rw [hpanel, hy] at hx hf
      exact ⟨hm.replyJudged he hs, (congrArg Panel.temperature hx :), (congrArg Panel.driver hx :), fun h => absurd h hbad,
        fun _ _ _ => ⟨fun h => absurd h hcount, fun _ => ⟨(congrArg Panel.state hx :), (congrArg Panel.misses hx :),
          (congrArg Panel.refresh hx).trans (hf rfl), hm.tells he (by decide) (by decide) htells⟩⟩⟩

/-! ## The cases by temperature -/

/-- The cases of a good reply to a panel that is not FAULTED. -/
theorem heardUp_cases {w x : Panel} {t : Int} {d sup : Bool} {gen : Nat} {told : EventKind → Prop} {same : Prop} (hmisses : x.misses = 0)
    (hbad : 85 ≤ t ∨ d = true → x.state = .faulted (if 85 ≤ t then .thermal else .driver) ∧ x.ack = 0 ∧ x.refresh = true ∧ told .panelFault)
    (hup : t < 85 → d = false → x.state = w.state.heard t ∧ (70 ≤ t → w.state ≠ .warm → told .thermalWarning) ∧
      (same → x.ack = (if sup then w.ack else gen) ∧ x.refresh = (sup && w.refresh))) :
    x.misses = 0 ∧
    (85 ≤ t → x.state = .faulted .thermal ∧ x.ack = 0 ∧ x.refresh = true ∧ told .panelFault) ∧
    (t < 85 → d = true → x.state = .faulted .driver ∧ x.ack = 0 ∧ x.refresh = true ∧ told .panelFault) ∧
    (70 ≤ t → t < 85 → d = false → x.state = .warm ∧ (w.state ≠ .warm → told .thermalWarning)) ∧
    (65 ≤ t → t < 70 → d = false → x.state = if w.state = .warm then .warm else .active) ∧
    (t < 65 → d = false → x.state = .active) ∧
    (t < 85 → d = false → same → sup = false → x.ack = gen ∧ x.refresh = false) ∧
    (t < 85 → d = false → same → sup = true → x.ack = w.ack ∧ x.refresh = w.refresh) := by
  refine ⟨hmisses, fun h85 => ?_, fun h85 hd => ?_, fun h70 h85 hd => ?_, fun h65 h70 hd => ?_, fun h65 hd => ?_,
    fun h85 hd hsame hsup => ?_, fun h85 hd hsame hsup => ?_⟩
  · have h := hbad (Or.inl h85)
    rwa [if_pos h85] at h
  · have h := hbad (Or.inr hd)
    rwa [if_neg (not_le.mpr h85)] at h
  · obtain ⟨hstate, htold, _⟩ := hup h85 hd
    rw [PanelState.heard, if_pos h70] at hstate
    exact ⟨hstate, htold h70⟩
  · obtain ⟨hstate, _, _⟩ := hup (by omega) hd
    rw [PanelState.heard, if_neg (not_le.mpr h70)] at hstate
    simpa only [h65, true_and] using hstate
  · obtain ⟨hstate, _, _⟩ := hup (by omega) hd
    rwa [PanelState.heard, if_neg (by omega), if_neg (by omega)] at hstate
  · have h := (hup h85 hd).2.2 hsame
    rw [hsup] at h
    exact h
  · have h := (hup h85 hd).2.2 hsame
    rw [hsup] at h
    exact h

/-- The cases of a good reply to a FAULTED panel. -/
theorem heardFaulted_cases {w x : Panel} {t : Int} {d : Bool} {why : FaultReason} {told : EventKind → Prop} (hw : w.state = .faulted why)
    (hbad : 85 ≤ t ∨ d = true ∨ why = .thermal ∧ 65 ≤ t → x.state = .faulted (why.heard t d) ∧ x.recovery = 0)
    (hgoing : t < 85 → d = false → (why = .thermal → t < 65) →
      (w.recovery < 7 → x.state = w.state ∧ x.recovery = w.recovery + 1) ∧
      (7 ≤ w.recovery → x.state = (if 70 ≤ t then .warm else .active) ∧ x.misses = 0 ∧ x.refresh = true ∧ told .panelRecovered)) :
    (85 ≤ t → x.state = .faulted .thermal ∧ x.recovery = 0) ∧
    (t < 85 → d = true → x.state = (if why = .thermal then .faulted .thermal else .faulted .driver) ∧ x.recovery = 0) ∧
    (t < 85 → d = false → why = .thermal → 65 ≤ t → x.state = w.state ∧ x.recovery = 0) ∧
    (t < 85 → d = false → (why = .thermal → t < 65) → w.recovery < 7 → x.state = w.state ∧ x.recovery = w.recovery + 1) ∧
    (t < 85 → d = false → (why = .thermal → t < 65) → 7 ≤ w.recovery →
      x.state = (if 70 ≤ t then .warm else .active) ∧ x.misses = 0 ∧ x.refresh = true ∧ told .panelRecovered) := by
  refine ⟨fun h85 => ?_, fun h85 hd => ?_, fun h85 hd ht h65 => ?_, fun h85 hd hcool => (hgoing h85 hd hcool).1,
    fun h85 hd hcool => (hgoing h85 hd hcool).2⟩
  · have h := hbad (Or.inl h85)
    rwa [FaultReason.heard, if_pos h85] at h
  · have h := hbad (Or.inr (Or.inl hd))
    rw [FaultReason.heard, if_neg (not_le.mpr h85), if_pos hd] at h
    refine ⟨h.1.trans ?_, h.2⟩
    split <;> rfl
  · have h := hbad (Or.inr (Or.inr ⟨ht, h65⟩))
    rw [FaultReason.heard, if_neg (not_le.mpr h85), if_neg (by simp [hd])] at h
    exact ⟨h.1.trans hw.symm, h.2⟩

/-! ## From the poll taken to the part commanded -/

theorem Part.pollTaken_port (p : Part) (l : Link) : p.pollTaken.port l = p.port l := by cases l <;> rfl

theorem Part.pollTaken_judging {p : Part} {a : Nat} (ha : 1 ≤ a) (ha' : a ≤ 13) (hlen : p.chain.panels.length = 13) : p.pollTaken.Judging a :=
  ⟨ha, ha', hlen, rfl⟩

theorem Part.ReplyJudged.of_taken {s p : Part} {a : Nat} (h : s.pollTaken.ReplyJudged p a) : s.ReplyJudged p a where
  others := h.others
  rule := ⟨h.rule.unfitted, h.rule.fitted, h.rule.mode⟩
  told := ⟨fun hd => by
    obtain ⟨hack, hrefresh, hports⟩ := h.told.1 hd
    exact ⟨hack, hrefresh, fun l => ⟨(hports l).1, fun hlen => (hports l).2 (by rw [Part.pollTaken_port]; exact hlen)⟩⟩, h.told.2⟩
  next := h.next
  lengths l := (h.lengths l).trans (congrArg (fun q : Port => q.subjects.length) (s.pollTaken_port l))

/-- Settles O44: the handlers of a reply as one change of the panel's record that the spare then follows. -/
theorem panelRepliesAreJudged : Obligations.PanelRepliesAreJudged := by
  unfold Obligations.PanelRepliesAreJudged
  intro s poll c hpow hpoll
  refine ⟨fun hr hc => leaves_resetReply hpow hpoll hr hc, fun hr ha ha' hlen => ?_⟩
  intro a w duty mode good latched others choice spare next
  have hs : s.part.pollTaken.Judging a := Part.pollTaken_judging ha ha' hlen
  have hbetween {p : Part} (h : s.part.pollTaken.ReplyJudged p a) : others p ∧ spare p ∧ next p := by
    have h := h.of_taken
    exact ⟨h.others, ⟨h.rule.unfitted, h.rule.fitted, h.rule.mode, h.told⟩, h.next⟩
  have hlatched {p : Part} (h : s.part.pollTaken.ReplyJudged p a) {k : EventKind} (ht : p.Tells a k) : latched p k :=
    fun l => ⟨(ht l).1, fun hl => (ht l).2 ((h.of_taken.lengths l).trans hl)⟩
  refine ⟨fun hc => ?_, fun r hc hgood => ⟨_, hc ▸ leaves_goodReply hpow hpoll hr hgood, ?_⟩⟩
  · obtain ⟨hjudged, hrefresh, htemp, hdriver, hstill, hfew, hmany⟩ := Part.badReply_ended hs rfl
    obtain ⟨hothers, hspare, hnext⟩ := hbetween hjudged
    refine ⟨_, leaves_badReply hpow hpoll hr hc, hrefresh, htemp, hdriver, hothers, hspare, hnext, hstill, hfew, fun hf hm => ?_⟩
    obtain ⟨hstate, hmisses, hack, htells⟩ := hmany hf hm
    exact ⟨hstate, hmisses, hack, hlatched hjudged htells⟩
  · intro x t driver
    cases hw : w.isFaulted with
    | false =>
      obtain ⟨hjudged, htemp, hdriver, hmisses, hbad, hup⟩ := Part.goodReply_ended_up hs rfl t driver hw
      obtain ⟨hothers, hspare, hnext⟩ := hbetween hjudged
      have hcases := heardUp_cases (told := latched _) hmisses
        (fun h => (hbad h).imp_right fun h => h.imp_right fun h => h.imp_right (hlatched hjudged))
        (fun h85 hd => (hup h85 hd).imp_right fun h => h.imp_left fun ht h70 hne => hlatched hjudged (ht h70 hne))
      refine ⟨htemp, hdriver, hothers, hspare, hnext, fun _ => hcases, fun why hwhy => ?_⟩
      rw [Panel.isFaulted_of_faulted hwhy] at hw
      cases hw
    | true =>
      obtain ⟨why, hwhy⟩ : ∃ why, w.state = .faulted why := by
        unfold Panel.isFaulted at hw
        split at hw
        · next why h => exact ⟨why, h⟩
        · cases hw
      obtain ⟨hjudged, htemp, hdriver, hbad, hgoing⟩ := Part.goodReply_ended_faulted hs rfl t driver hwhy
      obtain ⟨hothers, hspare, hnext⟩ := hbetween hjudged
      have hcases := heardFaulted_cases (told := latched _) hwhy hbad
        (fun h85 hd hcool => (hgoing h85 hd hcool).imp_right fun h hrec =>
          (h hrec).imp_right fun h => h.imp_right fun h => h.imp_right (hlatched hjudged))
      refine ⟨htemp, hdriver, hothers, hspare, hnext, nofun, fun why' hwhy' => ?_⟩
      obtain rfl : why = why' := by
        rw [hwhy] at hwhy'
        injection hwhy'
      exact hcases

end Sys2Proof.Machine
end

section
/-! ASSIGN: its checks, a resource that is no platform, and a platform taken for the Control link (O21, O22). -/

namespace Sys2Proof.Machine

/-! ## The resources (R59) -/

/-- Every code and its resource. -/
theorem resourceOf_cases {code : Nat} {r : Resource} (h : resourceOf code = some r) :
    (1 ≤ code ∧ code ≤ 32 ∧ r = .platform code) ∨ (33 ≤ code ∧ code ≤ 40 ∧ r = .zone (code - 32)) ∨
      (code = 41 ∧ r = .banner) ∨ (code = 42 ∧ r = .time) ∨ (code = 43 ∧ r = .clockLines) ∨ (code = 44 ∧ r = .wall) := by
  unfold resourceOf at h
  simp only [beq_iff_eq] at h
  split at h
  · cases h
  split at h
  · exact Or.inl ⟨by omega, by omega, (Option.some.inj h).symm⟩
  split at h
  · exact Or.inr (Or.inl ⟨by omega, by omega, (Option.some.inj h).symm⟩)
  split at h
  · next hc => exact Or.inr (Or.inr (Or.inl ⟨hc, (Option.some.inj h).symm⟩))
  split at h
  · next hc => exact Or.inr (Or.inr (Or.inr (Or.inl ⟨hc, (Option.some.inj h).symm⟩)))
  split at h
  · next hc => exact Or.inr (Or.inr (Or.inr (Or.inr (Or.inl ⟨hc, (Option.some.inj h).symm⟩))))
  split at h
  · next hc => exact Or.inr (Or.inr (Or.inr (Or.inr (Or.inr ⟨hc, (Option.some.inj h).symm⟩))))
  · cases h

theorem resourceOf_none {code : Nat} (h : code = 0 ∨ 44 < code) : resourceOf code = none := by
  cases hr : resourceOf code with
  | none => rfl
  | some r => rcases resourceOf_cases hr with h' | h' | h' | h' | h' | h' <;> omega

theorem resourceOf_some_platform {code : Nat} (h : 1 ≤ code) (h' : code ≤ 32) : resourceOf code = some (.platform code) := by
  unfold resourceOf
  rw [if_neg (by simpa using Nat.ne_of_gt h), if_pos h']

theorem Resource.allows_iff (r : Resource) (v : Nat) : r.allows v = true ↔ match r with | .zone _ => v ≤ 2 | _ => v ≤ 1 := by
  cases r <;> exact decide_eq_true_iff

theorem assignPermitted_iff (l : Link) (feed : FeedState) {code : Nat} {r : Resource} (h : resourceOf code = some r) (v : Nat) :
    assignPermitted l feed r v = true ↔ l = .information ∨ v = 0 ∨ code ≤ 40 ∧ feed ≠ .live := by
  unfold assignPermitted
  cases l with
  | information => simp
  | control =>
    rcases resourceOf_cases h with ⟨_, hc, rfl⟩ | ⟨_, hc, rfl⟩ | ⟨hc, rfl⟩ | ⟨hc, rfl⟩ | ⟨hc, rfl⟩ | ⟨hc, rfl⟩
    · simp [show code ≤ 40 by omega]
    all_goals simp [hc]

/-! ## The checks (R61 to R63) -/

theorem assign_unknown {l : Link} {a : Nat × Nat} {p : Part} (h : resourceOf a.1 = none) : assign l a p = .reply p .invalidField [] := by
  unfold assign
  rw [h]
  rfl

theorem assign_known {l : Link} {a : Nat × Nat} {p : Part} {r : Resource} (h : resourceOf a.1 = some r) : assign l a p =
    if !r.allows a.2 then .reply p .invalidField []
    else if p.holds r == a.2 then .reply p .ok []
    else if !assignPermitted l p.feed.state r a.2 then .reply p .notPermitted []
    else .reply ((({ p.begin with own := p.own.put r a.2 } : Part).assignEffect r a.2).latchNat .ownershipChanged a.1).settle .ok [] := by
  unfold assign refuse
  rw [h]

theorem assign_undefined {l : Link} {a : Nat × Nat} {p : Part} {r : Resource} (h : resourceOf a.1 = some r) (hv : r.allows a.2 = false) :
    assign l a p = .reply p .invalidField [] := by
  rw [assign_known h, if_pos (by rw [hv]; rfl)]

theorem assign_held {l : Link} {a : Nat × Nat} {p : Part} {r : Resource} (h : resourceOf a.1 = some r) (hv : r.allows a.2 = true)
    (hheld : p.holds r = a.2) : assign l a p = .reply p .ok [] := by
  rw [assign_known h, if_neg (by rw [hv]; exact Bool.false_ne_true), if_pos (beq_iff_eq.mpr hheld)]

theorem assign_barred {l : Link} {a : Nat × Nat} {p : Part} {r : Resource} (h : resourceOf a.1 = some r) (hv : r.allows a.2 = true)
    (hheld : p.holds r ≠ a.2) (hmay : ¬(l = .information ∨ a.2 = 0 ∨ a.1 ≤ 40 ∧ p.feed.state ≠ .live)) :
    assign l a p = .reply p .notPermitted [] := by
  have hno : assignPermitted l p.feed.state r a.2 = false := Bool.eq_false_iff.mpr fun hx => hmay ((assignPermitted_iff l _ h _).mp hx)
  rw [assign_known h, if_neg (by rw [hv]; exact Bool.false_ne_true), if_neg (fun hx => hheld (beq_iff_eq.mp hx)), if_pos (by rw [hno]; rfl)]

theorem assign_taken {l : Link} {a : Nat × Nat} {p : Part} {r : Resource} (h : resourceOf a.1 = some r) (hv : r.allows a.2 = true)
    (hheld : p.holds r ≠ a.2) (hmay : l = .information ∨ a.2 = 0 ∨ a.1 ≤ 40 ∧ p.feed.state ≠ .live) : assign l a p =
    .reply ((({ p.begin with own := p.own.put r a.2 } : Part).assignEffect r a.2).latchNat .ownershipChanged a.1).settle .ok [] := by
  have hyes := (assignPermitted_iff l _ h _).mpr hmay
  rw [assign_known h, if_neg (by rw [hv]; exact Bool.false_ne_true), if_neg (fun hx => hheld (beq_iff_eq.mp hx)),
    if_neg (by rw [hyes]; exact Bool.false_ne_true)]

/-! ## The effect -/

/-- Where no record has been handed on, no record is due for the check of R37. -/
theorem Part.settle_unhanded {p : Part} (h : p.ev.handedOn = []) : p.settle = p.finish := by
  have hnone : (p.table.records.filter fun r => p.ev.handedOn.contains r.id && p.retireDue r) = [] :=
    List.filter_eq_nil_iff.mpr fun r _ hr => by
      rw [h] at hr
      cases hr
  unfold Part.settle Part.retireCheck
  rw [hnone]
  rfl

/-- An assignment whose effect hands no record on. -/
theorem Part.assigned {p q : Part} {told : Bool} (code : Nat) (hlike : p.Like q) (hunhanded : p.ev.handedOn = []) (htold : p.ev.wallTold = told) :
    (p.latchNat .ownershipChanged code).settle = (q.latchNat .ownershipChanged code).ended told := by
  rw [Part.settle_unhanded (p := p.latchNat .ownershipChanged code) hunhanded]
  exact (eventBlind_latchNat _ _ _ _ hlike).finish htold

/-- The effect of a change of a resource that is no platform (R64). -/
theorem Part.assignEffect_other {p : Part} {code : Nat} {r : Resource} (h : resourceOf code = some r) (hc : 33 ≤ code) (v : Nat) :
    p.assignEffect r v = if code = 41 ∨ code = 44 then p.tellWall else p := by
  rcases resourceOf_cases h with ⟨_, h', rfl⟩ | ⟨_, h', rfl⟩ | ⟨rfl, rfl⟩ | ⟨rfl, rfl⟩ | ⟨rfl, rfl⟩ | ⟨rfl, rfl⟩
  · omega
  · rw [if_neg (by omega)]
    rfl
  all_goals rfl

theorem Part.assigned_other {p : Part} {code : Nat} {r : Resource} (h : resourceOf code = some r) (hc : 33 ≤ code) (v : Nat) :
    ((({ p.begin with own := p.own.put r v } : Part).assignEffect r v).latchNat .ownershipChanged code).settle =
      (({ p with own := p.own.put r v } : Part).latchNat .ownershipChanged code).ended (code == 41 || code == 44) := by
  have hlike : ({ p.begin with own := p.own.put r v } : Part).Like { p with own := p.own.put r v } := ⟨_, rfl⟩
  rw [Part.assignEffect_other h hc]
  by_cases hwall : code = 41 ∨ code = 44
  · rw [if_pos hwall]
    refine Part.assigned code ((Part.like_tellWall _).trans hlike) rfl ?_
    rw [show (code == 41 || code == 44) = true by simpa using hwall]
    rfl
  · rw [if_neg hwall]
    refine Part.assigned code hlike rfl ?_
    rw [show (code == 41 || code == 44) = false by simpa using hwall]
    rfl

/-- Settles O21. -/
theorem assignChecksAndWallWideEffect : Obligations.AssignChecksAndWallWideEffect := by
  unfold Obligations.AssignChecksAndWallWideEffect
  intro s rq code v he hb
  have hread : readTwo 1 1 rq.body = some (code.toNat, v.toNat) := hb ▸ readTwo_bytes code v
  have hzero : v.toNat = 0 ↔ v = 0 := (byte_eq_zero_iff v).symm
  refine ⟨fun hcode => answers_of_reply rfl he hread (assign_unknown (resourceOf_none hcode)), fun r hr => ⟨fun hv => ?_, fun hheld hv => ?_,
    fun hheld hv hl hv0 hfeed => ?_, fun hc hv hheld hmay => ?_⟩⟩
  · refine answers_of_reply rfl he hread (assign_undefined hr (Bool.eq_false_iff.mpr fun hx => ?_))
    have hx := (Resource.allows_iff r _).mp hx
    cases r <;> exact absurd hx (Nat.not_le.mpr hv)
  · refine answers_of_reply rfl he hread (assign_held hr ((Resource.allows_iff r _).mpr ?_) hheld.symm)
    cases r <;> exact hv
  · refine answers_of_reply rfl he hread (assign_barred hr ((Resource.allows_iff r _).mpr ?_) (Ne.symm hheld) ?_)
    · cases r <;> exact hv
    · rintro (hi | h0 | ⟨h40, hlive⟩)
      · rw [hl] at hi
        cases hi
      · exact hv0 (hzero.mp h0)
      · rcases hfeed with hfeed | hfeed
        · exact hlive hfeed
        · exact absurd h40 (by show ¬code.toNat ≤ 40; omega)
  · refine answers_of_reply rfl he hread ((assign_taken hr hv hheld (hmay.imp_right fun h => h.imp_left hzero.mpr)).trans ?_)
    have hcode (k : Byte) : (code == k) = (code.toNat == k.toNat) := by
      rw [Bool.eq_iff_iff, beq_iff_eq, beq_iff_eq]
      exact BitVec.toNat_inj.symm
    rw [hcode 41, hcode 44]
    exact congrArg (Answer.reply · .ok []) (Part.assigned_other hr hc _)

/-! ## A platform taken for the Control link (R66) -/

theorem Part.seizePlatform_eq (p : Part) (n : Nat) : p.seizePlatform n = { p with
    table := { p.table with
      records := p.table.records.map fun r => if r.ctl = none ∧ r.info.platform = some n then { r with ctl := some r.info } else r } } := by
  have hgain (r : Record) : (if r.ctl.isNone && r.running.platform == some n then r.gainCopy else r) =
      if r.ctl = none ∧ r.info.platform = some n then { r with ctl := some r.info } else r := by
    cases hc : r.ctl with
    | some c => rw [if_neg (by simp), if_neg (by simp)]
    | none =>
      rw [Record.running_of_none hc]
      unfold Record.gainCopy
      simp only [Option.isNone_none, Bool.true_and, beq_iff_eq, true_and]
  unfold Part.seizePlatform Part.mapRecords
  rw [funext hgain]

theorem Part.holds_platform (p : Part) (n : Nat) : p.holds (.platform n) = if p.controlOwned n then 1 else 0 := by
  show linkCode (p.own.platforms.getD (n - 1) .information) =
    if (p.own.platforms.getD (n - 1) .information == .control) = true then 1 else 0
  cases p.own.platforms.getD (n - 1) .information <;> rfl

/-- Settles O22. -/
theorem seizureMakesControlCopies : Obligations.SeizureMakesControlCopies := by
  unfold Obligations.SeizureMakesControlCopies
  intro s rq code he hb hlow hhigh _ hfree hmay
  have hread : readTwo 1 1 rq.body = some (code.toNat, 1) := hb ▸ readTwo_bytes code 1
  have hr := resourceOf_some_platform hlow hhigh
  refine answers_of_reply rfl he hread ((assign_taken (a := (code.toNat, 1)) hr rfl ?_ ?_).trans ?_)
  · rw [Part.holds_platform, hfree]
    exact Nat.zero_ne_one
  · exact hmay.imp_right fun h => Or.inr ⟨by show code.toNat ≤ 40; omega, h⟩
  · refine congrArg (Answer.reply · .ok []) ?_
    refine Part.assigned code.toNat (q := { s.part with
      own := { s.part.own with platforms := updateAt s.part.own.platforms (code.toNat - 1) fun _ => .control }
      table := { s.part.table with records := s.part.table.records.map fun r =>
        if r.ctl = none ∧ r.info.platform = some code.toNat then { r with ctl := some r.info } else r } }) ?_ rfl rfl
    show (Part.seizePlatform _ _).Like _
    rw [Part.seizePlatform_eq]
    exact ⟨_, rfl⟩

end Sys2Proof.Machine
end

section
/-! A platform given back to the Information link (R67, R68; O23). -/

namespace Sys2Proof.Machine

/-! ## The copies of the records -/

/-- The two records are of one id and service, with the same Information copy. -/
def Record.Kin (r u : Record) : Prop := r.id = u.id ∧ r.info = u.info ∧ r.sched = u.sched

theorem Record.Kin.refl (r : Record) : r.Kin r := ⟨rfl, rfl, rfl⟩

theorem Record.Kin.trans {r t u : Record} (h : r.Kin t) (h' : t.Kin u) : r.Kin u :=
  ⟨h.1.trans h'.1, h.2.1.trans h'.2.1, h.2.2.trans h'.2.2⟩

/-- Handing on a record leaves every record its time and copies. -/
theorem Part.handOn_kin {p : Part} {id : Nat} (h : p.table.okBut id) {before : Running} {r : Record}
    (hr : r ∈ (p.handOn before id).table.records) : ∃ t ∈ p.table.records, r.Kin t ∧ r.ctl = t.ctl := by
  rw [Part.handOn_records] at hr
  have hdone := Part.processed_okBut h before
  obtain ⟨t, ht, he⟩ := (p.processed_same before id).mem ((placeRecord_perm hdone.1.2.1 id).mem_iff.mp hr)
  obtain ⟨hid, _, hs, hi, hc⟩ := Record.essence_inj he
  rcases Part.mem_modRecord ht with ⟨u, hu, _, rfl⟩ | ⟨ht, _⟩
  · exact ⟨u, hu, ⟨hid.symm, hi.symm, hs.symm⟩, hc.symm⟩
  · exact ⟨t, ht, ⟨hid.symm, hi.symm, hs.symm⟩, hc.symm⟩

/-- The record whose copy is dropped keeps its Information copy alone. -/
theorem Part.dropCopy_kin {p : Part} {r t : Record} (h : p.table.ok) (hr : r ∈ p.table.records) (ht : t ∈ (p.dropCopy r).table.records) :
    ∃ u ∈ p.table.records, t.Kin u ∧ t.ctl = if t.id = r.id then none else u.ctl := by
  have hfirst : ∀ u ∈ (p.modRecord r.id fun _ => p.tracked r.running .returned { r with ctl := none }).table.records,
      ∃ v ∈ p.table.records, u.Kin v ∧ u.ctl = if u.id = r.id then none else v.ctl := by
    intro u hu
    rcases Part.mem_modRecord hu with ⟨_, _, _, rfl⟩ | ⟨hu, hid⟩
    · exact ⟨r, hr, ⟨rfl, rfl, rfl⟩, (if_pos rfl).symm⟩
    · exact ⟨u, hu, .refl u, (if_neg hid).symm⟩
  have hbut : (p.modRecord r.id fun _ => p.tracked r.running .returned { r with ctl := none }).table.okBut r.id :=
    (h.but r.id).modRecord fun _ _ _ => rfl
  unfold Part.dropCopy at ht
  dsimp only at ht
  split at ht
  · exact hfirst t ht
  · obtain ⟨u, hu, hkin, hc⟩ := Part.handOn_kin hbut ht
    obtain ⟨v, hv, hkin', hc'⟩ := hfirst u hu
    exact ⟨v, hv, hkin.trans hkin', by rw [hc, hc', hkin.1]⟩

/-- The Control copy a record has after steps 1 to 3 of R67. -/
def Part.regained (p : Part) (u : Record) : Option Running := if u.info.platform.any p.controlOwned then some u.info else none

theorem Part.dropCopy_own (p : Part) (r : Record) : (p.dropCopy r).own = p.own := by
  unfold Part.dropCopy
  dsimp only
  split
  · rfl
  · exact Part.handOn_own _ _ _

theorem Part.returnRecord_own (p : Part) (id : Nat) : (p.returnRecord id).own = p.own := by
  unfold Part.returnRecord
  split
  · rfl
  · exact p.dropCopy_own _

theorem Part.regained_congr {p q : Part} (h : q.own = p.own) {u v : Record} (hi : v.info = u.info) : q.regained v = p.regained u := by
  unfold Part.regained Part.controlOwned
  rw [h, hi]

/-- What R67 makes of one record. -/
theorem Part.returnRecord_kin {p : Part} {id : Nat} {t : Record} (h : p.table.ok) (ht : t ∈ (p.returnRecord id).table.records) :
    ∃ u ∈ p.table.records, t.Kin u ∧ t.ctl = if t.id = id then p.regained u else u.ctl := by
  unfold Part.returnRecord at ht
  split at ht
  · next hnone => exact ⟨t, ht, .refl t, (if_neg (Part.record?_none hnone t ht)).symm⟩
  · next r hr =>
    obtain ⟨hmem, rfl⟩ := Part.record?_mem hr
    have howned : (p.dropCopy r).controlOwned = p.controlOwned := by
      funext n
      unfold Part.controlOwned
      rw [p.dropCopy_own]
    rcases Part.mem_modRecord ht with ⟨v, hv, hid, rfl⟩ | ⟨ht, hne⟩
    · obtain ⟨u, hu, hkin, hc⟩ := Part.dropCopy_kin h hmem hv
      rw [if_pos hid] at hc
      refine ⟨u, hu, ?_, ?_⟩
      · split
        · exact hkin
        · exact hkin
      · unfold Part.regained
        rw [howned, ← hkin.2.1]
        by_cases hany : v.info.platform.any p.controlOwned = true
        · simp only [if_pos hany]
          exact (if_pos hid).symm
        · simp only [if_neg hany]
          rw [if_pos hid, hc]
    · obtain ⟨u, hu, hkin, hc⟩ := Part.dropCopy_kin h hmem ht
      rw [if_neg hne] at hc
      exact ⟨u, hu, hkin, hc.trans (if_neg hne).symm⟩

theorem Part.returnRecord_ok {p : Part} (h : p.table.ok) (id : Nat) : (p.returnRecord id).table.ok := by
  unfold Part.returnRecord
  split
  · exact h
  · next r hr =>
    refine (Part.dropCopy_ok h (Part.record?_mem hr).1).modRecord fun t _ _ => ?_
    split <;> exact ⟨rfl, rfl, rfl⟩

/-- What R67 makes of the records of some ids. -/
theorem Part.returnRecords_kin {ids : List Nat} {p : Part} (h : p.table.ok) : (ids.foldl Part.returnRecord p).table.ok ∧
    (ids.foldl Part.returnRecord p).own = p.own ∧ ∀ t ∈ (ids.foldl Part.returnRecord p).table.records,
      ∃ u ∈ p.table.records, t.Kin u ∧ t.ctl = if t.id ∈ ids then p.regained u else u.ctl := by
  induction ids generalizing p with
  | nil => exact ⟨h, rfl, fun t ht => ⟨t, ht, .refl t, (if_neg List.not_mem_nil).symm⟩⟩
  | cons id ids ih =>
    obtain ⟨hok, hown, hall⟩ := ih (p.returnRecord_ok h id)
    rw [List.foldl_cons]
    refine ⟨hok, hown.trans (p.returnRecord_own id), fun t ht => ?_⟩
    obtain ⟨v, hv, hkin, hc⟩ := hall t ht
    obtain ⟨u, hu, hkin', hc'⟩ := Part.returnRecord_kin h hv
    refine ⟨u, hu, hkin.trans hkin', ?_⟩
    rw [hc, hc', Part.regained_congr (p.returnRecord_own id) hkin'.2.1, ← hkin.1]
    by_cases hin : t.id ∈ ids
    · rw [if_pos hin, if_pos (List.mem_cons_of_mem _ hin)]
    · rw [if_neg hin]
      by_cases hid : t.id = id
      · rw [if_pos hid, if_pos (hid ▸ List.mem_cons_self)]
      · rw [if_neg hid, if_neg (fun hx => (List.mem_cons.mp hx).elim hid hin)]

/-- Which records' Control copies have a platform, or none. -/
theorem Part.mem_copiesOn_iff {p : Part} (h : p.table.ok) {u : Record} (hu : u ∈ p.table.records) (x : Option Nat) :
    u.id ∈ p.copiesOn x ↔ ∃ c, u.ctl = some c ∧ c.platform = x := by
  constructor
  · intro hin
    obtain ⟨v, hv, hid⟩ := List.mem_map.mp hin
    obtain ⟨hv, hc⟩ := List.mem_filter.mp hv
    obtain rfl := eq_of_id h.2.1 hv hu hid
    cases hctl : v.ctl with
    | none => rw [hctl] at hc; cases hc
    | some c =>
      rw [hctl, Option.any_some, beq_iff_eq] at hc
      exact ⟨c, rfl, hc⟩
  · rintro ⟨c, hctl, rfl⟩
    exact Part.mem_copiesOn hu hctl

/-- What R67 and R68 make of the Control copies when platform `n` is given back. -/
structure Record.Returned (p : Part) (n : Nat) (u t : Record) : Prop where
  kin : t.Kin u
  on : ∀ c, u.ctl = some c → c.platform = some n → t.ctl = p.regained u
  elsewhere : ∀ c m, u.ctl = some c → c.platform = some m → m ≠ n → t.ctl = some c
  bare : u.ctl = none → t.ctl = none

theorem Part.returnedCopies_own (p : Part) (h : p.table.ok) (n : Nat) : (p.returnedCopies n).own = p.own := by
  unfold Part.returnedCopies
  dsimp only
  obtain ⟨hok, hown, _⟩ := Part.returnRecords_kin (ids := p.copiesOn (some n)) h
  generalize (p.copiesOn (some n)).foldl Part.returnRecord p = q at *
  obtain ⟨_, hown', _⟩ := Part.returnRecords_kin (ids := if q.controlOwnsAny then [] else q.copiesOn none) hok
  exact hown'.trans hown

theorem Part.returnedCopies_records {p : Part} (h : p.table.ok) {n : Nat} {t : Record} (ht : t ∈ (p.returnedCopies n).table.records) :
    ∃ u ∈ p.table.records, Record.Returned p n u t := by
  unfold Part.returnedCopies at ht
  dsimp only at ht
  obtain ⟨hok, hown, hfirst⟩ := Part.returnRecords_kin (ids := p.copiesOn (some n)) h
  generalize (p.copiesOn (some n)).foldl Part.returnRecord p = q at *
  obtain ⟨_, _, hsecond⟩ := Part.returnRecords_kin (ids := if q.controlOwnsAny then [] else q.copiesOn none) hok
  obtain ⟨v, hv, hkin, hc⟩ := hsecond t ht
  obtain ⟨u, hu, hkin', hc'⟩ := hfirst v hv
  have habsent : t.id ∈ (if q.controlOwnsAny then [] else q.copiesOn none) → ∃ c, v.ctl = some c ∧ c.platform = none := by
    intro hin
    rw [hkin.1] at hin
    split at hin
    · cases hin
    · exact (Part.mem_copiesOn_iff hok hv none).mp hin
  have hon (hno : ¬∃ c, u.ctl = some c ∧ c.platform = some n) : v.ctl = u.ctl := by
    rw [hc', if_neg]
    rw [hkin'.1]
    exact fun hin => hno ((Part.mem_copiesOn_iff h hu _).mp hin)
  refine ⟨u, hu, hkin.trans hkin', fun c hu' hplat => ?_, fun c m hu' hplat hne => ?_, fun hnone => ?_⟩
  · have hv' : v.ctl = p.regained u := by
      rw [hc', if_pos]
      rw [hkin'.1]
      exact (Part.mem_copiesOn_iff h hu _).mpr ⟨c, hu', hplat⟩
    rw [hc, Part.regained_congr hown hkin'.2.1, hv', ite_self]
  · have hv' := hon fun ⟨d, hd, hd'⟩ => by
      rw [hu'] at hd
      obtain rfl := Option.some.inj hd
      rw [hplat] at hd'
      exact hne (Option.some.inj hd')
    rw [hc, if_neg, hv', hu']
    intro hin
    obtain ⟨d, hd, hd'⟩ := habsent hin
    rw [hv', hu'] at hd
    obtain rfl := Option.some.inj hd
    rw [hplat] at hd'
    cases hd'
  · have hv' := hon fun ⟨d, hd, _⟩ => by
      rw [hnone] at hd
      cases hd
    rw [hc, if_neg, hv', hnone]
    intro hin
    obtain ⟨d, hd, _⟩ := habsent hin
    rw [hv', hnone] at hd
    cases hd

/-! ## The end of the event -/

/-- The records the end of an event leaves are records before it, but for the announcement of a platform change. -/
theorem Part.settle_records {p : Part} {r : Record} (hr : r ∈ p.settle.table.records) :
    ∃ t ∈ p.table.records, r.beyondAnnounced = t.beyondAnnounced := by
  have hended := (p.retireCheck fun r => p.ev.handedOn.contains r.id).ended_records (p.retireCheck fun r => p.ev.handedOn.contains r.id).ev.wallTold
  rw [← Part.finish_eq_ended] at hended
  have hmem : r.beyondAnnounced ∈ p.settle.table.records.map Record.beyondAnnounced := List.mem_map_of_mem hr
  have hmem' : r.beyondAnnounced ∈ (p.retireCheck fun r => p.ev.handedOn.contains r.id).table.records.map Record.beyondAnnounced :=
    hended ▸ hmem
  obtain ⟨t, ht, heq⟩ := List.mem_map.mp hmem'
  refine ⟨t, ?_, heq.symm⟩
  unfold Part.retireCheck at ht
  rw [Part.foldl_retire_table] at ht
  exact (List.mem_filter.mp ht).1

theorem Record.kin_of_beyondAnnounced {r t : Record} (h : r.beyondAnnounced = t.beyondAnnounced) : r.Kin t ∧ r.ctl = t.ctl :=
  ⟨⟨(congrArg Record.id h :), (congrArg Record.info h :), (congrArg Record.sched h :)⟩, (congrArg Record.ctl h :)⟩

theorem Part.moves_settle (p : Part) : p.Moves p.settle := (p.moves_retireCheck _).trans (Part.moves_finish _)

/-- Settles O23. -/
theorem returnDropsControlCopies : Obligations.ReturnDropsControlCopies := by
  unfold Obligations.ReturnDropsControlCopies
  intro s rq code he hb hlow hhigh hlen howned hok hcopies
  have hread : readTwo 1 1 rq.body = some (code.toNat, 0) := hb ▸ readTwo_bytes code 0
  have hr := resourceOf_some_platform hlow hhigh
  let q : Part := { s.part.begin with own := s.part.own.put (.platform code.toNat) 0 }
  have hqown : q.own = { s.part.own with platforms := updateAt s.part.own.platforms (code.toNat - 1) fun _ => .information } := rfl
  have hanswer : Answers (.assign rq) s 0x06 rq _ .ok [] := answers_of_reply rfl he hread ((assign_taken (l := rq.link) (a := (code.toNat, 0)) (p := s.part) hr rfl
    (by rw [Part.holds_platform, howned]; exact Nat.one_ne_zero) (Or.inr (Or.inl rfl))))
  have hlaw : (q.returnedCopies code.toNat).tableLaw :=
    Part.returnedCopies_tableLaw hok (Part.copiesBut_put (p := s.part.begin) ⟨hlow, hhigh⟩ hcopies)
  have hkin := fun t ht => Part.returnedCopies_records (p := q) hok (n := code.toNat) (t := t) ht
  have hown := q.returnedCopies_own hok code.toNat
  have hrelease : (q.releasePlatform code.toNat).tableLaw ∧ (q.releasePlatform code.toNat).table = (q.returnedCopies code.toNat).table ∧
      (q.releasePlatform code.toNat).own = q.own := by
    obtain ⟨purged, h⟩ := q.releasePlatform_eq code.toNat
    rw [h]
    cases purged with
    | true =>
      rw [if_pos rfl]
      exact ⟨(Part.keeps_purgeAuto _).table hlaw, Part.purgeAuto_table _, (Part.purgeAuto_own _).trans hown⟩
    | false => exact ⟨hlaw, rfl, hown⟩
  obtain ⟨hlaw', htable, hown'⟩ := hrelease
  have hq : (({ s.part.begin with own := s.part.own.put (.platform code.toNat) 0 } : Part).assignEffect (.platform code.toNat) 0) =
      q.releasePlatform code.toNat := rfl
  rw [hq] at hanswer
  generalize q.releasePlatform code.toNat = x at *
  have hlatched : (x.latchNat .ownershipChanged code.toNat).tableLaw := (Part.keeps_latchNat x _ _).table hlaw'
  have hflag (l : Link) : ((x.latchNat .ownershipChanged code.toNat).port l).isLatched .ownershipChanged = true := by
    rw [Part.latchNat, Part.latch_port]
    exact Port.latch_isLatched_same _ _ _
  have hyown : (x.latchNat .ownershipChanged code.toNat).own = q.own := hown'
  have hytable : (x.latchNat .ownershipChanged code.toNat).table = (q.returnedCopies code.toNat).table := htable
  generalize x.latchNat .ownershipChanged code.toNat = y at *
  have hpown : y.settle.own = q.own := (Part.settle_own y).trans hyown
  have hplaw : y.settle.tableLaw := (Part.keeps_settle y).table hlatched
  refine ⟨y.settle, hanswer, hpown.trans hqown, fun r hr c hc => ?_, fun r hr => ?_, fun l => y.moves_settle.kept l _ (hflag l)⟩
  · obtain ⟨_, _, hcopy⟩ := hplaw.2.2 r hr
    unfold Part.copyLaw at hcopy
    rw [hc] at hcopy
    dsimp only at hcopy
    refine ⟨fun hplat => ?_, fun hplat => ?_⟩
    · rw [hplat] at hcopy
      have hgone : q.controlOwned code.toNat = false :=
        (controlOwned_put (p := s.part) (q := q) (w := .information) hlen ⟨hlow, hhigh⟩ rfl hlow).trans (if_pos rfl)
      have hsettled : y.settle.controlOwned code.toNat = q.controlOwned code.toNat := by
        unfold Part.controlOwned
        rw [hpown]
      have hcopy : y.settle.controlOwned code.toNat = true := hcopy
      rw [hsettled, hgone] at hcopy
      cases hcopy
    · rw [hplat] at hcopy
      exact hcopy
  · obtain ⟨t, ht, heq⟩ := Part.settle_records hr
    obtain ⟨hkin₁, hctl₁⟩ := Record.kin_of_beyondAnnounced heq
    rw [hytable] at ht
    obtain ⟨u, hu, hret⟩ := hkin t ht
    obtain ⟨hid, hinfo, hsched⟩ := hkin₁.trans hret.kin
    refine ⟨u, hu, hid, hinfo, hsched, fun c hc hplat => ?_, fun c m hc hplat hne => hctl₁.trans (hret.elsewhere c m hc hplat hne),
      fun hnone => hctl₁.trans (hret.bare hnone)⟩
    rw [hctl₁, hret.on c hc hplat]
    exact Part.regained_congr hpown.symm rfl

end Sys2Proof.Machine
end

section
/-! What a cue that is asked for leaves of the scheduler (R149, R153, R154). -/

namespace Sys2Proof.Machine

/-! ## Room in a queue -/

theorem CueSched.hasRoom_iff (q : CueSched) (z : Nat) (cls : CueClass) : q.hasRoom z cls = true ↔
    (q.queue z).length < 6 ∨ ∃ w d, (q.queue z).getLast? = some w ∧ q.classOf w = some d ∧ cls.code < d.code := by
  rw [CueSched.hasRoom, Bool.or_eq_true, decide_eq_true_eq]
  refine or_congr_right ⟨fun h => ?_, ?_⟩
  · obtain ⟨v, hv⟩ := Option.isSome_iff_exists.mp h
    obtain ⟨hlast, c, hc, hlt⟩ := CueSched.zoneVictim_some hv
    exact ⟨v, c.cls, hlast, by rw [CueSched.classOf, hc]; rfl, hlt⟩
  · rintro ⟨w, d, hlast, hclass, hlt⟩
    obtain ⟨c, hc, rfl⟩ := Option.map_eq_some_iff.mp hclass
    unfold CueSched.zoneVictim
    rw [hlast, Option.bind_some, hc]
    dsimp only
    rw [if_pos hlt]
    rfl

/-- Room is kept where the queue gets short, or stays with the classes of its records. -/
theorem CueSched.hasRoom_mono {q r : CueSched} {z : Nat} {cls : CueClass} (hqueue : (r.queue z).length < 6 ∨ r.queue z = q.queue z ∧
    ∀ w ∈ q.queue z, ∀ d, q.classOf w = some d → r.classOf w = some d) (h : q.hasRoom z cls = true) : r.hasRoom z cls = true := by
  rw [CueSched.hasRoom_iff] at h ⊢
  rcases hqueue with hshort | ⟨hsame, hclass⟩
  · exact Or.inl hshort
  · rw [hsame]
    exact h.imp_right fun ⟨w, d, hlast, hd, hlt⟩ => ⟨w, d, hlast, hclass w (List.mem_of_getLast? hlast) d hd, hlt⟩

theorem CueSched.free_queue (q : CueSched) (v z : Nat) : (q.free v).queue z = (q.queue z).filter (· != v) := by
  unfold CueSched.queue CueSched.free
  dsimp only
  rw [List.getD_eq_getElem?_getD, List.getD_eq_getElem?_getD, List.getElem?_map]
  cases q.queues[z - 1]? <;> rfl

/-- Freeing a record keeps the room that there is. -/
theorem CueSched.hasRoom_free {q : CueSched} (hok : q.ok) (v : Nat) {z : Nat} {cls : CueClass} (h : q.hasRoom z cls = true) :
    (q.free v).hasRoom z cls = true := by
  refine CueSched.hasRoom_mono ?_ h
  by_cases hv : v ∈ q.queue z
  · refine Or.inl ?_
    have hlt : ((q.queue z).filter (· != v)).length < (q.queue z).length := List.length_filter_lt_length_iff_exists.mpr ⟨v, hv, by simp⟩
    have hle := CueSched.queue_length hok z
    rw [CueSched.free_queue]
    omega
  · have hne : ∀ w ∈ q.queue z, v ≠ w := fun w hw heq => hv (heq ▸ hw)
    refine Or.inr ⟨(CueSched.free_queue q v z).trans (List.filter_eq_self.mpr fun w hw => bne_iff_ne.mpr (Ne.symm (hne w hw))), fun w hw d hd => ?_⟩
    unfold CueSched.classOf at hd ⊢
    rwa [(CueSched.sameOwn_free q (hne w hw)).cue?]

/-- A new record keeps the room that there is. -/
theorem Part.hasRoom_withNewCue {p : Part} (n : NewCue) (zones : List Nat) {z : Nat} {cls : CueClass} (h : p.cues.hasRoom z cls = true) :
    (p.withNewCue n zones).cues.hasRoom z cls = true := by
  refine CueSched.hasRoom_mono (q := p.cues) (Or.inr ⟨rfl, fun w _ d hd => ?_⟩) h
  obtain ⟨c, hc, rfl⟩ := Option.map_eq_some_iff.mp hd
  have hcue : (p.withNewCue n zones).cues.cue? w = some c := by
    show (p.cues.pool ++ [p.newCue n zones]).find? (·.id == w) = some c
    rw [List.find?_append, show p.cues.pool.find? (·.id == w) = some c from hc]
    rfl
  rw [CueSched.classOf, hcue]
  rfl

/-! ## What other records lose -/

/-- What the references of the record `id` leave of the others: none changes but in its zones, none outside the queues goes. -/
structure CueSched.Displaced (id : Nat) (q r : CueSched) : Prop where
  kin : ∀ c ∈ r.pool, ∃ d ∈ q.pool, c = { d with zones := c.zones }
  kept : ∀ c ∈ q.pool, c.id ≠ id → (∀ l ∈ q.queues, c.id ∉ l) → c ∈ r.pool
  refs : ∀ l ∈ r.queues, ∀ w ∈ l, w = id ∨ ∃ m ∈ q.queues, w ∈ m

theorem CueSched.Displaced.refl (id : Nat) (q : CueSched) : q.Displaced id q :=
  ⟨fun c hc => ⟨c, hc, rfl⟩, fun _ hc _ _ => hc, fun l hl _ hw => Or.inr ⟨l, hl, hw⟩⟩

theorem CueSched.Displaced.trans {id : Nat} {q r t : CueSched} (h : q.Displaced id r) (h' : r.Displaced id t) : q.Displaced id t where
  kin c hc := by
    obtain ⟨d, hd, hcd⟩ := h'.kin c hc
    obtain ⟨e, he, hde⟩ := h.kin d hd
    exact ⟨e, he, hcd.trans (congrArg (fun x : Cue => { x with zones := c.zones }) hde :)⟩
  kept c hc hne hout := by
    refine h'.kept c (h.kept c hc hne hout) hne fun l hl hin => ?_
    rcases h.refs l hl _ hin with heq | ⟨m, hm, hw⟩
    · exact hne heq
    · exact hout m hm hw
  refs l hl w hw := by
    rcases h'.refs l hl w hw with heq | ⟨m, hm, hw⟩
    · exact Or.inl heq
    · exact h.refs m hm w hw

theorem mem_updateAt {α : Type} {l : List α} {i : Nat} {f : α → α} {a : α} (h : a ∈ updateAt l i f) : a ∈ l ∨ ∃ b ∈ l, a = f b := by
  obtain ⟨j, hj⟩ := List.mem_iff_getElem?.mp h
  rw [updateAt_getElem?] at hj
  split at hj
  · obtain ⟨b, hb, rfl⟩ := Option.map_eq_some_iff.mp hj
    exact Or.inr ⟨b, List.mem_of_getElem? hb, rfl⟩
  · exact Or.inl (List.mem_of_getElem? hj)

theorem Part.displaced_dropReference {p : Part} {v z : Nat} (id : Nat) (hv : v ∈ p.cues.queue z) :
    p.cues.Displaced id (p.dropReference v z).cues := by
  have hpool : ∀ c ∈ (p.dropReference v z).cues.pool, c ∈ ((p.cues.unqueue v z).modCue v (·.setOutcome (· == z) .dropped)).pool := by
    intro c hc
    rw [Part.dropReference_cues] at hc
    dsimp only at hc
    split at hc
    · exact hc
    · exact (List.mem_filter.mp hc).1
  refine ⟨fun c hc => ?_, fun c hc _ hout => ?_, fun l hl w hw => ?_⟩
  · obtain ⟨d, hd, rfl⟩ := List.mem_map.mp (hpool c hc)
    refine ⟨d, hd, ?_⟩
    split <;> rfl
  · have hne : c.id ≠ v := fun heq => hout _ (CueSched.queue_mem hv) (heq ▸ hv)
    have hmod : c ∈ ((p.cues.unqueue v z).modCue v (·.setOutcome (· == z) .dropped)).pool :=
      List.mem_map.mpr ⟨c, hc, if_neg (by simpa using hne)⟩
    rw [Part.dropReference_cues]
    dsimp only
    split
    · exact hmod
    · exact List.mem_filter.mpr ⟨hmod, by simpa using hne⟩
  · rw [Part.dropReference_queues] at hl
    rcases mem_updateAt hl with hl | ⟨m, hm, rfl⟩
    · exact Or.inr ⟨l, hl, hw⟩
    · exact Or.inr ⟨m, hm, (List.mem_filter.mp hw).1⟩

theorem Part.displaced_insertReference (p : Part) (id : Nat) (cls : CueClass) (z : Nat) : p.cues.Displaced id (p.insertReference id cls z).cues := by
  have hroom : p.cues.Displaced id (p.roomMade cls z).cues := by
    unfold Part.roomMade
    split
    · exact .refl _ _
    · split
      · next v hv => exact Part.displaced_dropReference id (List.mem_of_getLast? (CueSched.zoneVictim_some hv).1)
      · exact .refl _ _
  rw [Part.insertReference_eq]
  split
  · refine hroom.trans ⟨fun c hc => ⟨c, hc, rfl⟩, fun c hc _ _ => hc, fun l hl w hw => ?_⟩
    rcases mem_updateAt hl with hl | ⟨m, hm, rfl⟩
    · exact Or.inr ⟨l, hl, hw⟩
    · rw [mem_insertBy] at hw
      exact hw.imp_right fun hw => ⟨m, hm, hw⟩
  · exact hroom

theorem Part.displaced_insertReferences (id : Nat) (cls : CueClass) (zones : List Nat) (p : Part) :
    p.cues.Displaced id (zones.foldl (fun p z => p.insertReference id cls z) p).cues := by
  induction zones generalizing p with
  | nil => exact .refl _ _
  | cons z zones ih => exact (p.displaced_insertReference id cls z).trans (ih _)

theorem Part.insertCue_calm (p : Part) (id : Nat) {cls : CueClass} (h : cls ≠ .emergency) (zones : List Nat) :
    p.insertCue id cls zones = zones.foldl (fun p z => p.insertReference id cls z) p := by
  unfold Part.insertCue
  exact if_neg (by simpa using h)

/-! ## A record placed -/

/-- What the record `x` leaves, placed in `zones`. -/
structure CueSched.Placed (q r : CueSched) (x : Cue) (zones : List Nat) : Prop where
  mem : x ∈ r.pool
  own : ∀ c ∈ r.pool, c.id = x.id → c = x
  arrival : r.nextArrival = countNext q.nextArrival
  kin : ∀ c ∈ r.pool, c = x ∨ ∃ d ∈ q.pool, c = { d with zones := c.zones }
  kept : ∀ c ∈ q.pool, (∀ l ∈ q.queues, c.id ∉ l) → c ∈ r.pool
  refs : ∀ z ∈ zones, x.id ∈ r.queue z

theorem Part.placed_insertCue {p : Part} {n : NewCue} {zones : List Nat} (hok : (p.withNewCue n zones).cues.ok) (hcls : n.cls ≠ .emergency)
    (hfree : p.cues.idTaken p.cues.newId = false) (hnodup : zones.Nodup)
    (hz : ∀ z ∈ zones, 1 ≤ z ∧ z - 1 < p.cues.queues.length ∧ p.cues.hasRoom z n.cls = true) :
    p.cues.Placed ((p.withNewCue n zones).insertCue p.cues.newId n.cls zones).cues (p.newCue n zones) zones := by
  have hnew := Part.withNewCue_cue? n zones hfree
  have hout : ∀ c ∈ p.cues.pool, c.id ≠ p.cues.newId := fun c hc hid => by
    have htaken : p.cues.pool.any (·.id == p.cues.newId) = true := List.any_eq_true.mpr ⟨c, hc, beq_iff_eq.mpr hid⟩
    rw [CueSched.idTaken, htaken, Bool.true_or] at hfree
    cases hfree
  have hinserted := Part.inserted_insertCue (p := p.withNewCue n zones) (id := p.cues.newId) (cls := n.cls) (fun c hc => by
    obtain rfl := Option.some.inj (hnew.symm.trans hc)
    rfl) zones
  have hdisplaced := Part.displaced_insertReferences p.cues.newId n.cls zones (p.withNewCue n zones)
  have hrefs := (Part.insertReferences_law (id := p.cues.newId) (cls := n.cls) zones (p := p.withNewCue n zones) hok hnodup
    fun z hzin => by
      obtain ⟨h1, h2, h3⟩ := hz z hzin
      exact ⟨h1, h2, Part.hasRoom_withNewCue n zones h3⟩).1
  rw [Part.insertCue_calm _ _ hcls] at hinserted ⊢
  generalize zones.foldl (fun q z => q.insertReference p.cues.newId n.cls z) (p.withNewCue n zones) = r at *
  have hpool : (p.withNewCue n zones).cues.pool = p.cues.pool ++ [p.newCue n zones] := rfl
  refine ⟨hinserted.own.mem (CueSched.cue?_mem hnew).1 rfl, fun c hc hid => ?_, (congrArg CueSched.nextArrival hinserted.frame :),
    fun c hc => ?_, fun c hc hq => hdisplaced.kept c (hpool ▸ List.mem_append_left _ hc) (hout c hc) hq, hrefs⟩
  · have hmem : c ∈ r.cues.pool.filter (·.id == p.cues.newId) := List.mem_filter.mpr ⟨hc, beq_iff_eq.mpr hid⟩
    rw [hinserted.own] at hmem
    obtain ⟨hmem, hid⟩ := List.mem_filter.mp hmem
    rw [hpool, List.mem_append, List.mem_singleton] at hmem
    exact hmem.resolve_left fun hc => hout c hc (beq_iff_eq.mp hid)
  · obtain ⟨d, hd, hcd⟩ := hdisplaced.kin c hc
    rw [hpool, List.mem_append, List.mem_singleton] at hd
    rcases hd with hd | rfl
    · exact Or.inr ⟨d, hd, hcd⟩
    · refine Or.inl ?_
      have hid : c.id = p.cues.newId := (congrArg Cue.id hcd :)
      have hmem : c ∈ r.cues.pool.filter (·.id == p.cues.newId) := List.mem_filter.mpr ⟨hc, beq_iff_eq.mpr hid⟩
      rw [hinserted.own] at hmem
      obtain ⟨hmem, _⟩ := List.mem_filter.mp hmem
      rw [hpool, List.mem_append, List.mem_singleton] at hmem
      exact hmem.resolve_left fun hc => hout c hc hid

/-! ## Room in the pool (R154) -/

/-- A queued automatic or Information record of a class below `cls`. -/
def CueSched.GivesWay (q : CueSched) (cls : CueClass) (v : Cue) : Prop :=
  v ∈ q.pool ∧ v.flight = .queued ∧ (v.origin = .auto ∨ v.origin = .information) ∧ cls.code < v.cls.code

theorem CueSched.poolVictim_isSome {q : CueSched} {cls : CueClass} {v : Cue} (h : q.GivesWay cls v) : (q.poolVictim cls).isSome = true := by
  obtain ⟨hmem, hflight, horigin, hcls⟩ := h
  unfold CueSched.poolVictim
  refine foldl_pick_isSome (better := fun a b => countLower a.arrival b.arrival) (fun _ => rfl) (fun _ _ => rfl) _ none
    (Or.inl (List.ne_nil_of_mem (a := v) (List.mem_filter.mpr ⟨hmem, ?_⟩)))
  simp only [Cue.isQueued, Bool.and_eq_true, Bool.or_eq_true, beq_iff_eq, decide_eq_true_eq]
  exact ⟨⟨hflight, horigin⟩, hcls⟩

/-- Room for an automatic record: there is some, or a record gives way. -/
theorem Part.poolRoom_auto (p : Part) (cls : CueClass) :
    (¬(p.cues.ofOrigin .auto + p.cues.ofOrigin .information < 24 ∨ ∃ v, p.cues.GivesWay cls v) → p.poolRoom .auto cls = none) ∧
    ((p.cues.ofOrigin .auto + p.cues.ofOrigin .information < 24 ∨ ∃ v, p.cues.GivesWay cls v) →
      p.poolRoom .auto cls = some p ∨ ∃ v, p.cues.GivesWay cls v ∧ p.poolRoom .auto cls = some (p.dropCue v.id)) := by
  have hfull : p.cues.quotaFull .auto = decide (24 ≤ p.cues.ofOrigin .auto + p.cues.ofOrigin .information) := rfl
  by_cases hroom : p.cues.ofOrigin .auto + p.cues.ofOrigin .information < 24
  · exact ⟨fun h => absurd (Or.inl hroom) h, fun _ => Or.inl (Part.poolRoom_of_room cls (hfull.trans (decide_eq_false (Nat.not_le.mpr hroom))))⟩
  · have hpool : p.poolRoom .auto cls = (p.cues.poolVictim cls).map fun v => p.dropCue v.id := by
      rw [Part.poolRoom, hfull, decide_eq_true (Nat.not_lt.mp hroom), if_neg (by decide), if_pos (beq_self_eq_true _)]
    rw [hpool]
    refine ⟨fun h => ?_, fun h => Or.inr ?_⟩
    · cases hv : p.cues.poolVictim cls with
      | none => rfl
      | some v => exact absurd (Or.inr ⟨v, CueSched.poolVictim_mem hv⟩) h
    · obtain ⟨v, hv⟩ := Option.isSome_iff_exists.mp (CueSched.poolVictim_isSome (h.resolve_left hroom).choose_spec)
      exact ⟨v, CueSched.poolVictim_mem hv, by rw [hv]; rfl⟩

end Sys2Proof.Machine
end

section
/-! The law of a cue that is asked for automatically (R49 to R55, R77, R149). -/

namespace Sys2Proof.Machine

/-! ## What is asked -/

theorem Part.tokensFor_eq (p : Part) (t : Template) (r : Record) (platform : Nat) : p.tokensFor t r platform = p.tokenLaw r platform t := by
  cases t with
  | delay =>
    unfold Part.tokensFor Part.tokenLaw
    dsimp only
    by_cases h : r.minutes.getD 0 ≤ 59
    · rw [if_pos h, if_pos (by omega)]
      rfl
    · rw [if_neg h, if_neg (by omega)]
      rfl
  | change => rfl
  | cancel => rfl
  | boarding => rfl

/-- The queued cues that a request supersedes (R77, R78). -/
def supersededBy (t : Template) (id : Nat) (c : Cue) : Bool := (t == .change || t == .delay) && autoCueOf id t c

theorem Cue.isAutoOf_single (c : Cue) (id : Nat) (t : Template) : c.isAutoOf id [t] = autoCueOf id t c := by
  unfold Cue.isAutoOf autoCueOf
  rw [List.any_cons, List.any_nil, Bool.or_false]

theorem Part.removeAuto_without {p : Part} (h : (p.cues.pool.map (·.id)).Nodup) (id : Nat) (t : Template) :
    p.removeAuto id [t] = p.without (autoCueOf id t) := by
  unfold Part.removeAuto
  rw [Part.removeQueued_eq_without _ _ h, show (fun c : Cue => c.isAutoOf id [t]) = autoCueOf id t from funext fun c => c.isAutoOf_single id t]

theorem Part.without_false (p : Part) : (p.without fun _ => false) = p := by
  have hgone (c : Cue) : (c.flight == .queued && false) = false := Bool.and_false _
  have hpool : p.cues.pool.filter (fun c => !(c.flight == .queued && false)) = p.cues.pool :=
    List.filter_eq_self.mpr fun c _ => by rw [hgone]; rfl
  have hqueues : p.cues.queues.map (fun l => l.filter fun id => p.cues.pool.all fun c => !((c.flight == .queued && false) && c.id == id)) =
      p.cues.queues := by
    refine (List.map_congr_left fun l _ => ?_).trans (List.map_id _)
    refine List.filter_eq_self.mpr fun id _ => List.all_eq_true.mpr fun c _ => ?_
    rw [hgone]
    rfl
  unfold Part.without
  dsimp only
  rw [hpool, hqueues]

/-- The zones that a request keeps: those it names, but for CONTROL_ONLY zones where the record has no Control copy. -/
def Part.keptZones (p : Part) (r : Record) (zones : List Nat) : List Nat :=
  (numbersFrom 1 8).filter fun z => decide (z ∈ zones ∧ (p.zoneMode z = .controlOnly → r.ctl ≠ none))

theorem Part.keptZones_eq (p : Part) (r : Record) (zones : List Nat) :
    ((zoneSet zones).filter fun z => p.zoneMode z != .controlOnly || r.ctl.isSome) = p.keptZones r zones := by
  unfold zoneSet Part.keptZones
  rw [List.filter_filter]
  refine List.filter_congr fun z _ => ?_
  rw [Bool.eq_iff_iff]
  simp only [Bool.and_eq_true, Bool.or_eq_true, bne_iff_ne, List.contains_iff_mem, decide_eq_true_eq, Option.isSome_iff_ne_none]
  rw [and_comm, ← imp_iff_not_or]

theorem Part.keptZones_mem {p : Part} {r : Record} {zones : List Nat} {z : Nat} (h : z ∈ p.keptZones r zones) : 1 ≤ z ∧ z ≤ 8 := by
  have := mem_numbersFrom.mp (List.mem_filter.mp h).1
  omega

/-- The record that a request asks to be placed. -/
def Part.autoCue (p : Part) (t : Template) (r : Record) (platform : Nat) (zones : List Nat) : NewCue :=
  { cls := if t = .change then .change else .service, origin := .auto, service := some r.id, template := some t, input := none,
    zones := zones, tokens := p.tokenLaw r platform t }

/-- What is placed when the superseded cues have gone. -/
theorem Part.placeOrDrop_asked {p q : Part} {t : Template} {r : Record} (hq : q = p.without (supersededBy t r.id)) (platform : Nat) (zones : List Nat) :
    q.placeOrDrop
      { cls := templateClass t, origin := .auto, service := some r.id, template := some t, input := none, zones := zones,
        tokens := q.tokensFor t r platform } = (p.without (supersededBy t r.id)).placeOrDrop (p.autoCue t r platform zones) := by
  have hcls : templateClass t = if t = .change then .change else .service := by cases t <;> rfl
  have htokens : q.tokensFor t r platform = p.tokenLaw r platform t := by
    rw [hq]
    exact Part.tokensFor_eq p t r platform
  rw [htokens, hcls, hq]
  rfl

theorem Part.askCue_eq {p : Part} {r : Record} (hr : p.record? r.id = some r) (h : (p.cues.pool.map (·.id)).Nodup) (t : Template)
    (platform : Nat) (zones : List Nat) : p.askCue t r.id platform zones =
      if p.feed.state ≠ .live ∧ r.ctl = none ∨ p.keptZones r zones = [] then p
      else (p.without (supersededBy t r.id)).placeOrDrop (p.autoCue t r platform (p.keptZones r zones)) := by
  have hcond : (p.feedBars r || (p.keptZones r zones).isEmpty) = true ↔ p.feed.state ≠ .live ∧ r.ctl = none ∨ p.keptZones r zones = [] := by
    simp only [Part.feedBars, Bool.or_eq_true, Bool.and_eq_true, bne_iff_ne, Option.isNone_iff_eq_none, List.isEmpty_iff]
  unfold Part.askCue
  rw [hr]
  dsimp only
  rw [Part.keptZones_eq]
  by_cases hbar : p.feed.state ≠ .live ∧ r.ctl = none ∨ p.keptZones r zones = []
  · rw [if_pos hbar, if_pos (hcond.mpr hbar)]
  · rw [if_neg hbar, if_neg (fun hx => hbar (hcond.mp hx))]
    cases t with
    | change => exact Part.placeOrDrop_asked (t := .change) (Part.removeAuto_without h r.id .change) _ _
    | delay => exact Part.placeOrDrop_asked (t := .delay) (Part.removeAuto_without h r.id .delay) _ _
    | cancel => exact Part.placeOrDrop_asked (t := .cancel) p.without_false.symm _ _
    | boarding => exact Part.placeOrDrop_asked (t := .boarding) p.without_false.symm _ _

/-! ## Placing it -/

theorem Part.placeOrDrop_dropped {q : Part} {n : NewCue} (h : (n.zones.filter fun z => q.cues.hasRoom z n.cls) = [] ∨ q.poolRoom n.origin n.cls = none) :
    q.placeOrDrop n = q.latchNat .cueDropped 0 := by
  unfold Part.placeOrDrop
  by_cases hz : (n.zones.filter fun z => q.cues.hasRoom z n.cls) = []
  · rw [Part.place_queueFull rfl hz]
  · rw [Part.place_poolFull rfl hz (h.resolve_left hz)]

theorem Part.placeOrDrop_created {q x : Part} {n : NewCue} (h : (n.zones.filter fun z => q.cues.hasRoom z n.cls) ≠ [])
    (hroom : q.poolRoom n.origin n.cls = some x) : q.placeOrDrop n =
      (x.withNewCue n (n.zones.filter fun z => q.cues.hasRoom z n.cls)).insertCue x.cues.newId n.cls
        (n.zones.filter fun z => q.cues.hasRoom z n.cls) := by
  unfold Part.placeOrDrop Part.place
  dsimp only
  rw [if_neg (by simpa using h), hroom]
  rfl

/-- The scheduler `r` has lost records of `q`, each queued, with their references, and nothing else has changed. -/
structure CueSched.Thinned (q r : CueSched) : Prop where
  frame : r = { q with pool := r.pool, queues := r.queues }
  pool : ∀ c ∈ r.pool, c ∈ q.pool
  kept : ∀ c ∈ q.pool, c.flight ≠ .queued → c ∈ r.pool
  queues : ∀ l ∈ r.queues, ∃ m ∈ q.queues, ∀ w ∈ l, w ∈ m

theorem CueSched.Thinned.trans {q r t : CueSched} (h : q.Thinned r) (h' : r.Thinned t) : q.Thinned t where
  frame := h'.frame.trans (congrArg (fun x : CueSched => { x with pool := t.pool, queues := t.queues }) h.frame :)
  pool c hc := h.pool c (h'.pool c hc)
  kept c hc hf := h'.kept c (h.kept c hc hf) hf
  queues l hl := by
    obtain ⟨m, hm, hlm⟩ := h'.queues l hl
    obtain ⟨k, hk, hmk⟩ := h.queues m hm
    exact ⟨k, hk, fun w hw => hmk w (hlm w hw)⟩

theorem CueSched.Thinned.refl (q : CueSched) : q.Thinned q := ⟨rfl, fun _ h => h, fun _ h _ => h, fun l hl => ⟨l, hl, fun _ h => h⟩⟩

theorem Part.thinned_without (p : Part) (sel : Cue → Bool) : p.cues.Thinned (p.without sel).cues where
  frame := rfl
  pool c hc := (List.mem_filter.mp hc).1
  kept c hc hf := List.mem_filter.mpr ⟨hc, by simp [hf]⟩
  queues l hl := by
    obtain ⟨m, hm, rfl⟩ := List.mem_map.mp hl
    exact ⟨m, hm, fun w hw => (List.mem_filter.mp hw).1⟩

/-- A queued record freed, where ids are unique. -/
theorem CueSched.thinned_free {q : CueSched} (h : (q.pool.map (·.id)).Nodup) {v : Cue} (hv : v ∈ q.pool) (hf : v.flight = .queued) :
    q.Thinned (q.free v.id) where
  frame := rfl
  pool c hc := (List.mem_filter.mp hc).1
  kept c hc hcf := List.mem_filter.mpr ⟨hc, bne_iff_ne.mpr fun hid => hcf (by rw [List.inj_on_of_nodup_map h hc hv hid, hf])⟩
  queues l hl := by
    obtain ⟨m, hm, rfl⟩ := List.mem_map.mp hl
    exact ⟨m, hm, fun w hw => (List.mem_filter.mp hw).1⟩

theorem CueSched.Thinned.untaken {q r : CueSched} (h : q.Thinned r) {id : Nat} (hid : q.idTaken id = false) : r.idTaken id = false := by
  have hreserved : r.reserved = q.reserved := (congrArg CueSched.reserved h.frame :)
  rw [CueSched.idTaken, Bool.or_eq_false_iff] at hid ⊢
  refine ⟨Bool.eq_false_iff.mpr fun hx => ?_, hreserved ▸ hid.2⟩
  obtain ⟨c, hc, hcid⟩ := List.any_eq_true.mp hx
  have htaken : q.pool.any (·.id == id) = true := List.any_eq_true.mpr ⟨c, h.pool c hc, hcid⟩
  rw [hid.1] at htaken
  cases htaken

theorem CueSched.Thinned.newId_free {q r : CueSched} (h : q.Thinned r) (h1 : 1 ≤ q.nextId) (h2 : q.nextId ≤ 65535)
    (hid : ∃ id, 1 ≤ id ∧ id ≤ 65535 ∧ q.idTaken id = false) : r.idTaken r.newId = false ∧ 1 ≤ r.newId ∧ r.newId ≤ 65535 := by
  have hnext : r.nextId = q.nextId := (congrArg CueSched.nextId h.frame :)
  obtain ⟨id, hid1, hid2, hfree⟩ := hid
  exact ⟨CueSched.newId_of_free (hnext ▸ h1) (hnext ▸ h2) ⟨id, hid1, hid2, h.untaken hfree⟩, firstFree_range _ _ (hnext ▸ h1) (hnext ▸ h2)⟩

/-- The room that a request finds in the pool. -/
theorem Part.roomFound {q : Part} {cls : CueClass} (hnodup : (q.cues.pool.map (·.id)).Nodup)
    (hroom : q.cues.ofOrigin .auto + q.cues.ofOrigin .information < 24 ∨ ∃ v, q.cues.GivesWay cls v) :
    ∃ x, q.poolRoom .auto cls = some x ∧ q.cues.Thinned x.cues ∧ x.elapsed = q.elapsed ∧
      (q.cues.ok → ∀ z c, q.cues.hasRoom z c = true → x.cues.hasRoom z c = true) ∧ x.cues.queues.length = q.cues.queues.length := by
  rcases (q.poolRoom_auto cls).2 hroom with h | ⟨v, ⟨hmem, hflight, _⟩, h⟩
  · exact ⟨q, h, .refl _, rfl, fun _ _ _ hz => hz, rfl⟩
  · exact ⟨_, h, CueSched.thinned_free hnodup hmem hflight, rfl, fun hok z c hz => CueSched.hasRoom_free hok v.id hz, List.length_map _⟩

theorem Part.askCue_law {p : Part} {r : Record} {t : Template} {platform : Nat} {zones : List Nat} (hr : p.record? r.id = some r)
    (hok : p.cues.ok) (hqueues : p.cues.queues.length = 8) (hnodup : (p.cues.pool.map (·.id)).Nodup) (h1 : 1 ≤ p.cues.nextId)
    (h2 : p.cues.nextId ≤ 65535) (hid : ∃ id, 1 ≤ id ∧ id ≤ 65535 ∧ p.cues.idTaken id = false) :
    p.cueAskedLaw t r platform zones (p.askCue t r.id platform zones) := by
  unfold Part.cueAskedLaw
  intro kept barred cls q placed room
  have hask := Part.askCue_eq hr hnodup t platform zones
  have hq : p.without (supersededBy t r.id) = q := rfl
  have hkept : p.keptZones r zones = kept := rfl
  rw [hq, hkept] at hask
  have hthin : p.cues.Thinned q.cues := p.thinned_without _
  have hqok : q.cues.ok := by
    have h := (p.keeps_removeQueued (supersededBy t r.id)).cues.ok hok
    rwa [Part.removeQueued_eq_without _ _ hnodup, hq] at h
  have hqnodup : (q.cues.pool.map (·.id)).Nodup := hnodup.sublist (List.filter_sublist.map _)
  have hqlen : q.cues.queues.length = 8 := (List.length_map _).trans hqueues
  have hgone : ∀ c ∈ q.cues.pool, c.flight = .queued → supersededBy t r.id c = false := fun c hc hf => by
    have hx : (!(c.flight == .queued && supersededBy t r.id c)) = true := (List.mem_filter.mp hc).2
    rw [hf] at hx
    simpa using hx
  have hroom : room ↔ q.cues.ofOrigin .auto + q.cues.ofOrigin .information < 24 ∨ ∃ v, q.cues.GivesWay cls v := Iff.rfl
  have hplaced : ((p.autoCue t r platform kept).zones.filter fun z => q.cues.hasRoom z (p.autoCue t r platform kept).cls) = placed := rfl
  refine ⟨fun h => hask.trans (if_pos h), fun hb hk h => ?_, fun hb hp h => ?_⟩
  · rw [hask, if_neg (not_or.mpr ⟨hb, hk⟩)]
    refine Part.placeOrDrop_dropped (h.imp (fun h => h) fun h => ?_)
    exact (q.poolRoom_auto cls).1 fun hx => h (hroom.mpr hx)
  · have hk : kept ≠ [] := fun h0 => hp (by rw [show placed = kept.filter _ from rfl, h0]; rfl)
    rw [if_neg (not_or.mpr ⟨hb, hk⟩)] at hask
    obtain ⟨x, hx, hxthin, hxelapsed, hxroom, hxlen⟩ := Part.roomFound hqnodup (hroom.mp h)
    have hcreated := hask.trans (Part.placeOrDrop_created (x := x) (by rw [hplaced]; exact hp) hx)
    rw [hplaced] at hcreated
    have hall := hthin.trans hxthin
    obtain ⟨hfree, hlow, hhigh⟩ := hall.newId_free h1 h2 hid
    have hz : ∀ z ∈ placed, 1 ≤ z ∧ z ≤ 8 := fun z hzin => Part.keptZones_mem (List.mem_filter.mp hzin).1
    have hmade : q.Keeps (x.withNewCue (p.autoCue t r platform kept) placed) := by
      obtain ⟨hkeeps, hquota⟩ := Part.keeps_poolRoom hx
      exact hkeeps.createCue (p.autoCue t r platform kept) placed hz hquota
    have hlaw := Part.placed_insertCue (p := x) (n := p.autoCue t r platform kept) (zones := placed) (hmade.cues.ok hqok)
      (by show (if t = .change then CueClass.change else .service) ≠ .emergency; split <;> exact nofun) hfree
      ((List.nodup_range.map fun _ _ => by simp).filter _ |>.filter _) fun z hzin => by
        obtain ⟨hz1, hz8⟩ := hz z hzin
        exact ⟨hz1, by omega, hxroom hqok _ _ (List.mem_filter.mp hzin).2⟩
    have hcueid : (x.newCue (p.autoCue t r platform kept) placed).id = x.cues.newId := rfl
    have hcue : x.newCue (p.autoCue t r platform kept) placed =
        { id := x.cues.newId, cls := cls, origin := .auto, arrival := p.cues.nextArrival, service := some r.id, template := some t,
          input := none, zones := placed.map fun z => (z, .pending), tokens := p.tokenLaw r platform t, required := none,
          replayed := false, created := p.elapsed, flight := .queued } := by
      have harrival : x.cues.nextArrival = p.cues.nextArrival := (congrArg CueSched.nextArrival hall.frame :)
      unfold Part.newCue
      rw [harrival, hxelapsed]
      rfl
    have hframe := p.askCue_beyondCues t r.id platform zones
    rw [← hcreated] at hlaw
    generalize p.askCue t r.id platform zones = after at *
    refine ⟨(congrArg (fun y : Part => { y with cues := after.cues, info := after.info, ctl := after.ctl }) hframe :), ?_,
      x.newCue (p.autoCue t r platform kept) placed, hlaw.mem, ?_, hlow, hhigh, hlaw.own, fun y hy => ?_, fun hn => ?_, hlaw.refs,
      fun ht c hc hf ha => ?_, fun c hc hf hout => ?_⟩
    · exact hlaw.arrival.trans (congrArg countNext (congrArg CueSched.nextArrival hall.frame :))
    · rw [hcueid]
      exact hcue
    · rw [hcueid]
      intro hyid
      have hreserved : x.cues.reserved = p.cues.reserved := (congrArg CueSched.reserved hall.frame :)
      have htaken : x.cues.reserved.any (·.1 == x.cues.newId) = true := List.any_eq_true.mpr ⟨y, hreserved ▸ hy, beq_iff_eq.mpr hyid⟩
      rw [CueSched.idTaken, htaken, Bool.or_true] at hfree
      cases hfree
    · have hnext : x.cues.nextId = p.cues.nextId := (congrArg CueSched.nextId hall.frame :)
      exact (CueSched.newId_next (hnext ▸ hall.untaken hn)).trans hnext
    · rcases hlaw.kin c hc with heq | ⟨d, hd, hcd⟩
      · exact heq
      · have hd' := hgone d (hxthin.pool d hd) ((congrArg Cue.flight hcd :).symm.trans hf)
        have hda : autoCueOf r.id t d = true := by
          rw [hcd] at ha
          exact ha
        unfold supersededBy at hd'
        rw [hda, Bool.and_true] at hd'
        rcases ht with rfl | rfl <;> cases hd'
    · refine hlaw.kept c (hall.kept c hc hf) fun l hl hin => ?_
      obtain ⟨m, hm, hlm⟩ := hall.queues l hl
      exact hout m hm (hlm _ hin)

end Sys2Proof.Machine
end

section
/-! One record of the table read and written, the marks of the event, and the classification of a platform change (R75). -/

namespace Sys2Proof.Machine

/-! ## The marks of the event -/

/-- The event's marks are those of `p`, but for whether the Wall Composer has been told. -/
def Part.EvKept (p q : Part) : Prop := q.ev = { p.ev with wallTold := q.ev.wallTold }

theorem Part.EvKept.of_eq {p q : Part} (h : q.ev = p.ev) : p.EvKept q := by
  unfold Part.EvKept
  rw [h]

theorem Part.EvKept.refl (p : Part) : p.EvKept p := rfl

theorem Part.EvKept.trans {p q r : Part} (h : p.EvKept q) (h' : q.EvKept r) : p.EvKept r :=
  Eq.trans h' (congrArg (fun e : Event => ({ e with wallTold := r.ev.wallTold } : Event)) h :)

theorem Part.EvKept.arrivalMark {p q : Part} (h : p.EvKept q) : q.ev.arrivalMark = p.ev.arrivalMark := (congrArg (fun e => e.arrivalMark) h :)

theorem Part.EvKept.handedOn {p q : Part} (h : p.EvKept q) : q.ev.handedOn = p.ev.handedOn := (congrArg (fun e => e.handedOn) h :)

theorem Part.evKept_tellWall (p : Part) : p.EvKept p.tellWall := rfl

theorem Part.evKept_dropNotice (p : Part) (n : Notice) : p.EvKept (p.dropNotice n) := by
  have hrotate (q : Part) : q.EvKept (q.rotateFrom n).tellWall := by
    unfold Part.rotateFrom
    split <;> rfl
  unfold Part.dropNotice
  dsimp only
  split
  · split
    · exact hrotate _
    · rfl
  · rfl

theorem Part.evKept_withdrawNotice (p : Part) (k : NoticeKind) (s : Option Nat) : p.EvKept (p.withdrawNotice k s) := by
  unfold Part.withdrawNotice
  split
  · exact p.evKept_dropNotice _
  · exact .refl p

theorem Part.evKept_createNotice (p : Part) (k : NoticeKind) (n : Nat) (s : Option Nat) (t : Text) (e : Option Nat) (o : NoticeOrigin) :
    p.EvKept (p.createNotice k n s t e o).1 := by
  unfold Part.createNotice
  dsimp only
  split <;> rfl

theorem Part.evKept_askNotice (p : Part) (k : NoticeKind) (s : Option Nat) : p.EvKept (p.askNotice k s) := by
  unfold Part.askNotice
  split
  · exact (p.evKept_dropNotice _).trans (Part.evKept_createNotice _ _ _ _ _ _ _)
  · split
    · next q hq =>
      refine Part.EvKept.trans ?_ (Part.evKept_createNotice _ _ _ _ _ _ _)
      unfold Part.noticeRoom at hq
      split at hq
      · exact Option.some.inj hq ▸ .refl p
      · obtain ⟨n, _, rfl⟩ := Option.map_eq_some_iff.mp hq
        exact p.evKept_dropNotice n
    · exact .refl p

theorem Part.evKept_removeQueued (p : Part) (sel : Cue → Bool) : p.EvKept (p.removeQueued sel) := .of_eq rfl

theorem Part.evKept_askCue (p : Part) (t : Template) (id pl : Nat) (zs : List Nat) : p.EvKept (p.askCue t id pl zs) :=
  .of_eq (Part.ev_of_cues (p.askCue_beyondCues t id pl zs))

theorem Part.evKept_askRecordCue (p : Part) (t : Template) (id : Nat) : p.EvKept (p.askRecordCue t id) :=
  .of_eq (Part.ev_of_cues (p.askRecordCue_beyondCues t id))

/-! ## One record -/

theorem find_eq_of_mem {l : List Record} (h : (l.map (·.id)).Nodup) {r : Record} (hr : r ∈ l) : l.find? (·.id == r.id) = some r := by
  cases hf : l.find? (·.id == r.id) with
  | none => exact absurd (beq_self_eq_true r.id) (by simpa using List.find?_eq_none.mp hf r hr)
  | some x =>
    obtain ⟨hx, hid⟩ := find_id_eq hf
    rw [eq_of_id h hx hr hid]

theorem Part.record?_of_mem {p : Part} (h : (p.table.records.map (·.id)).Nodup) {r : Record} (hr : r ∈ p.table.records) :
    p.record? r.id = some r := find_eq_of_mem h hr

theorem Part.record?_modRecord (p : Part) {id : Nat} {f : Record → Record} (hf : ∀ r ∈ p.table.records, r.id = id → (f r).id = id) :
    (p.modRecord id f).record? id = (p.record? id).map f := by
  have hmap (l : List Record) (hl : ∀ r ∈ l, r.id = id → (f r).id = id) :
      (l.map fun r => if r.id == id then f r else r).find? (·.id == id) = (l.find? (·.id == id)).map f := by
    induction l with
    | nil => rfl
    | cons r l ih =>
      by_cases hid : r.id = id
      · have hr := hl r List.mem_cons_self hid
        rw [List.map_cons, if_pos (beq_iff_eq.mpr hid), List.find?_cons, List.find?_cons, beq_iff_eq.mpr hr, beq_iff_eq.mpr hid]
        rfl
      · have hne : (r.id == id) = false := by simpa using hid
        rw [List.map_cons, hne, if_neg Bool.false_ne_true, List.find?_cons, List.find?_cons, hne]
        exact ih fun r hr => hl r (List.mem_cons_of_mem _ hr)
  exact hmap p.table.records hf

theorem Part.record?_congr {p q : Part} (h : q.table = p.table) (id : Nat) : q.record? id = p.record? id := by
  unfold Part.record?
  rw [h]

theorem Part.modRecord_eq (p : Part) (id : Nat) (f : Record → Record) : p.modRecord id f =
    { p with table := { p.table with records := p.table.records.map fun x => if x.id = id then f x else x } } := by
  unfold Part.modRecord Part.mapRecords
  simp only [beq_iff_eq]

/-- A change of the one record of an id. -/
theorem Part.modRecord_congr {p : Part} (h : (p.table.records.map (·.id)).Nodup) {r : Record} (hr : r ∈ p.table.records) {f g : Record → Record}
    (hfg : f r = g r) : p.modRecord r.id f = p.modRecord r.id g := by
  refine congrArg (fun l => ({ p with table := { p.table with records := l } } : Part)) (List.map_congr_left fun x hx => ?_)
  by_cases hid : x.id = r.id
  · rw [eq_of_id h hx hr hid, if_pos (beq_self_eq_true _), if_pos (beq_self_eq_true _), hfg]
  · rw [if_neg (by simpa using hid), if_neg (by simpa using hid)]

/-- The record `id` takes a mark, or loses it. -/
def Part.marked (p : Part) (id : Nat) (m : Option Mark) : Part :=
  { p with table := { p.table with records := p.table.records.map fun x => if x.id = id then { x with mark := m } else x } }

theorem Part.endMark_eq (p : Part) (id : Nat) : p.endMark id = p.marked id none := p.modRecord_eq id _

theorem Part.marked_mark {p : Part} {r : Record} (hr : p.record? r.id = some r) (m : Option Mark) :
    ((p.marked r.id m).record? r.id).bind (·.mark) = m := by
  have hmod : p.marked r.id m = p.modRecord r.id fun x => { x with mark := m } := (p.modRecord_eq r.id _).symm
  have hrecord := p.record?_modRecord (id := r.id) (f := fun x => { x with mark := m }) fun _ _ h => h
  rw [hmod, hrecord, hr]
  rfl

/-- The mark that a change or a withdrawal leaves (R77, R79). -/
def Part.newMark (p : Part) (r : Record) (old : Nat) : Mark :=
  { original := (r.mark.map (·.original)).getD old, expiry := p.elapsed + p.markTime, announced := (r.mark.map (·.announced)).getD false }

theorem Part.startMark_eq {p : Part} (h : (p.table.records.map (·.id)).Nodup) {r : Record} (hr : r ∈ p.table.records) (old : Nat) :
    p.startMark r.id old = p.marked r.id (some (p.newMark r old)) :=
  (Part.modRecord_congr h hr (g := fun x => { x with mark := some (p.newMark r old) }) rfl).trans (p.modRecord_eq r.id fun x => { x with mark := some (p.newMark r old) })

/-! ## The classification (R75) -/

section
variable {mark : Option Mark} {before after : Option Nat}

theorem classify_same (h : before = after) : classify mark before after = .same := by
  unfold classify
  rw [if_pos (beq_iff_eq.mpr h)]

theorem classify_reversal {n : Nat} (ha : after = some n) (hb : before ≠ some n) (hm : mark.map (·.original) = some n) :
    classify mark before after = .reversal n := by
  subst ha
  unfold classify
  rw [if_neg (by simpa using hb), hm]
  exact if_pos (beq_self_eq_true n)

theorem classify_allocation {n : Nat} (ha : after = some n) (hb : before = none) (hm : mark.map (·.original) ≠ some n) :
    classify mark before after = .allocation := by
  subst ha hb
  unfold classify
  rw [if_neg (by simp)]
  cases ho : mark.map (·.original) with
  | none => rfl
  | some o => exact if_neg (by rw [ho] at hm; simpa using fun h : n = o => hm (h ▸ rfl))

theorem classify_change {b n : Nat} (ha : after = some n) (hb : before = some b) (hne : b ≠ n) (hm : mark.map (·.original) ≠ some n) :
    classify mark before after = .change b n := by
  subst ha hb
  unfold classify
  rw [if_neg (by simpa using hne)]
  cases ho : mark.map (·.original) with
  | none => rfl
  | some o => exact if_neg (by rw [ho] at hm; simpa using fun h : n = o => hm (h ▸ rfl))

theorem classify_withdrawal {b : Nat} (ha : after = none) (hb : before = some b) : classify mark before after = .withdrawal b := by
  subst ha hb
  unfold classify
  rw [if_neg (by simp)]

end

theorem Status.running_iff (s : Status) : s.running = true ↔ s = .normal ∨ s = .boarding ∨ s = .closed := by
  cases s <;> decide

theorem becomes_iff (before after : Running) (st : Status) : becomes before after st = true ↔ after.status = st ∧ before.status ≠ st := by
  simp [becomes]

end Sys2Proof.Machine
end

section
/-! The Change Tracker (R75 to R84; O39). -/

namespace Sys2Proof.Machine

/-! ## The steps of the tracker -/

/-- The CHANGE notice of a service, asked for where its status runs and withdrawn elsewhere. -/
def Part.noticed (p : Part) (r : Record) : Part :=
  if r.running.status.running then p.askNotice .change (some r.id) else p.withdrawNotice .change (some r.id)

/-- The queued BOARDING cues of a service made before the event. -/
def Part.earlierBoarding (p : Part) (id : Nat) (c : Cue) : Bool := autoCueOf id .boarding c && countLower c.arrival p.ev.arrivalMark

theorem Part.noticed_beyondNotices (p : Part) (r : Record) : (p.noticed r).beyondNotices = p.beyondNotices := by
  unfold Part.noticed
  split
  · exact p.askNotice_beyondNotices _ _
  · exact p.withdrawNotice_beyondNotices _ _

theorem Part.evKept_noticed (p : Part) (r : Record) : p.EvKept (p.noticed r) := by
  unfold Part.noticed
  split
  · exact p.evKept_askNotice _ _
  · exact p.evKept_withdrawNotice _ _

theorem Part.noticed_cues (p : Part) (r : Record) : (p.noticed r).cues = p.cues := (congrArg Part.cues (p.noticed_beyondNotices r) :)

theorem Part.noticed_table (p : Part) (r : Record) : (p.noticed r).table = p.table := (congrArg Part.table (p.noticed_beyondNotices r) :)

theorem Part.dropEarlierBoarding_without {p : Part} (h : (p.cues.pool.map (·.id)).Nodup) (id : Nat) :
    p.dropEarlierBoarding id = p.without (p.earlierBoarding id) := by
  have hsel : (fun c : Cue => c.isAutoOf id [.boarding] && countLower c.arrival p.ev.arrivalMark) = p.earlierBoarding id :=
    funext fun c => by rw [Cue.isAutoOf_single]; rfl
  unfold Part.dropEarlierBoarding
  rw [hsel, Part.removeQueued_eq_without _ _ h]

theorem Part.dropEarlierBoarding_beyondCues (p : Part) (id : Nat) : (p.dropEarlierBoarding id).beyondCues = p.beyondCues :=
  p.removeQueued_beyondCues _

/-- The first steps of R77 and R79: the mark, the notice, the earlier boarding calls. -/
def Part.changeMarked (p : Part) (r : Record) (old : Nat) : Part :=
  ((p.startMark r.id old).noticed r).dropEarlierBoarding r.id

theorem Part.changeMarked_eq {p : Part} (hr : (p.table.records.map (·.id)).Nodup) {r : Record} (hmem : r ∈ p.table.records)
    (hc : (p.cues.pool.map (·.id)).Nodup) (old : Nat) : p.changeMarked r old =
      ((p.marked r.id (some (p.newMark r old))).noticed r).without (p.earlierBoarding r.id) := by
  have hmark : ((p.marked r.id (some (p.newMark r old))).noticed r).ev.arrivalMark = p.ev.arrivalMark :=
    (Part.evKept_noticed _ r).arrivalMark
  have hsel : ((p.marked r.id (some (p.newMark r old))).noticed r).earlierBoarding r.id = p.earlierBoarding r.id := by
    unfold Part.earlierBoarding
    rw [hmark]
  unfold Part.changeMarked
  rw [Part.startMark_eq hr hmem, Part.dropEarlierBoarding_without (by rw [Part.noticed_cues]; exact hc), hsel]

theorem Part.changeMarked_table (p : Part) (r : Record) (old : Nat) : (p.changeMarked r old).table = (p.startMark r.id old).table :=
  (congrArg Part.table (Part.dropEarlierBoarding_beyondCues ((p.startMark r.id old).noticed r) r.id) :).trans (Part.noticed_table _ r)

theorem Part.changeMarked_thinned {p : Part} (hr : (p.table.records.map (·.id)).Nodup) {r : Record} (hmem : r ∈ p.table.records)
    (hc : (p.cues.pool.map (·.id)).Nodup) (old : Nat) : p.cues.Thinned (p.changeMarked r old).cues := by
  rw [Part.changeMarked_eq hr hmem hc]
  have h := ((p.marked r.id (some (p.newMark r old))).noticed r).thinned_without (p.earlierBoarding r.id)
  rwa [Part.noticed_cues] at h

/-! ## The classes -/

section
variable {p : Part} {before : Running} {r : Record}

theorem Part.trackPlatform_same (h : before.platform = r.running.platform) : p.trackPlatform before r = p := by
  unfold Part.trackPlatform
  rw [classify_same h]

theorem Part.trackPlatform_reversal {n : Nat} (ha : r.running.platform = some n) (hb : before.platform ≠ some n)
    (hm : r.mark.map (·.original) = some n) : p.trackPlatform before r = p.platformReversed r before.platform n := by
  unfold Part.trackPlatform
  rw [classify_reversal ha hb hm]

theorem Part.trackPlatform_allocation {n : Nat} (ha : r.running.platform = some n) (hb : before.platform = none)
    (hm : r.mark.map (·.original) ≠ some n) : p.trackPlatform before r = p.platformAllocated r := by
  unfold Part.trackPlatform
  rw [classify_allocation ha hb hm]

theorem Part.trackPlatform_change {b n : Nat} (ha : r.running.platform = some n) (hb : before.platform = some b) (hne : b ≠ n)
    (hm : r.mark.map (·.original) ≠ some n) : p.trackPlatform before r =
      (if r.autoCue && r.running.status.running then (p.changeMarked r b).askCue .change r.id n
          [p.zoneOfPlatform ((r.mark.map (·.original)).getD b), p.zoneOfPlatform b, p.zoneOfPlatform n]
        else p.changeMarked r b).latchNat .platformChanged r.id := by
  have hstore : (p.changeMarked r b).store = p.store :=
    (congrArg Part.store (Part.dropEarlierBoarding_beyondCues ((p.startMark r.id b).noticed r) r.id) :).trans
      (congrArg Part.store (Part.noticed_beyondNotices (p.startMark r.id b) r) :)
  have hzone (n : Nat) : (p.changeMarked r b).zoneOfPlatform n = p.zoneOfPlatform n := by
    unfold Part.zoneOfPlatform Part.cfg Part.row
    rw [hstore]
  unfold Part.trackPlatform
  rw [classify_change ha hb hne hm]
  show (if r.autoCue && r.running.status.running then (p.changeMarked r b).askCue .change r.id n
      [(p.changeMarked r b).zoneOfPlatform ((r.mark.map (·.original)).getD b), (p.changeMarked r b).zoneOfPlatform b,
        (p.changeMarked r b).zoneOfPlatform n] else p.changeMarked r b).latchNat .platformChanged r.id = _
  rw [hzone, hzone, hzone]

theorem Part.trackPlatform_withdrawal {b : Nat} (ha : r.running.platform = none) (hb : before.platform = some b) :
    p.trackPlatform before r = ((p.changeMarked r b).removeAuto r.id [.change]).latchNat .platformChanged r.id := by
  unfold Part.trackPlatform
  rw [classify_withdrawal ha hb]
  rfl

end

/-! ## The mark after the tracker -/

section
variable {p : Part} {before : Running} {r : Record} (hr : (p.table.records.map (·.id)).Nodup) (hmem : r ∈ p.table.records)
include hr hmem

/-- The mark of the service after the tracker has seen it, and its table. -/
theorem Part.markOf_table {q : Part} {m : Option Mark} (ht : q.table = (p.marked r.id m).table) : (q.record? r.id).bind (·.mark) = m := by
  rw [Part.record?_congr ht]
  exact Part.marked_mark (Part.record?_of_mem hr hmem) m

theorem Part.trackPlatform_change_table {b n : Nat} (ha : r.running.platform = some n) (hb : before.platform = some b) (hne : b ≠ n)
    (hm : r.mark.map (·.original) ≠ some n) : (p.trackPlatform before r).table = (p.marked r.id (some (p.newMark r b))).table := by
  have hask (x : Part) (c : Bool) (zs : List Nat) :
      ((if c then x.askCue .change r.id n zs else x).latchNat .platformChanged r.id).table = x.table := by
    cases c with
    | false => rfl
    | true => exact (congrArg Part.table (Part.askCue_beyondCues x .change r.id n zs) :)
  rw [Part.trackPlatform_change ha hb hne hm, ← Part.startMark_eq hr hmem, hask]
  exact p.changeMarked_table r b

theorem Part.trackPlatform_withdrawal_table {b : Nat} (ha : r.running.platform = none) (hb : before.platform = some b) :
    (p.trackPlatform before r).table = (p.marked r.id (some (p.newMark r b))).table := by
  rw [Part.trackPlatform_withdrawal ha hb, ← Part.startMark_eq hr hmem]
  exact p.changeMarked_table r b

end

theorem Part.latched_latchNat (p : Part) (k : EventKind) (n : Nat) (l : Link) : ((p.latchNat k n).port l).isLatched k = true := by
  rw [Part.latchNat, Part.latch_port]
  exact Port.latch_isLatched_same _ _ _

theorem Part.platformAllocated_eq (p : Part) (r : Record) : p.platformAllocated r =
    if r.mark = none then p else (p.marked r.id none).withdrawNotice .change (some r.id) := by
  unfold Part.platformAllocated
  rw [Part.endMark_eq]
  cases r.mark <;> rfl

theorem Part.platformReversed_eq {p : Part} {r : Record} {m : Mark} (hm : r.mark = some m) (hc : (p.cues.pool.map (·.id)).Nodup)
    (before : Option Nat) (n : Nat) : p.platformReversed r before n =
      ((if m.announced && r.autoCue && r.running.status.running then
          ((p.withdrawNotice .change (some r.id)).without (autoCueOf r.id .change)).askCue .change r.id n
            (p.zoneOfPlatform n :: (before.map p.zoneOfPlatform).toList)
        else (p.withdrawNotice .change (some r.id)).without (autoCueOf r.id .change)).marked r.id none).latchNat .platformChanged r.id := by
  have hcues : (p.withdrawNotice .change (some r.id)).cues = p.cues := Part.cues_of_notices (p.withdrawNotice_beyondNotices _ _)
  have hstore : (p.withdrawNotice .change (some r.id)).store = p.store := Part.store_of_notices (p.withdrawNotice_beyondNotices _ _)
  have hzone (sel : Cue → Bool) : ((p.withdrawNotice .change (some r.id)).without sel).zoneOfPlatform = p.zoneOfPlatform := by
    funext n
    show byteField ((p.withdrawNotice .change (some r.id)).store.working.getD 3 []) (15 + n) = _
    rw [hstore]
    rfl
  unfold Part.platformReversed
  dsimp only
  rw [Part.endMark_eq, Part.removeAuto_without (by rw [hcues]; exact hc), hm, hzone]
  rfl

/-! ## The status (R84) -/

theorem Part.track_eq {p : Part} {r : Record} (hr : p.record? r.id = some r) (before : Running) :
    p.track before r.id = (p.trackPlatform before r).trackStatus before r := by
  unfold Part.track
  rw [hr]

section
variable {q : Part} {before : Running} {r : Record}

theorem Part.trackStatus_eq : q.trackStatus before r =
    (let stops := (becomes before r.running .cancelled || becomes before r.running .departed) &&
        (r.mark.isSome || ((q.record? r.id).bind (·.mark)).isSome)
     let x := if stops then (q.withdrawNotice .change (some r.id)).removeAuto r.id [.change] else q
     if before.status == .cancelled && r.running.status.running && before.platform == r.running.platform &&
       ((q.record? r.id).bind (·.mark)).isSome then x.askNotice .change (some r.id) else x) := rfl

/-- The conditions of R84 exclude each other. -/
theorem Part.trackStatus_stops (hc : (q.cues.pool.map (·.id)).Nodup)
    (h : (Becomes before r.running .cancelled ∨ Becomes before r.running .departed) ∧
      (r.mark ≠ none ∨ ((q.record? r.id).bind (·.mark)).isSome = true)) :
    q.trackStatus before r = (q.withdrawNotice .change (some r.id)).without (autoCueOf r.id .change) := by
  obtain ⟨hends, hmark⟩ := h
  have hcues : (q.withdrawNotice .change (some r.id)).cues = q.cues := Part.cues_of_notices (q.withdrawNotice_beyondNotices _ _)
  have hrunning : r.running.status.running = false := by
    rcases hends with ⟨h, _⟩ | ⟨h, _⟩ <;> rw [h] <;> rfl
  have hstops : ((becomes before r.running .cancelled || becomes before r.running .departed) &&
      (r.mark.isSome || ((q.record? r.id).bind (·.mark)).isSome)) = true := by
    rw [Bool.and_eq_true, Bool.or_eq_true, Bool.or_eq_true, becomes_iff, becomes_iff, Option.isSome_iff_ne_none (o := r.mark)]
    exact ⟨hends, hmark⟩
  rw [Part.trackStatus_eq]
  dsimp only
  rw [hrunning, hstops, if_pos rfl, Bool.and_false, Bool.false_and, Bool.false_and, if_neg Bool.false_ne_true,
    Part.removeAuto_without (by rw [hcues]; exact hc)]

theorem Part.trackStatus_reinstated (h : before.status = .cancelled ∧ r.running.status.running = true ∧
    before.platform = r.running.platform ∧ ((q.record? r.id).bind (·.mark)).isSome = true) :
    q.trackStatus before r = q.askNotice .change (some r.id) := by
  obtain ⟨hback, hrunning, hplatform, hmark⟩ := h
  have hnot (st : Status) (hst : st.running = false) : becomes before r.running st = false := by
    refine Bool.eq_false_iff.mpr fun hx => ?_
    rw [(becomes_iff _ _ _).mp hx |>.1, hst] at hrunning
    cases hrunning
  rw [Part.trackStatus_eq]
  dsimp only
  rw [hnot _ rfl, hnot _ rfl, hrunning, hmark, hback, hplatform, beq_self_eq_true, beq_self_eq_true]
  rfl

theorem Part.trackStatus_quiet (h : ¬((Becomes before r.running .cancelled ∨ Becomes before r.running .departed) ∧
      (r.mark ≠ none ∨ ((q.record? r.id).bind (·.mark)).isSome = true)))
    (h' : ¬(before.status = .cancelled ∧ r.running.status.running = true ∧ before.platform = r.running.platform ∧
      ((q.record? r.id).bind (·.mark)).isSome = true)) : q.trackStatus before r = q := by
  rw [Part.trackStatus_eq]
  dsimp only
  rw [if_neg, if_neg]
  · rw [Bool.and_eq_true, Bool.or_eq_true, Bool.or_eq_true, becomes_iff, becomes_iff, Option.isSome_iff_ne_none (o := r.mark)]
    exact h
  · simp only [Bool.and_eq_true, beq_iff_eq, and_assoc]
    exact h'

end

end Sys2Proof.Machine
end

section
/-! Settling O39: marks, their expiry, and every step of the Change Tracker. -/

namespace Sys2Proof.Machine

/-! ## The end of a mark (R83) -/

theorem Part.markExpiry_eq {p : Part} {id : Nat} {r : Record} {m : Mark} (hr : p.record? id = some r) (hm : r.mark = some m) :
    p.markExpiry id = (((p.advanceTo m.expiry).marked id none).withdrawNotice .change (some id)).ended true := by
  have hmark : (p.record? id).bind (·.mark) = some m := by
    rw [hr]
    exact hm
  have hlike : (((p.advanceTo m.expiry).begin.marked id none).withdrawNotice .change (some id)).tellWall.Like
      (((p.advanceTo m.expiry).marked id none).withdrawNotice .change (some id)) :=
    (Part.like_tellWall _).trans (eventBlind_withdrawNotice _ _ _ _ ⟨(p.advanceTo m.expiry).begin.ev, rfl⟩)
  unfold Part.markExpiry
  rw [hmark]
  dsimp only
  rw [Part.endMark_eq]
  exact hlike.finish rfl

/-! ## The marks that the tracker leaves -/

theorem originalNe_iff (mark : Option Mark) (n : Nat) : mark.map (·.original) ≠ some n ↔ ∀ m, mark = some m → m.original ≠ n := by
  cases mark with
  | none => simp
  | some m => simp

theorem Part.marked_table {p q : Part} (h : q.table = p.table) (id : Nat) (m : Option Mark) : (q.marked id m).table = (p.marked id m).table := by
  unfold Part.marked
  dsimp only
  rw [h]

theorem Part.mark_of_record {p : Part} {r : Record} (hr : p.record? r.id = some r) : (p.record? r.id).bind (·.mark) = r.mark := by
  rw [hr]
  rfl

section
variable {p : Part} {before : Running} {r : Record} (hr : (p.table.records.map (·.id)).Nodup) (hmem : r ∈ p.table.records)
include hr hmem

theorem Part.mark_change {b n : Nat} (ha : r.running.platform = some n) (hb : before.platform = some b) (hne : b ≠ n)
    (hm : r.mark.map (·.original) ≠ some n) : ((p.trackPlatform before r).record? r.id).bind (·.mark) = some (p.newMark r b) :=
  Part.markOf_table hr hmem (Part.trackPlatform_change_table hr hmem ha hb hne hm)

theorem Part.mark_withdrawal {b : Nat} (ha : r.running.platform = none) (hb : before.platform = some b) :
    ((p.trackPlatform before r).record? r.id).bind (·.mark) = some (p.newMark r b) :=
  Part.markOf_table hr hmem (Part.trackPlatform_withdrawal_table hr hmem ha hb)

theorem Part.platformAllocated_law : ((p.platformAllocated r).record? r.id).bind (·.mark) = none ∧ (p.platformAllocated r).info = p.info ∧
    (p.platformAllocated r).ctl = p.ctl ∧ (p.platformAllocated r).cues = p.cues := by
  have hrecord := Part.record?_of_mem hr hmem
  rw [Part.platformAllocated_eq]
  split
  · next hnone => exact ⟨(Part.mark_of_record hrecord).trans hnone, rfl, rfl, rfl⟩
  · have hframe := Part.withdrawNotice_beyondNotices (p.marked r.id none) .change (some r.id)
    exact ⟨Part.markOf_table hr hmem (congrArg Part.table hframe :), (congrArg Part.info hframe :), (congrArg Part.ctl hframe :),
      (congrArg Part.cues hframe :)⟩

omit hr hmem in
theorem Part.platformReversed_table (b : Option Nat) (n : Nat) : (p.platformReversed r b n).table = (p.marked r.id none).table := by
  let y := (p.withdrawNotice .change (some r.id)).removeAuto r.id [.change]
  let x := if (r.mark.map (·.announced)).getD false && r.autoCue && r.running.status.running then
      y.askCue .change r.id n (y.zoneOfPlatform n :: (b.map y.zoneOfPlatform).toList) else y
  have hdef : p.platformReversed r b n = (x.endMark r.id).latchNat .platformChanged r.id := rfl
  have hy : y.table = p.table := (congrArg Part.table (Part.removeAuto_beyondCues (p.withdrawNotice .change (some r.id)) r.id [.change]) :).trans
    (congrArg Part.table (p.withdrawNotice_beyondNotices .change (some r.id)) :)
  have hask (y : Part) (c : Bool) (zs : List Nat) : (if c then y.askCue .change r.id n zs else y).table = y.table := by
    cases c with
    | false => rfl
    | true => exact (congrArg Part.table (Part.askCue_beyondCues y .change r.id n zs) :)
  have hx : x.table = p.table := (hask y _ _).trans hy
  clear_value x
  rw [hdef, Part.endMark_eq]
  exact Part.marked_table hx r.id none

theorem Part.platformReversed_law (b : Option Nat) (n : Nat) : ((p.platformReversed r b n).record? r.id).bind (·.mark) = none ∧
    ∀ l, ((p.platformReversed r b n).port l).isLatched .platformChanged = true :=
  ⟨Part.markOf_table hr hmem (Part.platformReversed_table b n), fun l => Part.latched_latchNat _ _ _ l⟩

end

/-! ## The steps of the tracker as the obligation writes them -/

section
variable {p : Part} {before : Running} {r : Record} (hr : (p.table.records.map (·.id)).Nodup) (hmem : r ∈ p.table.records)
  (hc : (p.cues.pool.map (·.id)).Nodup)
include hr hmem hc

theorem Part.changeMarked_running (hrun : r.running.status.running = true) (b : Nat) : p.changeMarked r b =
    ((p.marked r.id (some (p.newMark r b))).askNotice .change (some r.id)).without (p.earlierBoarding r.id) := by
  rw [Part.changeMarked_eq hr hmem hc, Part.noticed, if_pos hrun]

theorem Part.changeMarked_still (hrun : ¬r.running.status.running = true) (b : Nat) : p.changeMarked r b =
    ((p.marked r.id (some (p.newMark r b))).withdrawNotice .change (some r.id)).without (p.earlierBoarding r.id) := by
  rw [Part.changeMarked_eq hr hmem hc, Part.noticed, if_neg hrun]

theorem Part.trackPlatform_withdrawal_without {b : Nat} (ha : r.running.platform = none) (hb : before.platform = some b) :
    p.trackPlatform before r = ((p.changeMarked r b).without (autoCueOf r.id .change)).latchNat .platformChanged r.id := by
  have hnodup : ((p.changeMarked r b).cues.pool.map (·.id)).Nodup := by
    rw [Part.changeMarked_eq hr hmem hc]
    have hcues := Part.noticed_cues (p.marked r.id (some (p.newMark r b))) r
    exact hc.sublist ((congrArg (fun q : CueSched => q.pool) hcues) ▸ List.filter_sublist.map _)
  rw [Part.trackPlatform_withdrawal ha hb, Part.removeAuto_without hnodup]

/-- A service whose status does not run asks for no cue: the pool only loses records. -/
theorem Part.trackPlatform_pool (hrun : ¬r.running.status.running = true) : ((p.trackPlatform before r).cues.pool.map (·.id)).Nodup := by
  have hsub : (p.trackPlatform before r).cues.pool.Sublist p.cues.pool := by
    have hmarked (b : Nat) : (p.changeMarked r b).cues.pool.Sublist p.cues.pool := by
      rw [Part.changeMarked_eq hr hmem hc]
      exact (congrArg (fun q : CueSched => q.pool) (Part.noticed_cues (p.marked r.id (some (p.newMark r b))) r)) ▸ List.filter_sublist
    have hno (c : Bool) : ¬(c && r.running.status.running) = true := fun hx => hrun ((Bool.and_eq_true _ _).mp hx).2
    by_cases hsame : before.platform = r.running.platform
    · rw [Part.trackPlatform_same hsame]
    cases ha : r.running.platform with
    | none =>
      cases hb : before.platform with
      | none => exact absurd (hb.trans ha.symm) hsame
      | some b =>
        rw [Part.trackPlatform_withdrawal_without hr hmem hc ha hb]
        exact List.filter_sublist.trans (hmarked b)
    | some n =>
      by_cases hm : r.mark.map (·.original) = some n
      · obtain ⟨m, hmark, rfl⟩ := Option.map_eq_some_iff.mp hm
        have hcues : (p.withdrawNotice .change (some r.id)).cues = p.cues := Part.cues_of_notices (p.withdrawNotice_beyondNotices _ _)
        rw [Part.trackPlatform_reversal ha (ha ▸ hsame) hm, Part.platformReversed_eq hmark hc, if_neg (hno _)]
        exact (congrArg (fun q : CueSched => q.pool) hcues) ▸ List.filter_sublist
      · cases hb : before.platform with
        | none =>
          rw [Part.trackPlatform_allocation ha hb hm, (Part.platformAllocated_law hr hmem).2.2.2]
        | some b =>
          have hne : b ≠ n := fun heq => hsame (by rw [ha, hb, heq])
          rw [Part.trackPlatform_change ha hb hne hm, if_neg (hno _)]
          exact hmarked b
  exact hc.sublist (hsub.map _)

end

theorem Part.active_iff {q : Part} {id : Nat} : ((q.record? id).bind (·.mark)).isSome = true ↔ ∃ x m, q.record? id = some x ∧ x.mark = some m := by
  rw [Option.isSome_iff_exists]
  constructor
  · rintro ⟨m, hm⟩
    obtain ⟨x, hx, hm⟩ := Option.bind_eq_some_iff.mp hm
    exact ⟨x, m, hx, hm⟩
  · rintro ⟨x, m, hx, hm⟩
    exact ⟨m, Option.bind_eq_some_iff.mpr ⟨x, hx, hm⟩⟩

theorem Part.askRecordCue_eq {p : Part} {r : Record} (hr : p.record? r.id = some r) (t : Template) :
    p.askRecordCue t r.id = p.askCue t r.id (r.running.platform.getD 0) [p.recordZone r] := by
  unfold Part.askRecordCue
  rw [hr]

/-- Settles O39. -/
theorem changeTrackerMarksAndExpiry : Obligations.ChangeTrackerMarksAndExpiry := by
  unfold Obligations.ChangeTrackerMarksAndExpiry
  refine ⟨?expiry, ?marks, ?steps, ?zone, ?asked⟩
  case expiry =>
    intro s id r m hpow hr hm p
    exact leaves_act (·.markExpiry id) rfl hpow (Part.markExpiry_eq hr hm)
  case marks =>
    intro p before r hr hmem q mark
    refine ⟨fun old new hb ha hne hm => ?_, fun old hb ha => ?_, fun new hb ha hm => ?_, fun new m ha hm ho hb => ?_,
      fun hsame => Part.trackPlatform_same hsame⟩
    · have hm := (originalNe_iff _ _).mpr hm
      have hmark : mark q = some (p.newMark r old) := Part.mark_change hr hmem ha hb hne hm
      refine ⟨congrArg (Option.map _) hmark, congrArg (Option.map _) hmark, fun l => ?_⟩
      rw [show q = _ from Part.trackPlatform_change ha hb hne hm]
      exact Part.latched_latchNat _ _ _ l
    · have hmark : mark q = some (p.newMark r old) := Part.mark_withdrawal hr hmem ha hb
      refine ⟨congrArg (Option.map _) hmark, fun l => ?_⟩
      rw [show q = _ from Part.trackPlatform_withdrawal ha hb]
      exact Part.latched_latchNat _ _ _ l
    · have hq : q = p.platformAllocated r := Part.trackPlatform_allocation ha hb ((originalNe_iff _ _).mpr hm)
      rw [hq]
      exact Part.platformAllocated_law hr hmem
    · have hq : q = p.platformReversed r before.platform new := Part.trackPlatform_reversal ha hb (by rw [hm, ← ho]; rfl)
      rw [hq]
      exact Part.platformReversed_law hr hmem _ _
  case steps =>
    intro p before r hr hmem hc now runs zoneOf marked started ask withdraw earlier noChange q
    have hrecord := Part.record?_of_mem hr hmem
    have hruns : r.running.status.running = true ↔ runs := Status.running_iff _
    refine ⟨fun old new hb ha hne hm q₁ q₂ h1 h1' h2 h2' => ?_, fun old hb ha => ⟨fun hrun => ?_, fun hrun => ?_⟩, fun new hb ha hm => ?_,
      fun m hm ha hb q₂ => ?_, ?_⟩
    · have hq : q = _ := Part.trackPlatform_change ha hb hne ((originalNe_iff _ _).mpr hm)
      have hq₁ : q₁ = p.changeMarked r old := by
        by_cases hrun : runs
        · exact (h1 hrun).trans (Part.changeMarked_running hr hmem hc (hruns.mpr hrun) old).symm
        · exact (h1' hrun).trans (Part.changeMarked_still hr hmem hc (fun hx => hrun (hruns.mp hx)) old).symm
      rw [hq, ← hq₁]
      by_cases hcue : r.autoCue = true ∧ runs
      · rw [if_pos (by rw [hcue.1, hruns.mpr hcue.2]; rfl), h2 hcue]
        rfl
      · rw [if_neg (fun hx => hcue (((Bool.and_eq_true _ _).mp hx).imp_right hruns.mp)), h2' hcue]
    · have hq : q = _ := Part.trackPlatform_withdrawal_without hr hmem hc ha hb
      rw [hq, Part.changeMarked_running hr hmem hc (hruns.mpr hrun)]
      rfl
    · have hq : q = _ := Part.trackPlatform_withdrawal_without hr hmem hc ha hb
      rw [hq, Part.changeMarked_still hr hmem hc (fun hx => hrun (hruns.mp hx))]
      rfl
    · have hq : q = p.platformAllocated r := Part.trackPlatform_allocation ha hb ((originalNe_iff _ _).mpr hm)
      rw [hq, Part.platformAllocated_eq]
      exact ⟨fun h => if_pos h, fun h => if_neg h⟩
    · intro announces h2 h2'
      have hq : q = p.platformReversed r before.platform m.original :=
        Part.trackPlatform_reversal ha (ha ▸ hb) (by rw [hm]; rfl)
      rw [hq, Part.platformReversed_eq hm hc]
      by_cases hann : announces
      · rw [if_pos (by rw [hann.1, hann.2.1, hruns.mpr hann.2.2]; rfl), h2 hann]
        rfl
      · have hno : ¬(m.announced && r.autoCue && r.running.status.running) = true := by
          simp only [Bool.and_eq_true, hruns, and_assoc]
          exact hann
        rw [if_neg hno, h2' hann]
        rfl
    · intro active stops reinstated
      have hactive : ((q.record? r.id).bind (·.mark)).isSome = true ↔ active := Part.active_iff
      have htrack := Part.track_eq hrecord before
      refine ⟨fun hs => ?_, fun hback => ?_, fun hs hback => ?_⟩
      · have hnot : ¬r.running.status.running = true := by
          rcases hs.1 with ⟨h, _⟩ | ⟨h, _⟩ <;> rw [h] <;> exact Bool.false_ne_true
        exact htrack.trans (Part.trackStatus_stops (Part.trackPlatform_pool hr hmem hc hnot) ⟨hs.1, hs.2.imp_right hactive.mpr⟩)
      · obtain ⟨h1, h2, h3, h4⟩ := hback
        exact htrack.trans (Part.trackStatus_reinstated ⟨h1, hruns.mpr h2, h3, hactive.mpr h4⟩)
      · exact htrack.trans (Part.trackStatus_quiet (fun ⟨h1, h2⟩ => hs ⟨h1, h2.imp_right hactive.mp⟩)
          fun ⟨h1, h2, h3, h4⟩ => hback ⟨h1, hruns.mp h2, h3, hactive.mp h4⟩)
  case zone =>
    intro p r t hr zone
    rw [Part.askRecordCue_eq hr]
    rfl
  case asked =>
    intro p r t platform zones hr hok hqueues hnodup h1 h2 hid
    exact Part.askCue_law hr hok hqueues hnodup h1 h2 hid

end Sys2Proof.Machine
end

section
/-! The triggers of a record handed on (R49 to R55), stage by stage. -/

namespace Sys2Proof.Machine

/-! ## The conditions -/

theorem Record.endsRun_iff (r : Record) (before : Running) : r.endsRun before = true ↔
    (r.running.status = .cancelled ∧ before.status ≠ .cancelled) ∨ (r.running.status = .departed ∧ before.status ≠ .departed) := by
  rw [Record.endsRun, Bool.or_eq_true, becomes_iff, becomes_iff]

theorem Running.unknownCondition_iff (c : Running) : c.unknownCondition = true ↔
    c.unknown = true ∧ (c.status = .normal ∨ c.status = .boarding ∨ c.status = .closed) := by
  simp only [Running.unknownCondition, Bool.and_eq_true, Bool.or_eq_true, beq_iff_eq, or_assoc]

theorem delayFires_iff (p : Part) (r : Record) : delayFires p.noticeN p.stepP r = true ↔ p.delayTrigger r := by
  unfold delayFires Part.delayTrigger
  rw [Bool.and_eq_true, Bool.and_eq_true, Bool.and_eq_true, beq_iff_eq, decide_eq_true_eq, and_assoc, and_assoc]
  refine and_congr_right fun _ => and_congr_right fun _ => and_congr_right fun _ => ?_
  cases r.announcedDelay with
  | none => simp
  | some a => simp

/-! ## The last announced delay -/

/-- The record `id` takes a last announced delay, or loses it. -/
def Part.announce (p : Part) (id : Nat) (a : Option Nat) : Part :=
  { p with table := { p.table with records := p.table.records.map fun x => if x.id = id then { x with announcedDelay := a } else x } }

theorem Part.announce_eq (p : Part) (id : Nat) (a : Option Nat) : p.modRecord id (fun r => { r with announcedDelay := a }) = p.announce id a :=
  p.modRecord_eq id _

theorem Part.announce_announce_table (p : Part) (id : Nat) (a b : Option Nat) : ((p.announce id a).announce id b).table = (p.announce id b).table := by
  unfold Part.announce
  dsimp only
  rw [List.map_map]
  refine congrArg (fun l => ({ p.table with records := l } : Table)) (List.map_congr_left fun x _ => ?_)
  simp only [Function.comp]
  by_cases h : x.id = id
  · simp only [if_pos h]
  · simp only [if_neg h]

theorem Part.announce_table_congr {p q : Part} (h : q.table = p.table) (id : Nat) (a : Option Nat) : (q.announce id a).table = (p.announce id a).table := by
  unfold Part.announce
  dsimp only
  rw [h]

section
variable {p : Part} {r : Record} (hr : p.record? r.id = some r)
include hr

theorem Part.record?_announce (a : Option Nat) : (p.announce r.id a).record? r.id = some { r with announcedDelay := a } := by
  have hrecord := p.record?_modRecord (id := r.id) (f := fun x => { x with announcedDelay := a }) fun _ _ h => h
  rw [← Part.announce_eq, hrecord, hr]
  rfl

end

/-- A table whose record already has this last announced delay. -/
theorem Part.announce_self {p : Part} {r : Record} (hr : (p.table.records.map (·.id)).Nodup) (hmem : r ∈ p.table.records) :
    p.announce r.id r.announcedDelay = p := by
  unfold Part.announce
  have hlist : (p.table.records.map fun x => if x.id = r.id then { x with announcedDelay := r.announcedDelay } else x) = p.table.records := by
    refine (List.map_congr_left fun x hx => ?_).trans (List.map_id _)
    by_cases h : x.id = r.id
    · rw [if_pos h, eq_of_id hr hx hmem h]
      rfl
    · rw [if_neg h]
      rfl
  rw [hlist]

/-! ## The stages write at most the last announced delay -/

theorem Part.askRecordCue_table (p : Part) (t : Template) (id : Nat) : (p.askRecordCue t id).table = p.table :=
  (congrArg Part.table (p.askRecordCue_beyondCues t id) :)

theorem Part.askBoth_table (p : Part) (k : NoticeKind) (t : Template) (r : Record) : (p.askBoth k t r).table = p.table := by
  unfold Part.askBoth
  split
  · rw [Part.askRecordCue_table, Part.askNotice_table]
  · exact p.askNotice_table _ _

/-- The last announced delay after the withdrawals (R51, R53, R54). -/
def Record.keptDelay (r : Record) (before : Running) : Option Nat :=
  if r.endsRun before || !r.late && r.announcedDelay.isSome then none else r.announcedDelay

section
variable {p : Part} {before : Running} {r : Record}

theorem Part.withdrawDelay_table (hr : (p.table.records.map (·.id)).Nodup) (hmem : r ∈ p.table.records) :
    (p.withdrawDelay r (r.endsRun before)).table = (p.announce r.id (r.keptDelay before)).table := by
  unfold Part.withdrawDelay Record.keptDelay
  split
  · rw [Part.announce_eq, Part.withdrawNotice_table]
  · rw [Part.announce_self hr hmem]

theorem Part.withdrawEnded_table (q : Part) (e : Bool) : (q.withdrawEnded r e).table = q.table := by
  unfold Part.withdrawEnded
  split
  · exact (congrArg Part.table (Part.removeAuto_beyondCues _ r.id [.delay, .boarding]) :).trans (q.withdrawNotice_table _ _)
  · rfl

theorem Part.withdrawReinstated_table (q : Part) : (q.withdrawReinstated before r).table = q.table := by
  unfold Part.withdrawReinstated
  split
  · exact q.withdrawNotice_table _ _
  · rfl

theorem Part.withdrawUnknown_table (q : Part) : (q.withdrawUnknown before r).table = q.table := by
  unfold Part.withdrawUnknown
  split
  · exact q.withdrawNotice_table _ _
  · rfl

theorem Part.triggerWithdrawals_table (hr : (p.table.records.map (·.id)).Nodup) (hmem : r ∈ p.table.records) :
    (p.triggerWithdrawals before r).table = (p.announce r.id (r.keptDelay before)).table := by
  rw [Part.triggerWithdrawals_eq, Part.withdrawUnknown_table, Part.withdrawReinstated_table, Part.withdrawEnded_table,
    Part.withdrawDelay_table hr hmem]

theorem Part.requestCancel_table (q : Part) : (q.requestCancel before r).table = q.table := by
  unfold Part.requestCancel
  split
  · exact q.askBoth_table _ _ _
  · rfl

theorem Part.requestUnknown_table (q : Part) : (q.requestUnknown before r).table = q.table := by
  unfold Part.requestUnknown
  split
  · exact q.askNotice_table _ _
  · rfl

theorem Part.requestBoarding_table (q : Part) : (q.requestBoarding before r).table = q.table := by
  unfold Part.requestBoarding
  split
  · exact q.askRecordCue_table _ _
  · rfl

theorem Part.latchDelay_table (q : Part) (fires : Bool) : (q.latchDelay r fires).table = q.table := by
  unfold Part.latchDelay
  split <;> rfl

end

/-! ## The triggers as one chain of stages -/

/-- A record whose last announced delay alone has been withdrawn fires as before: what is withdrawn belongs to no firing record. -/
theorem Record.delayTrigger_kept (p : Part) (before : Running) (r : Record) :
    p.delayTrigger { r with announcedDelay := r.keptDelay before } ↔ p.delayTrigger r := by
  unfold Part.delayTrigger
  refine and_congr_right fun hnormal => and_congr_right fun hlate => and_congr_right fun _ => ?_
  have hnormal : r.running.status = .normal := hnormal
  have hlate : r.late = true := hlate
  have hends : r.endsRun before = false := Bool.eq_false_iff.mpr fun hx => by
    rcases (r.endsRun_iff before).mp hx with ⟨h, _⟩ | ⟨h, _⟩ <;> rw [hnormal] at h <;> cases h
  have hkept : r.keptDelay before = r.announcedDelay := by
    unfold Record.keptDelay
    rw [hends, hlate, if_neg (by simp)]
  rw [hkept]

theorem Part.config_withdrawn (p : Part) (before : Running) (r : Record) : (p.triggerWithdrawals before r).store = p.store :=
  Part.store_of_table (p.triggerWithdrawals_beyondTable before r)

theorem Part.noticeN_congr {p q : Part} (h : q.store = p.store) : q.noticeN = p.noticeN := by
  unfold Part.noticeN Part.cfg Part.row
  rw [h]

theorem Part.stepP_congr {p q : Part} (h : q.store = p.store) : q.stepP = p.stepP := by
  unfold Part.stepP Part.cfg Part.row
  rw [h]

/-- The requests of R50, R52, R53 and R55, with the firing of the delay trigger given. -/
def Part.requests (p : Part) (before : Running) (r : Record) (fires : Bool) : Part :=
  ((((p.requestCancel before r).requestUnknown before r).requestDelay r fires).requestBoarding before r).latchDelay r fires

/-- The requests do not read the last announced delay. -/
theorem Part.requests_announced (p : Part) (before : Running) (r : Record) (a : Option Nat) (fires : Bool) :
    p.requests before { r with announcedDelay := a } fires = p.requests before r fires := rfl

section
variable {p : Part} {before : Running} {r : Record} (hr : (p.table.records.map (·.id)).Nodup) (hmem : r ∈ p.table.records)
include hr hmem

theorem Part.triggers_eq : p.triggers before r.id = (p.triggerWithdrawals before r).requests before r (delayFires p.noticeN p.stepP r) := by
  have hrecord := Part.record?_of_mem hr hmem
  have hafter : (p.triggerWithdrawals before r).record? r.id = some { r with announcedDelay := r.keptDelay before } := by
    rw [Part.record?_congr (Part.triggerWithdrawals_table hr hmem)]
    exact Part.record?_announce hrecord _
  have hstore := p.config_withdrawn before r
  have hfires : delayFires p.noticeN p.stepP { r with announcedDelay := r.keptDelay before } = delayFires p.noticeN p.stepP r := by
    rw [Bool.eq_iff_iff, delayFires_iff, delayFires_iff, Record.delayTrigger_kept]
  unfold Part.triggers
  rw [hrecord]
  dsimp only
  rw [hafter]
  dsimp only
  rw [Part.triggerRequests_eq]
  unfold Part.requests Part.requestFromDelay
  have hcues (x : Record) : ((((p.triggerWithdrawals before r).requestCancel before x).requestUnknown before x)).store = p.store := by
    have h1 (q : Part) : (q.requestCancel before x).store = q.store := by
      unfold Part.requestCancel Part.askBoth
      split
      · split
        · exact (congrArg Part.store (Part.askRecordCue_beyondCues _ _ _) :).trans (congrArg Part.store (Part.askNotice_beyondNotices _ _ _) :)
        · exact (congrArg Part.store (Part.askNotice_beyondNotices _ _ _) :)
      · rfl
    have h2 (q : Part) : (q.requestUnknown before x).store = q.store := by
      unfold Part.requestUnknown
      split
      · exact (congrArg Part.store (Part.askNotice_beyondNotices _ _ _) :)
      · rfl
    rw [h2, h1, hstore]
  dsimp only
  rw [Part.noticeN_congr (hcues _), Part.stepP_congr (hcues _), hfires]
  exact Part.requests_announced _ before r _ _

/-- What is announced where the record's last announced delay alone has been written. -/
theorem Part.announce_minutes {x : Part} {a : Option Nat} (hx : x.table = (p.announce r.id a).table) :
    (x.modRecord r.id fun y => { y with announcedDelay := y.minutes }) = x.announce r.id r.minutes := by
  have hnodup : (x.table.records.map (·.id)).Nodup := by
    rw [hx]
    show ((p.table.records.map fun y => if y.id = r.id then _ else y).map (·.id)).Nodup
    rw [List.map_map]
    have hsame : p.table.records.map ((·.id) ∘ fun y => if y.id = r.id then { y with announcedDelay := a } else y) =
        p.table.records.map (·.id) := List.map_congr_left fun y _ => by
      simp only [Function.comp]
      split <;> rfl
    rwa [hsame]
  have hin : ({ r with announcedDelay := a } : Record) ∈ x.table.records := by
    rw [hx]
    exact List.mem_map.mpr ⟨r, hmem, if_pos rfl⟩
  have hmod := Part.modRecord_congr hnodup hin (f := fun y => { y with announcedDelay := y.minutes })
    (g := fun y => { y with announcedDelay := r.minutes }) rfl
  exact hmod.trans (x.announce_eq _ _)

/-- The last announced delay after the triggers. -/
theorem Part.triggers_table : (p.triggers before r.id).table =
    (p.announce r.id (if delayFires p.noticeN p.stepP r then r.minutes else r.keptDelay before)).table := by
  rw [Part.triggers_eq hr hmem, Part.requests, Part.latchDelay_table, Part.requestBoarding_table]
  have hbase : (((p.triggerWithdrawals before r).requestCancel before r).requestUnknown before r).table =
      (p.announce r.id (r.keptDelay before)).table := by
    rw [Part.requestUnknown_table, Part.requestCancel_table, Part.triggerWithdrawals_table hr hmem]
  generalize ((p.triggerWithdrawals before r).requestCancel before _).requestUnknown before _ = q at hbase ⊢
  unfold Part.requestDelay
  by_cases hf : delayFires p.noticeN p.stepP r = true
  · rw [if_pos hf, if_pos hf]
    have hx := (Part.askBoth_table q .delay .delay r).trans hbase
    rw [Part.announce_minutes hr hmem hx, Part.announce_table_congr hx, Part.announce_announce_table]
  · rw [if_neg hf, if_neg hf, hbase]

end

/-- The rule for the last announced delay (R50, R51, R53, R54). -/
theorem Part.announcedLaw_of (p : Part) (before : Running) (r : Record) :
    p.announcedLaw before r (if delayFires p.noticeN p.stepP r then r.minutes else r.keptDelay before) := by
  have hfires := delayFires_iff p r
  refine ⟨fun h => if_pos (hfires.mpr h), fun h hcase => ?_, fun h hends hlate => ?_⟩
  · rw [if_neg (fun hx => h (hfires.mp hx))]
    unfold Record.keptDelay
    rcases hcase with hends | hlate
    · have hends : r.endsRun before = true := (r.endsRun_iff before).mpr hends
      rw [hends, Bool.true_or, if_pos rfl]
    · rw [hlate]
      cases hd : r.announcedDelay with
      | none => exact ite_self _
      | some a => rw [Option.isSome_some, Bool.not_false, Bool.and_true, Bool.or_true, if_pos rfl]
  · rw [if_neg (fun hx => h (hfires.mp hx))]
    have hends : r.endsRun before = false := Bool.eq_false_iff.mpr fun hx => hends ((r.endsRun_iff before).mp hx)
    unfold Record.keptDelay
    rw [hends, hlate, if_neg (by simp)]

end Sys2Proof.Machine
end

section
/-! A change of a record that leaves its scheduled time and its effective items (R31), and the copy that is not effective. -/

namespace Sys2Proof.Machine

/-! ## The checks of a SERVICE_UPDATE (R30) -/

section
variable {p : Part} {l : Link} {u : UpdateBody} {r : Record} {c : Running} (hr : p.record? u.id = some r)
include hr

theorem serviceUpdate_malformed (h : u.malformed = true) : serviceUpdate l u p = .reply p .invalidField [] := by
  rw [serviceUpdate, hr]
  exact if_pos h

theorem serviceUpdate_noCopy (h : u.malformed = false) (hc : r.copyOf l = none) : serviceUpdate l u p = .reply p .notOwner [] := by
  rw [serviceUpdate, hr]
  dsimp only
  rw [if_neg (Bool.eq_false_iff.mp h), hc]
  rfl

variable (h : u.malformed = false) (hc : r.copyOf l = some c)
include h hc

theorem serviceUpdate_copy : serviceUpdate l u p =
    if r.running.status == .departed || c.status == .departed then refuse p .invalidField
    else if !statusPermitted c.status (u.statusAfter c) then refuse p .invalidField
    else if p.updateNotOwner l u r then refuse p .notOwner
    else if boardingLocked l u r then refuse p .locked
    else .reply (p.begin.change r (r.setCopy l (u.apply c)) (updateOrigin l)).settle .ok [] := by
  rw [serviceUpdate, hr]
  dsimp only
  rw [if_neg (Bool.eq_false_iff.mp h), hc]

theorem serviceUpdate_departed (hd : r.running.status = .departed ∨ c.status = .departed) :
    serviceUpdate l u p = .reply p .invalidField [] := by
  rw [serviceUpdate_copy hr h hc, if_pos (by simpa using hd)]
  rfl

variable (hd : ¬(r.running.status = .departed ∨ c.status = .departed))
include hd

theorem serviceUpdate_notPermitted (hp : statusPermitted c.status (u.statusAfter c) = false) :
    serviceUpdate l u p = .reply p .invalidField [] := by
  rw [serviceUpdate_copy hr h hc, if_neg (by simpa using hd), if_pos (by rw [hp]; rfl)]
  rfl

variable (hp : statusPermitted c.status (u.statusAfter c) = true)
include hp

theorem serviceUpdate_foreign (ho : p.updateNotOwner l u r = true) : serviceUpdate l u p = .reply p .notOwner [] := by
  rw [serviceUpdate_copy hr h hc, if_neg (by simpa using hd), if_neg (by simp [hp]), if_pos ho]
  rfl

theorem serviceUpdate_taken (ho : p.updateNotOwner l u r = false) (hb : boardingLocked l u r = false) :
    serviceUpdate l u p = .reply (p.begin.change r (r.setCopy l (u.apply c)) (updateOrigin l)).settle .ok [] := by
  rw [serviceUpdate_copy hr h hc, if_neg (by simpa using hd), if_neg (by simp [hp]), if_neg (by simp [ho]), if_neg (by simp [hb])]

end

theorem serviceUpdate_notFound {p : Part} {l : Link} {u : UpdateBody} (hr : p.record? u.id = none) :
    serviceUpdate l u p = .reply p .notFound [] := by
  rw [serviceUpdate, hr]
  rfl

theorem UpdateBody.malformed_iff (u : UpdateBody) : u.malformed = true ↔
    u.platformAction = .both ∨ u.expectedAction = .both ∨ u.unknownAction = .both ∨
      (u.platformAction = .set ∧ (u.platform = 0 ∨ 32 < u.platform)) ∨ (u.expectedAction = .set ∧ 107999 < u.expected) ∨
      (u.setStatus = true ∧ statusOfCode u.status = none) := by
  have hplatform : ¬(1 ≤ u.platform ∧ u.platform ≤ 32) ↔ u.platform = 0 ∨ 32 < u.platform := by omega
  simp only [UpdateBody.malformed, Bool.or_eq_true, Bool.and_eq_true, Bool.not_eq_true', Bool.and_eq_false_iff, beq_iff_eq,
    decide_eq_true_eq, decide_eq_false_iff_not, Option.isNone_iff_eq_none, or_assoc, ← not_and_or, hplatform]

/-! ## A change that hands nothing on -/

/-- The record `id` replaced by another of the same id. -/
def Part.replaced (p : Part) (id : Nat) (new : Record) : Part :=
  { p with table := { p.table with records := p.table.records.map fun x => if x.id = id then new else x } }

theorem Part.modRecord_const (p : Part) (id : Nat) (new : Record) : p.modRecord id (fun _ => new) = p.replaced id new :=
  p.modRecord_eq id _

theorem Part.change_quiet {p : Part} {old new : Record} {o : ChangeOrigin} (hs : new.sched = old.sched) (hn : new.running = old.running) :
    p.change old new o = p.replaced old.id (p.tracked old.running o new) := by
  unfold Part.change
  dsimp only
  rw [if_pos (by simp [hs, hn]), Part.modRecord_const]

/-- The event of a change that leaves the scheduled time and the effective items. -/
theorem Part.change_settle_quiet {p : Part} {old new : Record} {o : ChangeOrigin} (hs : new.sched = old.sched)
    (hn : new.running = old.running) :
    (p.begin.change old new o).settle = (p.replaced old.id (p.tracked old.running o new)).ended false := by
  rw [Part.change_quiet hs hn, Part.settle_unhanded rfl, Part.finish_eq_ended]
  rfl

/-- What a change writes into R22's tracking fields where the effective items stay. -/
theorem Part.tracked_quiet {p : Part} {old new : Record} {o : ChangeOrigin} (hn : new.running = old.running)
    (hd : new.departedAt = old.departedAt) (hold : old.departedAt.isSome = true → old.running.status = .departed) :
    p.tracked old.running o new = new := by
  unfold Part.tracked
  rw [hn, if_pos (beq_self_eq_true _)]
  have hkept : (if (old.running.status == Status.departed) = true then
      if (old.running.status == Status.departed) = true then new.departedAt else some (p.tableNow.getD 0) else none) = new.departedAt := by
    by_cases h : old.running.status = .departed
    · rw [if_pos (beq_iff_eq.mpr h), if_pos (beq_iff_eq.mpr h)]
    · rw [if_neg (mt beq_iff_eq.mp h), hd]
      exact (Option.not_isSome_iff_eq_none.mp fun hs => h (hold hs)).symm
  rw [hkept]

/-! ## O35 -/

/-- Settles O35: without a Control copy the desk has nothing to change, and with one an Information update changes no effective item. -/
theorem updateOfTheOtherCopyChangesNothingElse : Obligations.UpdateOfTheOtherCopyChangesNothingElse := by
  intro s rq u r c he hread hnodup hr hm
  refine ⟨fun hl hctl => ?_, fun hl hctl hc hinfo hperm hdep => ?_⟩
  · exact answers_of_reply rfl he hread (serviceUpdate_noCopy hr hm (by rw [hl]; exact hctl))
  · have hrunning : r.running = c := by
      unfold Record.running
      rw [hctl]
      rfl
    have hid : r.id = u.id := (Part.record?_mem hr).2
    refine answers_of_reply rfl he hread ?_
    have hcopy : r.copyOf rq.link = some r.info := by rw [hl]; rfl
    have howner : s.part.updateNotOwner rq.link u r = false := by
      unfold Part.updateNotOwner
      rw [hl, hctl]
      exact Bool.and_false _
    have hlock : boardingLocked rq.link u r = false := by
      unfold boardingLocked
      rw [hctl, Option.isNone_some, Bool.and_false, Bool.false_and, Bool.false_and]
    rw [serviceUpdate_taken hr hm hcopy (by rw [hrunning]; exact not_or.mpr ⟨hc, hinfo⟩) hperm howner hlock, hl]
    have hnew : (r.setCopy .information (u.apply r.info)).running = r.running := by
      show ({ r with info := u.apply r.info } : Record).running = r.running
      unfold Record.running
      dsimp only
      rw [hctl]
      rfl
    have hevent := Part.change_settle_quiet (p := s.part) (old := r) (new := r.setCopy .information (u.apply r.info))
      (o := updateOrigin .information) rfl hnew
    rw [hevent, Part.tracked_quiet (old := r) hnew rfl fun h => hrunning ▸ hdep.mpr h]
    have hmap : (s.part.table.records.map fun x => if x.id = r.id then r.setCopy .information (u.apply r.info) else x) =
        s.part.table.records.map fun x => if x.id = u.id then { x with info := u.apply r.info } else x := by
      refine List.map_congr_left fun x hx => ?_
      rw [hid]
      by_cases hx' : x.id = u.id
      · rw [if_pos hx', if_pos hx', eq_of_id hnodup hx (Part.record?_mem hr).1 (hx'.trans hid.symm)]
        rfl
      · rw [if_neg hx', if_neg hx']
    unfold Part.replaced
    rw [hmap]

end Sys2Proof.Machine
end

section
/-! What handing a record on leaves in the table (R23): the record computed anew, its last announced delay and its mark. -/

namespace Sys2Proof.Machine

/-! ## The mark after the Change Tracker -/

theorem Part.marked_self {p : Part} {r : Record} (hr : (p.table.records.map (·.id)).Nodup) (hmem : r ∈ p.table.records) :
    p.marked r.id r.mark = p := by
  have hlist : (p.table.records.map fun x => if x.id = r.id then { x with mark := r.mark } else x) = p.table.records := by
    refine (List.map_congr_left fun x hx => ?_).trans (List.map_id _)
    by_cases h : x.id = r.id
    · rw [if_pos h, eq_of_id hr hx hmem h]
      rfl
    · rw [if_neg h]
      rfl
  unfold Part.marked
  rw [hlist]

theorem Part.trackStatus_table (q : Part) (before : Running) (r : Record) : (q.trackStatus before r).table = q.table := by
  have hstop (c : Bool) : (if c then (q.withdrawNotice .change (some r.id)).removeAuto r.id [.change] else q).table = q.table := by
    cases c with
    | false => rfl
    | true => exact (congrArg Part.table (Part.removeAuto_beyondCues (q.withdrawNotice .change (some r.id)) r.id [.change]) :).trans (q.withdrawNotice_table _ _)
  have hask (x : Part) (c : Bool) : (if c then x.askNotice .change (some r.id) else x).table = x.table := by
    cases c with
    | false => rfl
    | true => exact x.askNotice_table _ _
  rw [Part.trackStatus_eq]
  exact (hask _ _).trans (hstop _)

section
variable {p : Part} {before : Running} {r : Record}

/-- The law of the marks where the platform stays. -/
theorem Part.markLaw_same (h : before.platform = r.running.platform) : p.markLaw before r r.mark :=
  ⟨fun _ => rfl, fun _ ha hb _ => absurd (h.trans ha) hb, fun _ ha hb => (nomatch hb.symm.trans (h.trans ha)),
    fun _ _ ha hb hne _ => absurd (Option.some.inj (hb.symm.trans (h.trans ha))) hne, fun _ ha hb => (nomatch (hb.symm.trans (h.trans ha)))⟩

/-- The law of the marks where a platform is given that ends the mark. -/
theorem Part.markLaw_ended {n : Nat} (ha : r.running.platform = some n) (hb : before.platform ≠ some n)
    (hm : r.mark.map (·.original) = some n ∨ before.platform = none) : p.markLaw before r none := by
  refine ⟨fun h => absurd (h.trans ha) hb, fun _ _ _ _ => rfl, fun _ _ _ => rfl, fun old new ha' hb' _ hm' => ?_, fun _ ha' _ => ?_⟩
  · obtain rfl := Option.some.inj (ha'.symm.trans ha)
    rcases hm with hm | hm
    · exact absurd hm hm'
    · exact (nomatch hb'.symm.trans hm)
  · exact (nomatch ha'.symm.trans ha)

/-- The law of the marks where the platform moves from `b`, or is withdrawn. -/
theorem Part.markLaw_started {b : Nat} (hb : before.platform = some b) (hne : r.running.platform ≠ some b)
    (hm : ∀ n, r.running.platform = some n → r.mark.map (·.original) ≠ some n) : p.markLaw before r (some (p.newMark r b)) := by
  have hold {old : Nat} (hb' : before.platform = some old) : old = b := Option.some.inj (hb'.symm.trans hb)
  refine ⟨fun h => absurd (h.symm.trans hb) hne, fun n ha _ hm' => absurd hm' (hm n ha), fun _ _ hb' => (nomatch hb'.symm.trans hb),
    fun old new _ hb' _ _ => ?_, fun old _ hb' => ?_⟩
  · rw [hold hb']
    rfl
  · rw [hold hb']
    rfl

variable (hr : (p.table.records.map (·.id)).Nodup) (hmem : r ∈ p.table.records)
include hr hmem

theorem Part.platformAllocated_table : (p.platformAllocated r).table = (p.marked r.id none).table := by
  rw [Part.platformAllocated_eq]
  split
  · next hnone =>
    have hself := Part.marked_self hr hmem
    rw [hnone] at hself
    rw [hself]
  · exact Part.withdrawNotice_table _ _ _

theorem Part.trackPlatform_law : ∃ m, (p.trackPlatform before r).table = (p.marked r.id m).table ∧ p.markLaw before r m := by
  by_cases hsame : before.platform = r.running.platform
  · refine ⟨r.mark, ?_, Part.markLaw_same hsame⟩
    rw [Part.trackPlatform_same hsame, Part.marked_self hr hmem]
  cases ha : r.running.platform with
  | none =>
    cases hb : before.platform with
    | none => exact absurd (hb.trans ha.symm) hsame
    | some b =>
      exact ⟨_, Part.trackPlatform_withdrawal_table hr hmem ha hb,
        Part.markLaw_started hb (by rw [ha]; exact (nomatch ·)) fun n hn => (nomatch hn.symm.trans ha)⟩
  | some n =>
    have hne : before.platform ≠ some n := ha ▸ hsame
    by_cases hm : r.mark.map (·.original) = some n
    · refine ⟨none, ?_, Part.markLaw_ended ha hne (.inl hm)⟩
      rw [Part.trackPlatform_reversal ha hne hm, Part.platformReversed_table]
    · cases hb : before.platform with
      | none =>
        refine ⟨none, ?_, Part.markLaw_ended ha hne (.inr hb)⟩
        rw [Part.trackPlatform_allocation ha hb hm, Part.platformAllocated_table hr hmem]
      | some b =>
        have hbn : b ≠ n := fun heq => hne (by rw [hb, heq])
        exact ⟨_, Part.trackPlatform_change_table hr hmem ha hb hbn hm, Part.markLaw_started hb
          (by rw [ha]; exact fun h => hbn (Option.some.inj h).symm) fun n' hn' => Option.some.inj (ha.symm.trans hn') ▸ hm⟩

theorem Part.track_law : ∃ m, (p.track before r.id).table = (p.marked r.id m).table ∧ p.markLaw before r m := by
  obtain ⟨m, ht, hlaw⟩ := Part.trackPlatform_law (before := before) hr hmem
  refine ⟨m, ?_, hlaw⟩
  rw [Part.track_eq (Part.record?_of_mem hr hmem), Part.trackStatus_table, ht]

end

/-! ## Records replaced -/

theorem Part.replaced_ids (p : Part) {id : Nat} {x : Record} (hx : x.id = id) :
    (p.replaced id x).table.records.map (·.id) = p.table.records.map (·.id) := by
  unfold Part.replaced
  rw [List.map_map]
  refine List.map_congr_left fun y _ => ?_
  simp only [Function.comp]
  split
  · next h => exact hx.trans h.symm
  · rfl

theorem Part.replaced_table_congr {p q : Part} (h : q.table = p.table) (id : Nat) (x : Record) :
    (q.replaced id x).table = (p.replaced id x).table := by
  unfold Part.replaced
  dsimp only
  rw [h]

theorem Part.mem_replaced {p : Part} {r x : Record} (hmem : r ∈ p.table.records) : x ∈ (p.replaced r.id x).table.records :=
  List.mem_map.mpr ⟨r, hmem, if_pos rfl⟩

/-- The two ways of writing `id`'s last announced delay and mark after the record has been replaced. -/
theorem Part.replaced_map {p : Part} {id : Nat} {x : Record} (hx : x.id = id) (f : Record → Record) :
    ((p.replaced id x).table.records.map fun y => if y.id = id then f y else y) = (p.replaced id (f x)).table.records := by
  unfold Part.replaced
  rw [List.map_map]
  refine List.map_congr_left fun y _ => ?_
  simp only [Function.comp]
  by_cases h : y.id = id
  · rw [if_pos h, if_pos h, if_pos hx]
  · rw [if_neg h, if_neg h, if_neg h]

theorem Part.replaced_replaced {p : Part} {id : Nat} {x y : Record} (hx : x.id = id) :
    (p.replaced id x).replaced id y = p.replaced id y :=
  congrArg (fun l => ({ p with table := { p.table with records := l } } : Part)) (Part.replaced_map hx fun _ => y)

theorem Part.announce_replaced {p : Part} {id : Nat} {x : Record} (hx : x.id = id) (a : Option Nat) :
    (p.replaced id x).announce id a = p.replaced id { x with announcedDelay := a } :=
  congrArg (fun l => ({ p with table := { p.table with records := l } } : Part)) (Part.replaced_map hx fun y => { y with announcedDelay := a })

theorem Part.marked_replaced {p : Part} {id : Nat} {x : Record} (hx : x.id = id) (m : Option Mark) :
    (p.replaced id x).marked id m = p.replaced id { x with mark := m } :=
  congrArg (fun l => ({ p with table := { p.table with records := l } } : Part)) (Part.replaced_map hx fun y => { y with mark := m })

/-! ## Handing on -/

theorem Part.markLaw_congr {p q : Part} (he : q.elapsed = p.elapsed) (hs : q.store = p.store) {before : Running} {r x : Record}
    (hrun : x.running = r.running) (hmark : x.mark = r.mark) {m : Option Mark} (h : q.markLaw before x m) : p.markLaw before r m := by
  have htime : q.markTime = p.markTime := by
    unfold Part.markTime Part.cfgWord Part.row
    rw [hs]
  unfold Part.markLaw at h ⊢
  rw [he, htime, hrun, hmark] at h
  exact h

theorem Part.announcedLaw_congr {p q : Part} (hs : q.store = p.store) {before : Running} {r : Record} {a : Option Nat}
    (h : q.announcedLaw before r a) : p.announcedLaw before r a := by
  unfold Part.announcedLaw Part.delayTrigger at h ⊢
  rw [Part.noticeN_congr hs, Part.stepP_congr hs] at h
  exact h

theorem Part.handsOn_id {p : Part} {before : Running} {r x : Record} (h : p.handsOn before r x) : x.id = r.id :=
  (congrArg Record.id h.1 :)

section
variable {p : Part} {r : Record} (hr : (p.table.records.map (·.id)).Nodup) (hmem : r ∈ p.table.records)
include hr hmem

theorem Part.processed_table (before : Running) :
    ∃ x, (p.processed before r.id).table = (p.replaced r.id x).table ∧ p.handsOn before r x := by
  let c := p.computed r
  let p₁ := p.replaced r.id c
  have hp₁ : p.modRecord r.id p.computed = p₁ :=
    (Part.modRecord_congr hr hmem (g := fun _ => c) rfl).trans (p.modRecord_const _ _)
  have hnodup₁ : (p₁.table.records.map (·.id)).Nodup := (p.replaced_ids (x := c) rfl).symm ▸ hr
  have hmem₁ : c ∈ p₁.table.records := Part.mem_replaced hmem
  let a := if delayFires p₁.noticeN p₁.stepP c then c.minutes else c.keptDelay before
  have hlaw₁ : p.announcedLaw before c a := Part.announcedLaw_congr (p := p) (q := p₁) rfl (p₁.announcedLaw_of before c)
  let x₂ : Record := { c with announcedDelay := a }
  let p₂ := p₁.triggers before r.id
  have htable₂ : p₂.table = (p.replaced r.id x₂).table :=
    (Part.triggers_table (before := before) hnodup₁ hmem₁).trans (congrArg Part.table (Part.announce_replaced (x := c) rfl a) :)
  have hframe₂ : p₂.beyondTable = p₁.beyondTable := Part.triggers_beyondTable _ _ _
  have hnodup₂ : (p₂.table.records.map (·.id)).Nodup := by
    rw [htable₂]
    exact (p.replaced_ids (x := x₂) rfl).symm ▸ hr
  have hmem₂ : x₂ ∈ p₂.table.records := by
    rw [htable₂]
    exact Part.mem_replaced hmem
  obtain ⟨m, htable₃, hlaw₂⟩ := Part.track_law (before := before) hnodup₂ hmem₂
  have hlaw₃ : p.markLaw before r m := Part.markLaw_congr (Part.elapsed_of_table hframe₂) (Part.store_of_table hframe₂) rfl rfl hlaw₂
  refine ⟨{ x₂ with mark := m }, ?_, rfl, hlaw₁, hlaw₃⟩
  unfold Part.processed
  rw [hp₁]
  exact htable₃.trans ((Part.marked_table htable₂ r.id m).trans (congrArg Part.table (Part.marked_replaced (x := x₂) rfl m) :))

end

end Sys2Proof.Machine
end

section
/-! The event that hands one record on, to its end (R23, R37). -/

namespace Sys2Proof.Machine

/-! ## The marks of the event through handing on -/

theorem Part.evKept_modRecord (p : Part) (id : Nat) (f : Record → Record) : p.EvKept (p.modRecord id f) := .of_eq rfl

theorem Part.evKept_latchNat (p : Part) (k : EventKind) (n : Nat) : p.EvKept (p.latchNat k n) := .of_eq rfl

theorem Part.evKept_removeAuto (p : Part) (id : Nat) (ts : List Template) : p.EvKept (p.removeAuto id ts) := p.evKept_removeQueued _

theorem Part.evKept_ite {p q r : Part} (c : Prop) [Decidable c] (ht : p.EvKept q) (hf : p.EvKept r) : p.EvKept (if c then q else r) := by
  split
  · exact ht
  · exact hf

theorem Part.evKept_askBoth (p : Part) (k : NoticeKind) (t : Template) (r : Record) : p.EvKept (p.askBoth k t r) :=
  Part.evKept_ite _ ((p.evKept_askNotice _ _).trans (Part.evKept_askRecordCue _ _ _)) (p.evKept_askNotice _ _)

theorem Part.evKept_triggerWithdrawals (p : Part) (before : Running) (r : Record) : p.EvKept (p.triggerWithdrawals before r) := by
  have hdelay (q : Part) (e : Bool) : q.EvKept (q.withdrawDelay r e) :=
    Part.evKept_ite _ ((q.evKept_modRecord _ _).trans (Part.evKept_withdrawNotice _ _ _)) (.refl q)
  have hended (q : Part) (e : Bool) : q.EvKept (q.withdrawEnded r e) :=
    Part.evKept_ite _ ((q.evKept_withdrawNotice _ _).trans (Part.evKept_removeAuto _ _ _)) (.refl q)
  have hreinstated (q : Part) : q.EvKept (q.withdrawReinstated before r) :=
    Part.evKept_ite _ (q.evKept_withdrawNotice _ _) (.refl q)
  have hunknown (q : Part) : q.EvKept (q.withdrawUnknown before r) :=
    Part.evKept_ite _ (q.evKept_withdrawNotice _ _) (.refl q)
  rw [Part.triggerWithdrawals_eq]
  exact (((hdelay p _).trans (hended _ _)).trans (hreinstated _)).trans (hunknown _)

theorem Part.evKept_triggerRequests (p : Part) (before : Running) (r : Record) : p.EvKept (p.triggerRequests before r) := by
  have hcancel (q : Part) : q.EvKept (q.requestCancel before r) := Part.evKept_ite _ (q.evKept_askBoth _ _ _) (.refl q)
  have hunknown (q : Part) : q.EvKept (q.requestUnknown before r) := Part.evKept_ite _ (q.evKept_askNotice _ _) (.refl q)
  have hdelay (q : Part) (f : Bool) : q.EvKept (q.requestDelay r f) :=
    Part.evKept_ite _ ((q.evKept_askBoth _ _ _).trans (Part.evKept_modRecord _ _ _)) (.refl q)
  have hboarding (q : Part) : q.EvKept (q.requestBoarding before r) := Part.evKept_ite _ (q.evKept_askRecordCue _ _) (.refl q)
  have hlatch (q : Part) (f : Bool) : q.EvKept (q.latchDelay r f) := Part.evKept_ite _ (q.evKept_latchNat _ _) (.refl q)
  rw [Part.triggerRequests_eq]
  exact ((hcancel p).trans (hunknown _)).trans (((hdelay _ _).trans (hboarding _)).trans (hlatch _ _))

theorem Part.evKept_triggers (p : Part) (before : Running) (id : Nat) : p.EvKept (p.triggers before id) := by
  unfold Part.triggers
  split
  · exact .refl p
  · next r _ =>
    have h := p.evKept_triggerWithdrawals before r
    generalize p.triggerWithdrawals before r = q at h ⊢
    dsimp only
    split
    · exact h
    · exact h.trans (Part.evKept_triggerRequests _ _ _)

theorem Part.evKept_changeMarked (p : Part) (r : Record) (old : Nat) : p.EvKept (p.changeMarked r old) :=
  ((p.evKept_modRecord _ _).trans (Part.evKept_noticed _ r)).trans (Part.evKept_removeQueued _ _)

theorem Part.evKept_trackPlatform (p : Part) (before : Running) (r : Record) : p.EvKept (p.trackPlatform before r) := by
  unfold Part.trackPlatform
  split
  · exact .refl p
  · refine Part.EvKept.trans ?_ ((Part.evKept_modRecord _ r.id fun x => { x with mark := none }).trans (Part.evKept_latchNat _ .platformChanged r.id))
    exact Part.evKept_ite _ (((p.evKept_withdrawNotice _ _).trans (Part.evKept_removeAuto _ _ _)).trans (Part.evKept_askCue _ _ _ _ _))
      ((p.evKept_withdrawNotice _ _).trans (Part.evKept_removeAuto _ _ _))
  · exact Part.evKept_ite _ ((p.evKept_modRecord _ _).trans (Part.evKept_withdrawNotice _ _ _)) (.refl p)
  · next old _ =>
    exact ((p.evKept_changeMarked r old).trans (Part.evKept_removeAuto _ r.id [.change])).trans (Part.evKept_latchNat _ .platformChanged r.id)
  · next old new _ =>
    refine Part.EvKept.trans ?_ (Part.evKept_latchNat _ .platformChanged r.id)
    exact Part.evKept_ite _ ((p.evKept_changeMarked r old).trans (Part.evKept_askCue _ _ _ _ _)) (p.evKept_changeMarked r old)

theorem Part.evKept_trackStatus (p : Part) (before : Running) (r : Record) : p.EvKept (p.trackStatus before r) := by
  have hstop (c : Bool) : p.EvKept (if c then (p.withdrawNotice .change (some r.id)).removeAuto r.id [.change] else p) :=
    Part.evKept_ite _ ((p.evKept_withdrawNotice _ _).trans (Part.evKept_removeAuto _ _ _)) (.refl p)
  have hask (x : Part) (c : Bool) : x.EvKept (if c then x.askNotice .change (some r.id) else x) :=
    Part.evKept_ite _ (x.evKept_askNotice _ _) (.refl x)
  rw [Part.trackStatus_eq]
  exact (hstop _).trans (hask _ _)

theorem Part.evKept_track (p : Part) (before : Running) (id : Nat) : p.EvKept (p.track before id) := by
  unfold Part.track
  split
  · exact .refl p
  · exact (p.evKept_trackPlatform before _).trans (Part.evKept_trackStatus _ before _)

theorem Part.handOn_handedOn (p : Part) (before : Running) (id : Nat) : (p.handOn before id).ev.handedOn = p.ev.handedOn ++ [id] := by
  have h := (((p.evKept_modRecord id p.computed).trans (Part.evKept_triggers _ before id)).trans (Part.evKept_track _ before id)).handedOn
  exact congrArg (· ++ [id]) h

/-! ## The table after handing on -/

theorem placeRecord_filter (id : Nat) (l : List Record) : (placeRecord id l).filter (·.id != id) = l.filter (·.id != id) := by
  unfold placeRecord
  split
  · rfl
  · next r hr =>
    have hid : (r.id != id) = false := by
      have := (find_id_eq hr).2
      simpa using this
    rw [insertBy_filter _ r _ (fun x : Record => x.id != id) hid, List.filter_filter]
    simp

theorem Part.replaced_filter (p : Part) {id : Nat} {x : Record} (hx : x.id = id) :
    (p.replaced id x).table.records.filter (·.id != id) = p.table.records.filter (·.id != id) := by
  show (p.table.records.map _).filter _ = _
  induction p.table.records with
  | nil => rfl
  | cons y l ih =>
    rw [List.map_cons, List.filter_cons, List.filter_cons, ih]
    by_cases h : y.id = id
    · rw [if_pos h, if_neg (by simpa using hx), if_neg (by simpa using h)]
    · rw [if_neg h]

section
variable {p : Part} {r : Record} (hmem : r ∈ p.table.records) (hbut : p.table.okBut r.id) (before : Running)
include hmem hbut

/-- The record handed on, and the records it leaves. -/
theorem Part.handOn_table : ∃ x, (p.handOn before r.id).record? r.id = some x ∧ p.handsOn before r x ∧
    (p.handOn before r.id).table.records.filter (·.id != r.id) = p.table.records.filter (·.id != r.id) ∧
    (p.handOn before r.id).table.names = p.table.names := by
  obtain ⟨x, htable, hx⟩ := Part.processed_table hbut.1.2.1 hmem before
  have hid := Part.handsOn_id hx
  have hok := Part.handOn_ok hbut before
  have hrecords : (p.handOn before r.id).table.records = placeRecord r.id (p.replaced r.id x).table.records := by
    rw [Part.handOn_records, htable]
  have hnodup : ((p.replaced r.id x).table.records.map (·.id)).Nodup := by
    rw [Part.replaced_ids p hid]
    exact hbut.1.2.1
  have hin : x ∈ (p.handOn before r.id).table.records := by
    rw [hrecords, (placeRecord_perm hnodup r.id).mem_iff]
    exact Part.mem_replaced hmem
  refine ⟨x, hid ▸ Part.record?_of_mem hok.2.1 hin, hx, ?_, ?_⟩
  · rw [hrecords, placeRecord_filter, Part.replaced_filter p hid]
  · exact (congrArg Table.names htable :)

end

/-! ## The end of the event -/

theorem Part.finish_names (p : Part) : p.finish.table.names = p.table.names := (Part.finish_law p).2.names

theorem Part.finish_records (p : Part) : p.finish.table.records.map Record.beyondAnnounced = p.table.records.map Record.beyondAnnounced :=
  (Part.finish_law p).2.records

theorem Part.finish_same (p : Part) : p.SameRecords p.finish := by
  refine ⟨p.finish_names, congrArg Ownership.platforms p.finish_own, ?_⟩
  have h := congrArg (List.map Record.essence) p.finish_records
  rw [List.map_map, List.map_map] at h
  exact h

theorem find_beyondAnnounced (l : List Record) (id : Nat) :
    (l.map Record.beyondAnnounced).find? (·.id == id) = (l.find? (·.id == id)).map Record.beyondAnnounced := by
  rw [List.find?_map]
  rfl

theorem filter_beyondAnnounced (l : List Record) (id : Nat) :
    (l.map Record.beyondAnnounced).filter (·.id != id) = (l.filter (·.id != id)).map Record.beyondAnnounced := by
  rw [List.filter_map]
  rfl

/-- The records that a retirement check leaves (R37). -/
theorem Part.retireCheck_table {q : Part} (hd : (q.table.records.map (·.id)).Nodup) (sel : Record → Bool) :
    (q.retireCheck sel).table = { q.table with records := q.table.records.filter fun y => !(sel y && q.retireDue y) } := by
  have htable := Part.foldl_retire_table ((q.table.records.filter fun r => sel r && q.retireDue r).map (·.id)) q
  have hrecords := Part.retired_table hd fun r => sel r && q.retireDue r
  refine htable.trans (congrArg (fun l => ({ q.table with records := l } : Table)) ?_)
  exact (congrArg Table.records htable).symm.trans hrecords

theorem Part.retireCheck_one {q : Part} {id : Nat} {x : Record} (hok : q.table.ok) (hx : q.record? id = some x) :
    (q.retireCheck fun r => [id].contains r.id).table =
      { q.table with records := q.table.records.filter fun y => !(y.id == id && q.retireDue x) } := by
  refine (Part.retireCheck_table hok.2.1 _).trans
    (congrArg (fun l => ({ q.table with records := l } : Table)) (List.filter_congr fun y hy => ?_))
  by_cases hid : y.id = id
  · have hyx : y = x := by
      obtain ⟨hxm, hxid⟩ := Part.record?_mem hx
      exact eq_of_id hok.2.1 hy hxm (hid.trans hxid.symm)
    simp [hyx, beq_eq_decide]
  · simp [hid]

/-- What the event that hands `r` on leaves. -/
structure Part.Handed (p : Part) (before : Running) (r : Record) (q : Part) : Prop where
  held : (q.record? r.id).isSome = true ↔ p.retireDue (p.computed r) = false
  handsOn : ∀ x, q.record? r.id = some x → p.handsOn before r x
  ok : q.table.ok
  names : q.table.names = p.table.names
  others : (q.table.records.filter (·.id != r.id)).map Record.beyondAnnounced
    = (p.table.records.filter (·.id != r.id)).map Record.beyondAnnounced

theorem Part.retireDue_congr {p q : Part} (ht : q.time = p.time) (hs : q.store = p.store) (r : Record) : q.retireDue r = p.retireDue r := by
  have hinstant : q.retireInstant r = p.retireInstant r := Part.retireInstant_congr (congrArg Store.working hs) rfl
  unfold Part.retireDue Part.tableNow
  rw [ht, hinstant]

theorem Part.handsOn_announced {p : Part} {before : Running} {r x y : Record} (h : y.beyondAnnounced = x.beyondAnnounced)
    (hx : p.handsOn before r x) : p.handsOn before r y := by
  obtain ⟨hrest, hdelay, hmark⟩ := hx
  have hannounced : y.announcedDelay = x.announcedDelay := (congrArg Record.announcedDelay h :)
  have hseen : y.mark.map (fun m => (m.original, m.expiry)) = x.mark.map fun m => (m.original, m.expiry) := by
    have hcore := congrArg (fun r : Record => r.mark.map fun m => (m.original, m.expiry)) h
    dsimp only [Record.beyondAnnounced] at hcore
    rwa [Option.map_map, Option.map_map] at hcore
  have hyx : y = { x with mark := y.mark } := (congrArg (fun r : Record => ({ r with mark := y.mark } : Record)) h :)
  have hnone : y.mark = none ↔ x.mark = none := by
    rw [← Option.map_eq_none_iff (f := fun m : Mark => (m.original, m.expiry)), hseen, Option.map_eq_none_iff]
  refine ⟨?_, hannounced ▸ hdelay, ?_⟩
  · rw [hyx, hrest]
  · unfold Part.markLaw at hmark ⊢
    dsimp only at hmark ⊢
    rw [hseen, hnone]
    exact hmark

theorem Part.handed_settle {p : Part} {r : Record} (hmem : r ∈ p.table.records) (hbut : p.table.okBut r.id) (before : Running)
    (hev : p.ev.handedOn = []) : p.Handed before r (p.handOn before r.id).settle := by
  obtain ⟨x, hx, hhands, hothers, hnames⟩ := Part.handOn_table hmem hbut before
  have hok := Part.handOn_ok hbut before
  have hhanded : (p.handOn before r.id).ev.handedOn = [r.id] := by
    rw [Part.handOn_handedOn, hev]
    rfl
  have hdue : (p.handOn before r.id).retireDue x = p.retireDue (p.computed r) := by
    rw [Part.retireDue_congr (p.handOn_time before r.id) (p.handOn_store before r.id), hhands.1]
    rfl
  generalize p.handOn before r.id = q at *
  have hcheck := Part.retireCheck_one hok hx
  have hsettle : q.settle = (q.retireCheck fun y => [r.id].contains y.id).finish := by
    unfold Part.settle
    rw [hhanded]
  rw [hdue] at hcheck
  generalize q.retireCheck (fun y => [r.id].contains y.id) = z at hcheck hsettle
  have hrecords := z.finish_records
  have hfind := find_beyondAnnounced z.finish.table.records r.id
  rw [hrecords, find_beyondAnnounced, hcheck] at hfind
  have hfilter : (z.table.records.filter (·.id != r.id)) = q.table.records.filter (·.id != r.id) := by
    rw [hcheck, List.filter_filter]
    refine List.filter_congr fun y _ => ?_
    cases h : y.id == r.id with
    | false => simp [bne, h]
    | true => simp [bne, h]
  have hzok : z.table.ok := by
    obtain ⟨hlen, hids, horder, hn⟩ := hok
    have hsub : z.table.records.Sublist q.table.records := by
      rw [hcheck]
      exact List.filter_sublist
    refine ⟨hsub.length_le.trans hlen, hids.sublist (hsub.map _), horder.sublist hsub, ?_⟩
    rw [hcheck]
    exact hn
  rw [hsettle]
  have hfound : (q.table.records.filter fun y => !(y.id == r.id && p.retireDue (p.computed r))).find? (·.id == r.id) =
      if p.retireDue (p.computed r) then none else some x := by
    have hx' : q.table.records.find? (·.id == r.id) = some x := hx
    cases p.retireDue (p.computed r) with
    | false => simpa using hx'
    | true => simp
  rw [hfound] at hfind
  have hfind' : (z.finish.record? r.id).map Record.beyondAnnounced =
      (if p.retireDue (p.computed r) then none else some x).map Record.beyondAnnounced := hfind.symm
  refine ⟨?_, fun y hy => ?_, z.finish_same.ok hzok, ?_, ?_⟩
  · rw [← Option.isSome_map, hfind', Option.isSome_map]
    cases p.retireDue (p.computed r) <;> simp
  · rw [hy] at hfind'
    cases hd : p.retireDue (p.computed r) with
    | true =>
      rw [hd] at hfind'
      cases hfind'
    | false =>
      rw [hd] at hfind'
      exact Part.handsOn_announced (Option.some.inj hfind') hhands
  · rw [z.finish_names, hcheck]
    exact hnames
  · rw [← filter_beyondAnnounced, hrecords, filter_beyondAnnounced, hfilter, hothers]

end Sys2Proof.Machine
end

section
/-! Changes and creations of one record as events (R23, R28, R29, R31), and SERVICE_PUT. -/

namespace Sys2Proof.Machine

/-! ## A record changed -/

/-- A change that moves the scheduled time or an effective item hands the record on. -/
theorem Part.change_handed {p : Part} {old new : Record} {o : ChangeOrigin} (h : ¬(new.sched = old.sched ∧ new.running = old.running)) :
    p.change old new o = (p.replaced old.id (p.tracked old.running o new)).handOn old.running old.id := by
  unfold Part.change
  dsimp only
  rw [if_neg (by simpa using h), Part.modRecord_const]

/-- The frame of an event on the table. -/
theorem Part.change_settle_beyondTable (p : Part) (old new : Record) (o : ChangeOrigin) :
    (p.begin.change old new o).settle.beyondTable = p.beyondTable :=
  (Part.settle_beyondTable _).trans (Part.change_beyondTable _ _ _ _)

theorem Part.okBut_replaced {p : Part} (hok : p.table.ok) {id : Nat} {x : Record} (hx : x.id = id) : (p.replaced id x).table.okBut id := by
  have h := (hok.but id).modRecord (f := fun _ => x) fun _ _ _ => hx
  rwa [Part.modRecord_const] at h

/-- The event of a change that hands the record on. -/
theorem Part.handed_change {p : Part} (hok : p.table.ok) {old new : Record} {o : ChangeOrigin} (hold : old ∈ p.table.records)
    (hid : new.id = old.id) (h : ¬(new.sched = old.sched ∧ new.running = old.running)) :
    p.Handed old.running (p.tracked old.running o new) (p.begin.change old new o).settle := by
  have htid : (p.tracked old.running o new).id = old.id := hid
  have hchange := Part.change_handed (p := p.begin) (o := o) h
  have htracked : p.begin.tracked old.running o new = p.tracked old.running o new := rfl
  rw [htracked] at hchange
  generalize p.tracked old.running o new = t at hchange htid ⊢
  have hmem : t ∈ (p.begin.replaced old.id t).table.records := Part.mem_replaced (p := p.begin) hold
  have hbut : (p.begin.replaced old.id t).table.okBut t.id := by
    rw [htid]
    exact Part.okBut_replaced (p := p.begin) hok htid
  have hhanded := Part.handed_settle hmem hbut old.running rfl
  rw [hchange]
  rw [htid] at hhanded
  refine ⟨hhanded.held, hhanded.handsOn, hhanded.ok, hhanded.names, hhanded.others.trans ?_⟩
  rw [htid, Part.replaced_filter p.begin htid]
  rfl

/-! ## A record created -/

theorem Part.okBut_created {p : Part} (hok : p.table.ok) {x : Record} (hnone : p.record? x.id = none) (hroom : p.table.records.length < 96) :
    (p.mapRecords (· ++ [x])).table.okBut x.id := by
  have hnew := Part.record?_none hnone
  obtain ⟨hlen, hids, horder, hnames⟩ := hok
  refine ⟨⟨?_, ?_, hnames⟩, ?_⟩
  · show (p.table.records ++ [x]).length ≤ 96
    rw [List.length_append, List.length_singleton]
    exact hroom
  · show ((p.table.records ++ [x]).map (·.id)).Nodup
    rw [List.map_append, List.nodup_append]
    refine ⟨hids, List.nodup_singleton _, fun a ha b hb => ?_⟩
    obtain ⟨t, ht, rfl⟩ := List.mem_map.mp ha
    rw [List.mem_singleton.mp hb]
    exact hnew t ht
  · show inOrder ((p.table.records ++ [x]).filter (·.id != x.id))
    have hgone : [x].filter (fun t => t.id != x.id) = [] := by simp
    rw [List.filter_append, hgone, List.append_nil]
    exact horder.sublist List.filter_sublist

/-- The event of a creation. -/
theorem Part.handed_created {p : Part} (hok : p.table.ok) {x : Record} (hnone : p.record? x.id = none) (hroom : p.table.records.length < 96)
    (before : Running) : p.Handed before x ((p.begin.mapRecords (· ++ [x])).handOn before x.id).settle := by
  have hbut : (p.begin.mapRecords (· ++ [x])).table.okBut x.id := Part.okBut_created (p := p.begin) hok hnone hroom
  have hhanded := Part.handed_settle (p := p.begin.mapRecords (· ++ [x])) (r := x) (List.mem_append_right _ List.mem_cons_self) hbut before rfl
  refine ⟨hhanded.held, hhanded.handsOn, hhanded.ok, hhanded.names, hhanded.others.trans ?_⟩
  show ((p.table.records ++ [x]).filter (·.id != x.id)).map _ = _
  have hgone : [x].filter (fun t => t.id != x.id) = [] := by simp
  rw [List.filter_append, hgone, List.append_nil]

/-! ## SERVICE_PUT of one record -/

/-- A record that is taken has passed every check. -/
theorem Part.putOne_passed {p : Part} {r : PutRecord} {st : Status} (hst : statusOfCode r.status = some st) (h : (p.putOne r).2 = .ok) :
    (r.malformed || putBarred (p.record? r.id) st) = false ∧ p.putNotOwner r (p.record? r.id) = false ∧
      (p.record? r.id = none → p.table.records.length < 96) := by
  have hchecks : (r.malformed || putBarred (p.record? r.id) st) = false := by
    refine Bool.eq_false_iff.mpr fun hbad => ?_
    rw [Part.putOne_bad ((Bool.or_eq_true _ _).mp hbad |>.imp_right fun hb => ⟨st, hst, hb⟩)] at h
    cases h
  obtain ⟨howner, hfull, _, _⟩ := Part.putOne_good hst hchecks
  have hown : p.putNotOwner r (p.record? r.id) = false := Bool.eq_false_iff.mpr fun hx => by
    rw [howner hx] at h
    cases h
  refine ⟨hchecks, hown, fun hnone => Nat.lt_of_not_le fun hlen => ?_⟩
  rw [hfull hown hnone hlen] at h
  cases h

/-- The record taken in the event of its own. -/
theorem Part.putOne_begin {p : Part} {r : PutRecord} {st : Status} (hst : statusOfCode r.status = some st) (h : (p.putOne r).2 = .ok) :
    (p.record? r.id = none → p.begin.putOne r = (p.begin.putCreate r st, .ok)) ∧
    (∀ o, p.record? r.id = some o → o.running.status ≠ .departed ∧
      p.begin.putOne r = (p.begin.change o (r.replace st o) .put, .ok)) := by
  obtain ⟨hchecks, hown, hroom⟩ := Part.putOne_passed hst h
  obtain ⟨_, _, hcreate, hchange⟩ := Part.putOne_good (p := p.begin) hst hchecks
  refine ⟨fun hnone => hcreate hown hnone (hroom hnone), fun o ho => ⟨fun hd => ?_, hchange hown o ho⟩⟩
  have hbarred := (putBarred_iff (p.record? r.id) hst).mpr (.inr (.inl ⟨o, ho, .inl hd⟩))
  rw [hbarred, Bool.or_true] at hchecks
  cases hchecks

theorem Part.handed_putCreate {p : Part} (hok : p.table.ok) {r : PutRecord} {st : Status} (hst : statusOfCode r.status = some st)
    (h : (p.putOne r).2 = .ok) (hnone : p.record? r.id = none) :
    p.Handed creationBaseline (r.fresh st) (p.begin.putCreate r st).settle :=
  Part.handed_created (x := r.fresh st) hok hnone ((Part.putOne_passed hst h).2.2 hnone) creationBaseline

theorem Part.putCreate_settle_beyondTable (p : Part) (r : PutRecord) (st : Status) :
    (p.begin.putCreate r st).settle.beyondTable = p.beyondTable :=
  (Part.settle_beyondTable _).trans (Part.handOn_beyondTable _ _ _)

/-- A SERVICE_PUT of one record that is taken. -/
theorem servicePut_one {p : Part} {r : PutRecord} {q : Part} (h : p.begin.putOne r = (q, .ok)) :
    servicePut [r] p = .reply q.settle .ok [1, 0] := by
  have htake : takeEach Part.putOne [r] p.begin = (q, [.ok]) := by
    unfold takeEach
    dsimp only
    rw [h]
    rfl
  unfold servicePut
  rw [if_neg (by simp)]
  dsimp only
  rw [htake]
  have hbytes : resultBytes [.ok] = [1, 0] := by decide
  exact congrArg (Answer.reply q.settle .ok) hbytes

/-- The tracking fields of a record that had not departed. -/
theorem Part.tracked_eq (p : Part) {before : Running} (h : before.status ≠ .departed) (o : ChangeOrigin) (r : Record) : p.tracked before o r =
    { r with
      origin := if r.running = before then r.origin else o
      departedAt := if r.running.status = .departed then some (p.tableNow.getD 0) else none } := by
  have hbefore : ¬(before.status == Status.departed) = true := mt beq_iff_eq.mp h
  unfold Part.tracked
  rw [if_neg hbefore]
  simp only [beq_iff_eq]

/-- Settles O34. -/
theorem servicePutAnswersEachRecordAndCreates : Obligations.ServicePutAnswersEachRecordAndCreates := by
  unfold Obligations.ServicePutAnswersEachRecordAndCreates
  refine ⟨fun s rq rs he hread => ⟨fun hbad => ?_, fun hone height => ?_⟩, ?_⟩
  · refine answers_of_reply rfl he hread (if_pos ?_)
    simpa using hbad
  · refine ⟨(takeEach Part.putOne rs s.part.begin).1.settle, (takeEach Part.putOne rs s.part.begin).2,
      answers_of_reply rfl he hread ?_, takeEach_length _ _ _⟩
    have hgood : ¬(rs.length == 0 || decide (8 < rs.length)) = true := by
      simp only [Bool.or_eq_true, beq_iff_eq, decide_eq_true_eq]
      omega
    unfold servicePut
    rw [if_neg hgood]
    dsimp only
    rw [resultBytes_eq, takeEach_length]
  · intro s rq r st he hread hok hput hst copy handed
    obtain ⟨hcreate, hchange⟩ := Part.putOne_begin hst hput
    refine ⟨fun hnone => ?_, fun o ho => ?_⟩
    · have hanswer : Answers (.servicePut rq) s 0x10 rq (s.part.begin.putCreate r st).settle .ok [1, 0] :=
        answers_of_reply rfl he hread (servicePut_one (hcreate hnone))
      have hlaw := Part.handed_putCreate hok hst hput hnone
      have hframe := s.part.putCreate_settle_beyondTable r st
      generalize (s.part.begin.putCreate r st).settle = q at hanswer hlaw hframe
      exact ⟨r.fresh st, ⟨q, hanswer, hlaw.held, hlaw.handsOn, hlaw.ok, hlaw.names, hlaw.others, Part.own_of_table hframe,
        Part.time_of_table hframe, Part.chain_of_table hframe, Part.clocks_of_table hframe, Part.inputs_of_table hframe,
        Part.store_of_table hframe, Part.feed_of_table hframe⟩, rfl, rfl, rfl, rfl, rfl, rfl, rfl, rfl, rfl, rfl, rfl, rfl, rfl⟩
    · obtain ⟨hrunning, hone⟩ := hchange o ho
      obtain ⟨hmem, hid⟩ := Part.record?_mem ho
      intro now put
      have htracked : s.part.tracked o.running .put (r.replace st o) = put := s.part.tracked_eq hrunning _ _
      have hanswer : Answers (.servicePut rq) s 0x10 rq (s.part.begin.change o (r.replace st o) .put).settle .ok [1, 0] :=
        answers_of_reply rfl he hread (servicePut_one hone)
      refine ⟨fun hmoved => ?_, fun hs hn => ?_⟩
      · have hne : ¬((r.replace st o).sched = o.sched ∧ (r.replace st o).running = o.running) := fun ⟨hs, hn⟩ =>
          hmoved.elim (fun h => h hs) fun h => h hn
        have hlaw := Part.handed_change (new := r.replace st o) (o := .put) hok hmem rfl hne
        have hframe := s.part.change_settle_beyondTable o (r.replace st o) .put
        rw [htracked] at hlaw
        have hput : put.id = r.id := hid
        generalize (s.part.begin.change o (r.replace st o) .put).settle = q at hanswer hlaw hframe
        exact ⟨q, hanswer, hput ▸ hlaw.held, hput ▸ hlaw.handsOn, hlaw.ok, hlaw.names, hput ▸ hlaw.others, Part.own_of_table hframe,
          Part.time_of_table hframe, Part.chain_of_table hframe, Part.clocks_of_table hframe, Part.inputs_of_table hframe,
          Part.store_of_table hframe, Part.feed_of_table hframe⟩
      · rw [Part.change_settle_quiet (p := s.part) (old := o) (new := r.replace st o) (o := .put) hs hn, htracked, hid] at hanswer
        exact hanswer

end Sys2Proof.Machine
end

section
/-! The triggers as the obligation on SERVICE_UPDATE writes them (R50 to R55), and the notices they ask for and withdraw. -/

namespace Sys2Proof.Machine

/-! ## The stages of the triggers by their conditions -/

theorem stage_eq {c : Bool} {C : Prop} (hc : c = true ↔ C) {q a b : Part} (ht : C → q = a) (hf : ¬C → q = b) : (if c then a else b) = q := by
  by_cases h : C
  · rw [if_pos (hc.mpr h), ht h]
  · rw [if_neg (mt hc.mp h), hf h]

section
variable {p : Part} {before : Running} {r : Record}

theorem withdrawReinstated_iff : (before.status == .cancelled && r.running.status != .cancelled) = true ↔
    before.status = .cancelled ∧ r.running.status ≠ .cancelled := by
  rw [Bool.and_eq_true, beq_iff_eq, bne_iff_ne]

theorem withdrawUnknown_iff : (before.unknownCondition && !r.running.unknownCondition) = true ↔
    before.unknownCondition = true ∧ ¬r.running.unknownCondition = true := by
  rw [Bool.and_eq_true, Bool.not_eq_true', Bool.not_eq_true]

theorem requestUnknown_iff : (!before.unknownCondition && r.running.unknownCondition) = true ↔
    r.running.unknownCondition = true ∧ ¬before.unknownCondition = true := by
  rw [Bool.and_eq_true, Bool.not_eq_true', Bool.not_eq_true, and_comm]

theorem requestBoarding_iff : (becomes before r.running .boarding && r.autoCue && r.running.platform.isSome) = true ↔
    becomes before r.running .boarding = true ∧ r.autoCue = true ∧ r.running.platform.isSome = true := by
  rw [Bool.and_eq_true, Bool.and_eq_true, and_assoc]

end

/-! ## Notices asked for and withdrawn (R87 to R90) -/

/-- The notice that a creation makes. -/
theorem Part.createNotice_newest (p : Part) (k : NoticeKind) (pr : Nat) (sv : Option Nat) (t : Text) (e : Option Nat) (o : NoticeOrigin) :
    ∃ n ∈ (p.createNotice k pr sv t e o).1.notices.notices, n.kind = k ∧ n.service = sv ∧ n.priority = pr ∧
      n.creation + 1 = (p.createNotice k pr sv t e o).1.notices.nextCreation := by
  unfold Part.createNotice
  dsimp only
  split <;> exact ⟨_, mem_insertBy.mpr (.inl rfl), rfl, rfl, rfl, rfl⟩

theorem Part.askNotice_newest {p : Part} {k : NoticeKind} {s : Option Nat}
    (h : p.notices.notices.length < 16 ∨ ∃ n ∈ p.notices.notices, n.kind = k ∧ n.service = s) :
    ∃ n ∈ (p.askNotice k s).notices.notices, n.kind = k ∧ n.service = s ∧ n.priority = autoPriority k ∧
      n.creation + 1 = (p.askNotice k s).notices.nextCreation := by
  unfold Part.askNotice
  split
  · exact Part.createNotice_newest _ _ _ _ _ _ _
  · next hnone =>
    have hlen : p.notices.notices.length < 16 := h.resolve_right fun ⟨n, hn, hks⟩ => NoticeList.auto?_none hnone n hn hks
    have hroom : p.noticeRoom (autoPriority k) = some p := if_pos hlen
    rw [hroom]
    exact Part.createNotice_newest _ _ _ _ _ _ _

end Sys2Proof.Machine
end

section
/-! Settling O36: SERVICE_UPDATE of the effective copy, the triggers, and their notices. -/

namespace Sys2Proof.Machine

/-! ## The checks as the obligation writes them -/

theorem statusPermitted_iff_pair (old st : Status) : statusPermitted old st = true ↔
    (old, st) ∈ [(Status.normal, Status.normal), (.normal, .boarding), (.normal, .departed),
      (.normal, .cancelled), (.boarding, .normal), (.boarding, .boarding), (.boarding, .closed), (.boarding, .departed),
      (.boarding, .cancelled), (.closed, .boarding), (.closed, .closed), (.closed, .departed), (.closed, .cancelled),
      (.cancelled, .normal), (.cancelled, .cancelled)] := by
  cases old <;> cases st <;> decide

theorem Part.updateNotOwner_iff (p : Part) (l : Link) (u : UpdateBody) (r : Record) : p.updateNotOwner l u r = true ↔
    u.platformAction = .set ∧ (l = .information ∧ r.ctl = none ∧ p.controlOwned u.platform = true ∨
      l = .control ∧ p.controlOwned u.platform = false) := by
  unfold Part.updateNotOwner
  cases l <;> simp

/-! ## The record changed -/

theorem Record.setCopy_running {r : Record} {l : Link} {c c' : Running} (hc : r.copyOf l = some c) (hl : l = .information → r.ctl = none) :
    (r.setCopy l c').running = c' := by
  cases l with
  | information =>
    have hnone := hl rfl
    show ({ r with info := c' } : Record).running = c'
    unfold Record.running
    dsimp only
    rw [hnone]
    rfl
  | control => rfl

theorem Record.setCopy_id (r : Record) (l : Link) (c : Running) : (r.setCopy l c).id = r.id := by
  cases l <;> rfl

theorem Record.setCopy_sched (r : Record) (l : Link) (c : Running) : (r.setCopy l c).sched = r.sched := by
  cases l <;> rfl

theorem Record.setCopy_origin (r : Record) (l : Link) (c : Running) : (r.setCopy l c).origin = r.origin := by
  cases l <;> rfl

/-- The record that an update of the effective copy makes. -/
def Part.updated (p : Part) (l : Link) (u : UpdateBody) (r : Record) (c : Running) : Record :=
  { r.setCopy l (u.apply c) with
    origin := if u.apply c = c then r.origin else updateOrigin l
    departedAt := if (u.apply c).status = .departed then some (p.tableNow.getD 0) else none }

theorem Part.updated_id (p : Part) (l : Link) (u : UpdateBody) (r : Record) (c : Running) : (p.updated l u r c).id = r.id :=
  r.setCopy_id l _

section
variable {p : Part} {l : Link} {u : UpdateBody} {r : Record} {c : Running} (hc : r.copyOf l = some c) (hcr : c = r.running)
  (hl : l = .information → r.ctl = none) (hd : ¬(r.running.status = .departed ∨ c.status = .departed))
include hc hcr hl

include hd in
theorem Part.tracked_update : p.tracked r.running (updateOrigin l) (r.setCopy l (u.apply c)) = p.updated l u r c := by
  have hrunning := Record.setCopy_running (c' := u.apply c) hc hl
  rw [Part.tracked_eq p (not_or.mp hd).1, hrunning, Record.setCopy_origin, ← hcr]
  rfl

include hd in
/-- An update that changes no effective item. -/
theorem Part.update_quiet (hsame : u.apply c = c) : (p.begin.change r (r.setCopy l (u.apply c)) (updateOrigin l)).settle =
    (p.replaced r.id (p.updated l u r c)).ended false := by
  have hrunning := Record.setCopy_running (c' := u.apply c) hc hl
  rw [Part.change_settle_quiet (r.setCopy_sched l _) (hrunning.trans (hsame.trans hcr)), Part.tracked_update hc hcr hl hd]

include hd in
/-- An update that changes an effective item. -/
theorem Part.update_handed (hok : p.table.ok) (hmem : r ∈ p.table.records) (hmoved : u.apply c ≠ c) :
    p.Handed c (p.updated l u r c) (p.begin.change r (r.setCopy l (u.apply c)) (updateOrigin l)).settle := by
  have hrunning := Record.setCopy_running (c' := u.apply c) hc hl
  have hlaw := Part.handed_change (o := updateOrigin l) hok hmem (r.setCopy_id l (u.apply c))
    fun ⟨_, hn⟩ => hmoved (hrunning.symm.trans (hn.trans hcr.symm))
  rw [Part.tracked_update hc hcr hl hd, ← hcr] at hlaw
  exact hlaw

end

/-- Settles O36. -/
theorem updateOfTheEffectiveCopy : Obligations.UpdateOfTheEffectiveCopy := by
  unfold Obligations.UpdateOfTheEffectiveCopy
  refine ⟨?update, ?triggers, ?notices⟩
  case update =>
    intro s rq u he hread hok refused malformed
    have hmal : u.malformed = true ↔ malformed := u.malformed_iff
    refine ⟨fun hnone => answers_of_reply rfl he hread (serviceUpdate_notFound hnone), fun r hr =>
      ⟨fun h => answers_of_reply rfl he hread (serviceUpdate_malformed hr (hmal.mpr h)), fun h hl hctl => ?_, fun c h hc => ?_⟩⟩
    · exact answers_of_reply rfl he hread (serviceUpdate_noCopy hr (Bool.eq_false_iff.mpr (mt hmal.mp h)) (by rw [hl]; exact hctl))
    · have hfine : u.malformed = false := Bool.eq_false_iff.mpr (mt hmal.mp h)
      intro asked permitted foreign final
      have hper : statusPermitted c.status (u.statusAfter c) = true ↔ permitted := statusPermitted_iff_pair _ _
      have hfor : s.part.updateNotOwner rq.link u r = true ↔ foreign := s.part.updateNotOwner_iff _ _ _
      refine ⟨fun hd => answers_of_reply rfl he hread (serviceUpdate_departed hr hfine hc hd), fun hd hp =>
        answers_of_reply rfl he hread (serviceUpdate_notPermitted hr hfine hc hd (Bool.eq_false_iff.mpr (mt hper.mp hp))), fun hd hp hf =>
        answers_of_reply rfl he hread (serviceUpdate_foreign hr hfine hc hd (hper.mpr hp) (hfor.mpr hf)), fun hd hp hf hb hcr hl => ?_⟩
      have htaken := serviceUpdate_taken hr hfine hc hd (hper.mpr hp) (Bool.eq_false_iff.mpr (mt hfor.mp hf)) hb
      obtain ⟨hmem, hid⟩ := Part.record?_mem hr
      intro changed
      refine ⟨fun hsame => ?_, fun hmoved => ?_⟩
      · rw [Part.update_quiet hc hcr hl hd hsame, hid] at htaken
        exact answers_of_reply rfl he hread htaken
      · have hlaw := Part.update_handed hc hcr hl hd hok hmem hmoved
        have hframe := s.part.change_settle_beyondTable r (r.setCopy rq.link (u.apply c)) (updateOrigin rq.link)
        have hanswer : Answers (.serviceUpdate rq) s 0x11 rq _ .ok [] := answers_of_reply rfl he hread htaken
        have hchanged : (s.part.updated rq.link u r c).id = u.id := (Part.updated_id _ _ _ _ _).trans hid
        generalize (s.part.begin.change r (r.setCopy rq.link (u.apply c)) (updateOrigin rq.link)).settle = q at hanswer hlaw hframe
        exact ⟨q, hanswer, hchanged ▸ hlaw.held, hchanged ▸ hlaw.handsOn, hchanged ▸ hlaw.others, hlaw.ok, Part.own_of_table hframe,
          Part.time_of_table hframe, Part.chain_of_table hframe, Part.store_of_table hframe⟩
  case triggers =>
    intro p before r hr hmem now becomes ends unknown fires announce q₁ q₂ q₃ q₄ q₅ q₆ q₇ q₈ h1 h1' h2 h2' h3 h3' h4 h4' h5 h5' h6 h6'
      h7 h7' h8 h8'
    have hends : r.endsRun before = true ↔ ends := r.endsRun_iff before
    have hunknown (c : Running) : c.unknownCondition = true ↔ unknown c := c.unknownCondition_iff
    have hfires : delayFires p.noticeN p.stepP r = true ↔ fires := delayFires_iff p r
    have hbecomes (st : Status) : Machine.becomes before now st = true ↔ becomes st := becomes_iff _ _ _
    have hover : (r.endsRun before || !r.late && r.announcedDelay.isSome) = true ↔ ends ∨ r.late = false ∧ r.announcedDelay.isSome = true := by
      rw [Bool.or_eq_true, Bool.and_eq_true, Bool.not_eq_true', hends]
    have e1 : p.withdrawDelay r (r.endsRun before) = q₁ :=
      stage_eq hover (fun h => (h1 h).trans (congrArg (·.withdrawNotice .delay (some r.id)) (p.announce_eq r.id none).symm)) h1'
    have e2 : q₁.withdrawEnded r (r.endsRun before) = q₂ := stage_eq hends h2 h2'
    have e3 : q₂.withdrawReinstated before r = q₃ := stage_eq withdrawReinstated_iff h3 h3'
    have e4 : q₃.withdrawUnknown before r = q₄ :=
      stage_eq (withdrawUnknown_iff.trans (and_congr (hunknown _) (not_congr (hunknown _)))) h4 h4'
    have e5 : q₄.requestCancel before r = q₅ := stage_eq (hbecomes .cancelled) h5 h5'
    have e6 : q₅.requestUnknown before r = q₆ :=
      stage_eq (requestUnknown_iff.trans (and_congr (hunknown _) (not_congr (hunknown _)))) h6 h6'
    have hwithdrawn : p.triggerWithdrawals before r = q₄ := by rw [Part.triggerWithdrawals_eq, e1, e2, e3, e4]
    have htable : q₆.table = (p.announce r.id (r.keptDelay before)).table := by
      rw [← e6, Part.requestUnknown_table, ← e5, Part.requestCancel_table, ← hwithdrawn, Part.triggerWithdrawals_table hr hmem]
    have e7 : q₆.requestDelay r (delayFires p.noticeN p.stepP r) = q₇ := by
      have hminutes := Part.announce_minutes (x := q₆.askBoth .delay .delay r) hr hmem ((Part.askBoth_table _ _ _ _).trans htable)
      exact stage_eq hfires (fun h => (h7 h).trans hminutes.symm) h7'
    have e8 : q₇.requestBoarding before r = q₈ :=
      stage_eq (requestBoarding_iff.trans (and_congr_left' (hbecomes .boarding))) h8 h8'
    have hall : p.triggers before r.id = q₈.latchDelay r (delayFires p.noticeN p.stepP r) := by
      rw [Part.triggers_eq hr hmem, Part.requests, hwithdrawn, e5, e6, e7, e8]
    exact ⟨fun h => hall.trans (if_pos (hfires.mpr h)), fun h => hall.trans (if_neg (mt hfires.mp h))⟩
  case notices =>
    intro p k id hok hk
    exact ⟨fun n hn => (Part.withdrawNotice_mem hok hk hn).2, Part.askNotice_newest⟩

end Sys2Proof.Machine
end

section
/-! SETTINGS_SAVE, SETTINGS_CHECK and the store writes (R203, R204). -/

namespace Sys2Proof.Machine

/-! ## SETTINGS_SAVE -/

section
variable {tag : Byte} {r : Nat} {p : Part}

theorem settingsSave_frozen (h : p.store.frozen = true) : settingsSave tag r p = .reply p .frozen [] := if_pos h

variable (h : p.store.frozen = false)
include h

theorem settingsSave_thawed : settingsSave tag r p =
    if 10 < r then refuse p .invalidField
    else if r == 10 then refuse p .notPermitted
    else if 20000 ≤ (p.store.storedRow r).saves then refuse p .worn
    else .wait (p.askWrite (.save r)) (.save tag r) := if_neg (by rw [h]; exact Bool.false_ne_true)

theorem settingsSave_invalid (hr : 10 < r) : settingsSave tag r p = .reply p .invalidField [] := by
  rw [settingsSave_thawed h, if_pos hr]
  rfl

theorem settingsSave_park (hr : r = 10) : settingsSave tag r p = .reply p .notPermitted [] := by
  subst hr
  rw [settingsSave_thawed h]
  rfl

theorem settingsSave_worn (hr : r < 10) (hs : 20000 ≤ (p.store.storedRow r).saves) : settingsSave tag r p = .reply p .worn [] := by
  rw [settingsSave_thawed h, if_neg (by omega), if_neg (by simp; omega), if_pos hs]
  rfl

theorem settingsSave_waits (hr : r < 10) (hs : (p.store.storedRow r).saves < 20000) :
    settingsSave tag r p = .wait (p.askWrite (.save r)) (.save tag r) := by
  rw [settingsSave_thawed h, if_neg (by omega), if_neg (by simp; omega), if_neg (by omega)]

end

/-! ## The check of the stored rows -/

/-- A stored row once it has been checked. -/
def StoredRow.checked (x : StoredRow) : StoredRow := { x with failed := x.failed || !x.passes }

/-- A stored row whose check reports a fault. -/
def StoredRow.faults (x : StoredRow) : Bool := !x.failed && !x.passes

theorem StoredRow.checked_of_passes {x : StoredRow} (h : x.passes = true) : x.checked = x := by
  unfold StoredRow.checked
  rw [h, Bool.not_true, Bool.or_false]

/-- What checking stored rows leaves: the rows `rows`, and SETTINGS_FAULT where one of them faults. -/
structure Part.Checked (p q : Part) (rows : List StoredRow) (fault : Bool) : Prop where
  store : q.store = { p.store with stored := rows }
  port : ∀ l, (p.port l).Latches (· = .settingsFault) (q.port l)
  fault : ∀ l, (q.port l).isLatched .settingsFault = ((p.port l).isLatched .settingsFault || fault)
  frame : q = { p with store := q.store, info := q.info, ctl := q.ctl }

theorem Part.checkRow_law (p : Part) {r : Nat} (hr : r < p.store.stored.length) :
    p.Checked (p.checkRow r) (updateAt p.store.stored r StoredRow.checked) (p.store.storedRow r).faults := by
  have hrow : p.store.stored[r]? = some (p.store.storedRow r) := by
    rw [Store.storedRow, List.getD_eq_getElem?_getD, List.getElem?_eq_getElem hr]
    rfl
  have hcongr {f : StoredRow → StoredRow} (h : f (p.store.storedRow r) = (p.store.storedRow r).checked) :
      updateAt p.store.stored r f = updateAt p.store.stored r StoredRow.checked := by
    refine List.ext_getElem? fun j => ?_
    rw [updateAt_getElem?, updateAt_getElem?]
    split
    · next hj =>
      rw [← hj, hrow, Option.map_some, Option.map_some, h]
    · rfl
  unfold Part.checkRow
  dsimp only
  cases hpass : (p.store.storedRow r).passes with
  | true =>
    rw [if_pos rfl]
    have hsame : updateAt p.store.stored r StoredRow.checked = p.store.stored := by
      rw [← hcongr (f := id) (StoredRow.checked_of_passes hpass).symm]
      exact updateAt_eq_self _ _ _ fun _ _ => rfl
    refine ⟨by rw [hsame], fun l => .refl _ _, fun l => ?_, rfl⟩
    rw [StoredRow.faults, hpass, Bool.not_true, Bool.and_false, Bool.or_false]
  | false =>
    rw [if_neg Bool.false_ne_true]
    have hmark : updateAt p.store.stored r (fun x => { x with failed := true }) = updateAt p.store.stored r StoredRow.checked := by
      refine hcongr ?_
      unfold StoredRow.checked
      rw [hpass, Bool.not_false, Bool.or_true]
    cases hfailed : (p.store.storedRow r).failed with
    | true =>
      rw [if_pos rfl]
      refine ⟨congrArg (fun l => ({ p.store with stored := l } : Store)) hmark, fun l => ?_, fun l => ?_, rfl⟩
      · cases l <;> exact .refl _ _
      · rw [StoredRow.faults, hfailed, Bool.not_true, Bool.false_and, Bool.or_false]
        cases l <;> rfl
    | false =>
      rw [if_neg Bool.false_ne_true]
      refine ⟨congrArg (fun l => ({ p.store with stored := l } : Store)) hmark, fun l => ?_, fun l => ?_, rfl⟩
      · rw [Part.latchNat, Part.latch_port]
        cases l <;> exact Port.latches_latch (sel := (· = .settingsFault)) _ rfl _
      · rw [StoredRow.faults, hfailed, hpass, Part.latchNat, Part.latch_port, Port.latch_isLatched_same]
        exact (Bool.or_true _).symm

theorem Part.Checked.trans {p q t : Part} {rows rows' : List StoredRow} {a b : Bool} (h : p.Checked q rows a) (h' : q.Checked t rows' b) :
    p.Checked t rows' (a || b) where
  store := h'.store.trans (congrArg (fun st : Store => ({ st with stored := rows' } : Store)) h.store :)
  port l := (h.port l).trans (h'.port l)
  fault l := by rw [h'.fault l, h.fault l, Bool.or_assoc]
  frame := h'.frame.trans (congrArg (fun x : Part => ({ x with store := t.store, info := t.info, ctl := t.ctl } : Part)) h.frame :)

theorem updateAt_append {α : Type} (l : List α) (a : α) (m : List α) (f : α → α) :
    updateAt (l ++ a :: m) l.length f = l ++ f a :: m := by
  induction l with
  | nil => rfl
  | cons b l ih => exact congrArg (b :: ·) ih

/-- The rows checked up to the row `k`. -/
theorem Part.checkRows_to (p : Part) {k : Nat} (hk : k ≤ p.store.stored.length) :
    p.Checked ((List.range k).foldl Part.checkRow p) ((p.store.stored.take k).map StoredRow.checked ++ p.store.stored.drop k)
      ((p.store.stored.take k).any StoredRow.faults) := by
  induction k with
  | zero => exact ⟨rfl, fun l => .refl _ _, fun l => (Bool.or_false _).symm, rfl⟩
  | succ k ih =>
    have hk' : k < p.store.stored.length := hk
    have hto := ih (Nat.le_of_lt hk')
    rw [List.range_succ, List.foldl_append]
    generalize (List.range k).foldl Part.checkRow p = q at hto
    have hlength : ((p.store.stored.take k).map StoredRow.checked).length = k := by
      rw [List.length_map, List.length_take]
      omega
    have hstored : q.store.stored = (p.store.stored.take k).map StoredRow.checked ++ p.store.stored[k] :: p.store.stored.drop (k + 1) := by
      rw [hto.store, ← List.drop_eq_getElem_cons hk']
    have hone := q.checkRow_law (r := k) (by rw [hstored, List.length_append, hlength, List.length_cons]; omega)
    have hrow : q.store.storedRow k = p.store.stored[k] := by
      rw [Store.storedRow, List.getD_eq_getElem?_getD, hstored, List.getElem?_append_right (by rw [hlength]), hlength, Nat.sub_self]
      rfl
    have hmarked : updateAt q.store.stored k StoredRow.checked =
        (p.store.stored.take (k + 1)).map StoredRow.checked ++ p.store.stored.drop (k + 1) := by
      have hat := updateAt_append ((p.store.stored.take k).map StoredRow.checked) p.store.stored[k] (p.store.stored.drop (k + 1))
        StoredRow.checked
      rw [hlength] at hat
      rw [hstored, hat, List.take_succ_eq_append_getElem hk', List.map_append, List.append_assoc]
      rfl
    have hfaults : ((p.store.stored.take k).any StoredRow.faults || (q.store.storedRow k).faults) =
        (p.store.stored.take (k + 1)).any StoredRow.faults := by
      rw [hrow, List.take_succ_eq_append_getElem hk', List.any_append]
      simp
    rw [hmarked] at hone
    rw [← hfaults]
    exact hto.trans hone

theorem Part.checkRows_law {p : Part} (h : p.store.stored.length = 11) :
    p.Checked p.checkRows (p.store.stored.map StoredRow.checked) (p.store.stored.any StoredRow.faults) := by
  have hall := p.checkRows_to (k := 11) (Nat.le_of_eq h.symm)
  rwa [List.take_of_length_le (Nat.le_of_eq h), List.drop_eq_nil_of_le (Nat.le_of_eq h), List.append_nil] at hall

theorem Store.checkBody_checked {st : Store} : ({ st with stored := st.stored.map StoredRow.checked } : Store).checkBody = st.checkBody := by
  unfold Store.checkBody
  rw [List.flatMap_map]
  rfl

/-! ## Store writes -/

theorem Part.performWrite_store (p : Part) (w : StoreWrite) : (p.performWrite w).store = { p.store with
    stored := updateAt p.store.stored w.row fun r => r.write (p.writtenBytes w)
    writes := p.store.writes.drop 1
    writeBegan := p.elapsed } := rfl

theorem Part.parkDone_store (p : Part) : p.parkDone.store = p.store := by
  unfold Part.parkDone
  split <;> rfl

theorem Part.reportWrite_store (p : Part) (w : StoreWrite) : (p.reportWrite w).store = p.store := by
  unfold Part.reportWrite
  split
  · split
    · exact Part.store_of_ports (Part.answerWaiting_beyondPorts _ _ _ _ _ _)
    · rfl
  · exact p.parkDone_store
  · rfl

/-- What a SETTINGS_CHECK that waited leaves of the stored rows. -/
theorem Part.waitingCheck_store {p : Part} (h : p.store.stored.length = 11) :
    p.waitingCheck.store = p.store ∨ p.waitingCheck.store = { p.store with stored := p.store.stored.map StoredRow.checked } := by
  unfold Part.waitingCheck
  split
  · split
    · refine .inr ?_
      dsimp only
      rw [Part.store_of_ports (Part.answerWaiting_beyondPorts _ _ _ _ _ _), (Part.checkRows_law h).store]
    · exact .inl rfl
  · exact .inl rfl
  · exact .inl rfl
  · exact .inl rfl

end Sys2Proof.Machine
end

section
/-! The end of a store write (R180, R203, R204), and the answers of SETTINGS_CHECK. -/

namespace Sys2Proof.Machine

/-! ## SETTINGS_CHECK -/

theorem settingsCheck_waits {tag : Byte} {p : Part} (h : p.store.writes ≠ []) : settingsCheck tag p = .wait p (.check tag) :=
  if_neg (by simpa using h)

theorem settingsCheck_now {tag : Byte} {p : Part} (h : p.store.writes = []) (hlen : p.store.stored.length = 11) :
    settingsCheck tag p = .reply p.checkRows .ok p.store.checkBody := by
  unfold settingsCheck
  rw [if_pos (by rw [h]; rfl)]
  dsimp only
  rw [(Part.checkRows_law hlen).store, Store.checkBody_checked]

/-! ## The stored rows after a write -/

theorem StoreWrite.writtenBytes_eq (p : Part) (w : StoreWrite) : p.writtenBytes w = (match w with
    | .save r => p.row r
    | .park entry => entry ++ (p.store.storedRow w.row).bytes.drop entry.length
    | .invalidate => 0 :: (p.store.storedRow w.row).bytes.drop 1) := by
  cases w <;> rfl

theorem StoredRow.write_passes (x : StoredRow) (bytes : List Byte) : (x.write bytes).passes = true := beq_self_eq_true _

theorem Store.storedRow_map {st : Store} {f : StoredRow → StoredRow} {r : Nat} (hr : r < st.stored.length) :
    ({ st with stored := st.stored.map f } : Store).storedRow r = f (st.storedRow r) := by
  unfold Store.storedRow
  rw [List.getD_eq_getElem?_getD, List.getD_eq_getElem?_getD, List.getElem?_map, List.getElem?_eq_getElem hr]
  rfl

theorem Store.storedRow_out {st : Store} {r : Nat} (hr : st.stored.length ≤ r) : st.storedRow r = noStoredRow := by
  unfold Store.storedRow
  rw [List.getD_eq_getElem?_getD, List.getElem?_eq_none hr]
  rfl

/-- The bytes, check byte and save count of a stored row. -/
def StoredRow.content (x : StoredRow) : List Byte × Byte × Nat := (x.bytes, x.check, x.saves)

theorem Store.content_checked (st : Store) (r : Nat) :
    (({ st with stored := st.stored.map StoredRow.checked } : Store).storedRow r).content = (st.storedRow r).content := by
  by_cases hr : r < st.stored.length
  · rw [Store.storedRow_map hr]
    rfl
  · have hle := Nat.not_lt.mp hr
    rw [Store.storedRow_out hle, Store.storedRow_out (by rwa [List.length_map])]

section
variable {p : Part} {w : StoreWrite} {rest : List StoreWrite} (hw : p.store.writes = w :: rest)
include hw

theorem Part.writeComplete_eq : p.writeComplete = ((p.performWrite w).reportWrite w).waitingCheck := by
  unfold Part.writeComplete
  rw [hw]

/-- The settings once the write is made, before a check that waits. -/
theorem Part.writtenStore : ((p.performWrite w).reportWrite w).store = { p.store with
    stored := updateAt p.store.stored w.row fun r => r.write (p.writtenBytes w), writes := rest, writeBegan := p.elapsed } := by
  rw [Part.reportWrite_store, Part.performWrite_store, hw]
  rfl

variable (hlen : p.store.stored.length = 11)
include hlen

/-- The store after the whole event: what the write leaves, its rows perhaps checked. -/
theorem Part.writeComplete_store : p.writeComplete.store = ((p.performWrite w).reportWrite w).store ∨
    p.writeComplete.store = { ((p.performWrite w).reportWrite w).store with
      stored := ((p.performWrite w).reportWrite w).store.stored.map StoredRow.checked } := by
  rw [Part.writeComplete_eq hw]
  refine Part.waitingCheck_store ?_
  rw [Part.writtenStore hw]
  exact (updateAt_length _ _ _).trans hlen

theorem Part.writeComplete_writes : p.writeComplete.store.writes = rest := by
  have hstore := Part.writtenStore hw
  rcases Part.writeComplete_store hw hlen with h | h
  · rw [h, hstore]
  · rw [h]
    exact (congrArg Store.writes hstore :)

theorem Part.writeComplete_working : p.writeComplete.store.working = p.store.working := by
  have hstore := Part.writtenStore hw
  rcases Part.writeComplete_store hw hlen with h | h
  · rw [h, hstore]
  · rw [h]
    exact (congrArg Store.working hstore :)

/-- The other rows. -/
theorem Part.writeComplete_others {r : Nat} (hr : r ≠ w.row) :
    (p.writeComplete.store.storedRow r).content = (p.store.storedRow r).content := by
  have hother : (((p.performWrite w).reportWrite w).store).storedRow r = p.store.storedRow r := by
    rw [Part.writtenStore hw]
    exact updateAt_getD_other _ _ _ _ _ (Ne.symm hr)
  rcases Part.writeComplete_store hw hlen with h | h
  · rw [h, hother]
  · rw [h, Store.content_checked, hother]

variable (hrow : w.row < 11)
include hrow

theorem Part.writtenRow : (((p.performWrite w).reportWrite w).store).storedRow w.row =
    (p.store.storedRow w.row).write (p.writtenBytes w) := by
  rw [Part.writtenStore hw]
  unfold Store.storedRow
  dsimp only
  rw [List.getD_eq_getElem?_getD, List.getD_eq_getElem?_getD, updateAt_getElem?, if_pos rfl, List.getElem?_eq_getElem (hlen ▸ hrow)]
  rfl

/-- The row written. -/
theorem Part.writeComplete_row : p.writeComplete.store.storedRow w.row = (p.store.storedRow w.row).write (p.writtenBytes w) := by
  have hwritten := Part.writtenRow hw hlen hrow
  rcases Part.writeComplete_store hw hlen with h | h
  · rw [h, hwritten]
  · rw [h, Store.storedRow_map, hwritten, StoredRow.checked_of_passes (StoredRow.write_passes _ _)]
    rw [Part.writtenStore hw]
    exact ((updateAt_length _ _ _).trans hlen).symm ▸ hrow

end

/-! ## What the write reports -/

theorem Part.waitingCheck_eq {p : Part} (h : ∀ tag, p.info.waiting ≠ some (.check tag)) : p.waitingCheck = p := by
  unfold Part.waitingCheck
  split
  · next tag htag => exact absurd htag (h tag)
  · rfl
  · rfl
  · rfl

/-- A port on which a waiting command has been answered. -/
theorem Part.answerWaiting_info (p : Part) (kind tag : Byte) (r : Result) (body : List Byte) :
    (p.answerWaiting .information kind tag r body).info.waiting = none ∧
      ∃ summary, (p.answerWaiting .information kind tag r body).info.tx.getLast? = some (.reply kind tag summary r.code body) := by
  have hport := p.answerWaiting_port .information kind tag r body
  have htx : (p.answerWaiting .information kind tag r body).info.tx = _ := (congrArg Port.tx hport :)
  refine ⟨(congrArg Port.waiting hport :), p.summary .information, ?_⟩
  rw [htx]
  exact List.getLast?_concat

theorem Part.reportWrite_save {p : Part} {r : Nat} {tag : Byte} (h : p.info.waiting = some (.save tag r)) :
    p.reportWrite (.save r) = p.answerWaiting .information 0xC2 tag .ok (be 2 (p.store.storedRow r).saves) := by
  have hwait : p.saveWait r = some tag := by
    unfold Part.saveWait
    rw [h]
    exact if_pos (beq_self_eq_true r)
  unfold Part.reportWrite
  dsimp only
  rw [hwait]

/-- A check that waits is not what the write reports. -/
theorem Part.reportWrite_waiting {p : Part} {tag : Byte} (h : p.info.waiting = some (.check tag)) (w : StoreWrite) :
    (p.reportWrite w).info.waiting = some (.check tag) := by
  cases w with
  | save r =>
    have hwait : p.saveWait r = none := by
      unfold Part.saveWait
      rw [h]
    unfold Part.reportWrite
    dsimp only
    rw [hwait]
    exact h
  | park entry =>
    show p.parkDone.info.waiting = _
    unfold Part.parkDone
    split
    · exact h
    · exact h
  | invalidate => exact h

theorem Part.waitingCheck_answers {p : Part} {tag : Byte} (h : p.info.waiting = some (.check tag)) (hw : p.store.writes = []) :
    p.waitingCheck = p.checkRows.answerWaiting .information 0xC3 tag .ok p.checkRows.store.checkBody := by
  unfold Part.waitingCheck
  rw [h]
  dsimp only
  rw [if_pos (by rw [hw]; rfl)]

/-- A check that waited leaves the clocks, and what is latched stays so. -/
theorem Part.waitingCheck_frame {p : Part} (h : p.store.stored.length = 11) : p.waitingCheck.clocks = p.clocks ∧
    ∀ k l, (p.port l).isLatched k = true → (p.waitingCheck.port l).isLatched k = true := by
  unfold Part.waitingCheck
  split
  · next tag _ =>
    split
    · have hchecked := Part.checkRows_law h
      dsimp only
      generalize p.checkRows = q at hchecked
      have hports := q.answerWaiting_beyondPorts .information 0xC3 tag .ok q.store.checkBody
      refine ⟨(Part.clocks_of_ports hports).trans (congrArg Part.clocks hchecked.frame :), fun k l hk => ?_⟩
      have hkept := (hchecked.port l).kept k hk
      cases l with
      | control => exact hkept
      | information =>
        have hport := q.answerWaiting_port .information 0xC3 tag .ok q.store.checkBody
        exact ((congrArg (Port.isLatched · k) hport).trans hkept :)
    · exact ⟨rfl, fun _ _ hk => hk⟩
  · exact ⟨rfl, fun _ _ hk => hk⟩
  · exact ⟨rfl, fun _ _ hk => hk⟩
  · exact ⟨rfl, fun _ _ hk => hk⟩

end Sys2Proof.Machine
end

section
/-! Every record computed with new thresholds (R56). -/

namespace Sys2Proof.Machine

/-- A record computed anew, with the last announced delay that its triggers leave (R49 to R54, R56). -/
def Part.recomputed (p : Part) (x : Record) : Record :=
  let c := p.computed x
  { c with announcedDelay := if delayFires p.noticeN p.stepP c then c.minutes else c.keptDelay x.running }

theorem Part.recomputed_congr {p q : Part} (h : q.store = p.store) (x : Record) : q.recomputed x = p.recomputed x := by
  unfold Part.recomputed
  rw [Part.computed_congr (congrArg Store.working h), Part.noticeN_congr h, Part.stepP_congr h]

theorem Part.handsOn_recomputed (p : Part) (x : Record) : p.handsOn x.running x (p.recomputed x) :=
  ⟨rfl, p.announcedLaw_of x.running (p.computed x), Part.markLaw_same rfl⟩

theorem Part.retireDue_recomputed (p : Part) (x : Record) : p.retireDue (p.recomputed x) = p.retireDue (p.computed x) := rfl

/-- One record computed anew. -/
def Part.recomputeOne (p : Part) (r : Record) : Part := (p.modRecord r.id p.computed).triggers r.running r.id

theorem Part.recomputeOne_table {p : Part} (hr : (p.table.records.map (·.id)).Nodup) {r : Record} (hmem : r ∈ p.table.records) :
    (p.recomputeOne r).table = (p.replaced r.id (p.recomputed r)).table := by
  have hone : p.modRecord r.id p.computed = p.replaced r.id (p.computed r) :=
    (Part.modRecord_congr hr hmem (g := fun _ => p.computed r) rfl).trans (p.modRecord_const _ _)
  have hnodup : ((p.replaced r.id (p.computed r)).table.records.map (·.id)).Nodup := (p.replaced_ids (x := p.computed r) rfl).symm ▸ hr
  have htable := Part.triggers_table (before := r.running) hnodup (Part.mem_replaced (x := p.computed r) hmem)
  unfold Part.recomputeOne
  rw [hone]
  exact htable.trans (congrArg Part.table (Part.announce_replaced (x := p.computed r) rfl _) :)

theorem Part.recomputeOne_beyondTable (p : Part) (r : Record) : (p.recomputeOne r).beyondTable = p.beyondTable :=
  Part.triggers_beyondTable _ _ _

/-- The records with those of `l` computed anew. -/
def Part.recomputedIn (p : Part) (l : List Record) (x : Record) : Record := if x.id ∈ l.map (·.id) then p.recomputed x else x

theorem Part.foldl_recomputeOne {l : List Record} (hl : (l.map (·.id)).Nodup) {p : Part} (hr : (p.table.records.map (·.id)).Nodup)
    (hmem : ∀ r ∈ l, r ∈ p.table.records) :
    (l.foldl Part.recomputeOne p).table = { p.table with records := p.table.records.map (p.recomputedIn l) } := by
  induction l generalizing p with
  | nil =>
    have hid : p.recomputedIn [] = id := funext fun x => if_neg List.not_mem_nil
    rw [hid, List.map_id]
    rfl
  | cons r l ih =>
    obtain ⟨hnew, hl⟩ := List.nodup_cons.mp hl
    have hnew : r.id ∉ l.map (·.id) := hnew
    have hone := Part.recomputeOne_table hr (hmem r List.mem_cons_self)
    have hstore : (p.recomputeOne r).store = p.store := Part.store_of_table (p.recomputeOne_beyondTable r)
    have hsame : (p.recomputeOne r).recomputedIn l = p.recomputedIn l := funext fun x => by
      unfold Part.recomputedIn
      rw [Part.recomputed_congr hstore]
    rw [List.foldl_cons]
    generalize p.recomputeOne r = q at hone hsame
    have hnodup : (q.table.records.map (·.id)).Nodup := by
      rw [hone, Part.replaced_ids p (id := r.id) (x := p.recomputed r) rfl]
      exact hr
    have hkept : ∀ x ∈ l, x ∈ q.table.records := fun x hx => by
      rw [hone]
      refine List.mem_map.mpr ⟨x, hmem x (List.mem_cons_of_mem _ hx), if_neg fun hid => ?_⟩
      exact hnew (hid ▸ List.mem_map_of_mem (f := (·.id)) hx)
    rw [ih hl hnodup hkept, hsame, hone]
    refine congrArg (fun l => ({ p.table with records := l } : Table)) ?_
    show (p.table.records.map _).map _ = _
    rw [List.map_map]
    refine List.map_congr_left fun x hx => ?_
    simp only [Function.comp]
    by_cases hid : x.id = r.id
    · have hin : x.id ∈ (r :: l).map (·.id) := hid ▸ List.mem_cons_self
      have hself : p.recomputedIn l (p.recomputed r) = p.recomputed r := if_neg hnew
      rw [if_pos hid, hself, Part.recomputedIn, if_pos hin, eq_of_id hr hx (hmem r List.mem_cons_self) hid]
    · rw [if_neg hid]
      unfold Part.recomputedIn
      have hiff : x.id ∈ (r :: l).map (·.id) ↔ x.id ∈ l.map (·.id) := by
        rw [List.map_cons, List.mem_cons]
        exact or_iff_right hid
      simp only [hiff]

/-! ## The table after the recomputation -/

section
variable {p : Part} (hok : p.table.ok)
include hok

theorem Part.recomputeAll_table : p.recomputeAll.table =
    { p.table with records := (sortRecords (p.table.records.map p.recomputed)).filter fun r => !p.retireDue r } := by
  have hall : p.recomputedIn p.table.records = fun x => if x.id ∈ p.table.records.map (·.id) then p.recomputed x else x := rfl
  have hfold := Part.foldl_recomputeOne hok.2.1 hok.2.1 fun _ hr => hr
  have hmap : p.table.records.map (p.recomputedIn p.table.records) = p.table.records.map p.recomputed :=
    List.map_congr_left fun x hx => if_pos (List.mem_map_of_mem hx)
  rw [hmap] at hfold
  have hframe : (p.table.records.foldl Part.recomputeOne p).beyondTable = p.beyondTable :=
    foldl_keeps Part.beyondTable _ (fun q r => q.recomputeOne_beyondTable r) _ p
  have hdef : p.recomputeAll = (((p.table.records.foldl Part.recomputeOne p).mapRecords sortRecords).tellWall).retireCheck fun _ => true := rfl
  rw [hdef]
  generalize p.table.records.foldl Part.recomputeOne p = q at hfold hframe
  have hnodup : (((q.mapRecords sortRecords).tellWall).table.records.map (·.id)).Nodup := by
    show ((sortRecords q.table.records).map (·.id)).Nodup
    have hperm : (sortRecords q.table.records).Perm q.table.records := sortBy_perm _ _
    rw [(hperm.map _).nodup_iff, hfold]
    show ((p.table.records.map p.recomputed).map (·.id)).Nodup
    rw [List.map_map]
    exact hok.2.1
  have hdue : ((q.mapRecords sortRecords).tellWall).retireDue = p.retireDue :=
    funext fun r => Part.retireDue_congr (Part.time_of_table hframe) (Part.store_of_table hframe) r
  rw [Part.retireCheck_table hnodup, hdue]
  show ({ q.table with records := (sortRecords q.table.records).filter fun r => !(true && p.retireDue r) } : Table) = _
  rw [hfold]
  rfl

theorem Part.recomputeAll_ok : p.recomputeAll.table.ok := by
  have hsorted := (Part.map_unsorted (f := p.recomputed) ((Table.ok_iff _).mp hok).1 fun _ => rfl).sort
  obtain ⟨hlen, hids, horder, hnames⟩ := hsorted
  rw [Part.recomputeAll_table hok]
  have hsub := List.filter_sublist (p := fun r : Record => !p.retireDue r) (l := sortRecords (p.table.records.map p.recomputed))
  exact ⟨hsub.length_le.trans hlen, hids.sublist (hsub.map _), horder.sublist hsub, hnames⟩

theorem Part.mem_recomputeAll {y : Record} : y ∈ p.recomputeAll.table.records ↔
    ∃ x ∈ p.table.records, y = p.recomputed x ∧ p.retireDue (p.computed x) = false := by
  rw [Part.recomputeAll_table hok]
  show y ∈ (sortRecords (p.table.records.map p.recomputed)).filter (fun r => !p.retireDue r) ↔ _
  rw [List.mem_filter, sortRecords, mem_sortBy, List.mem_map, Bool.not_eq_true']
  constructor
  · rintro ⟨⟨x, hx, rfl⟩, hdue⟩
    exact ⟨x, hx, rfl, hdue⟩
  · rintro ⟨x, hx, rfl, hdue⟩
    exact ⟨⟨x, hx, rfl⟩, hdue⟩

theorem Part.recomputeAll_record? {x : Record} (hx : x ∈ p.table.records) : p.recomputeAll.record? x.id =
    if p.retireDue (p.computed x) then none else some (p.recomputed x) := by
  have hrok := Part.recomputeAll_ok hok
  by_cases hdue : p.retireDue (p.computed x) = true
  · rw [if_pos hdue]
    cases hfind : p.recomputeAll.record? x.id with
    | none => rfl
    | some y =>
      obtain ⟨hy, hid⟩ := Part.record?_mem hfind
      obtain ⟨x', hx', rfl, hkept⟩ := (Part.mem_recomputeAll hok).mp hy
      rw [eq_of_id hok.2.1 hx' hx hid, hdue] at hkept
      cases hkept
  · rw [if_neg hdue]
    have hin := (Part.mem_recomputeAll hok).mpr ⟨x, hx, rfl, Bool.eq_false_iff.mpr hdue⟩
    exact Part.record?_of_mem (r := p.recomputed x) hrok.2.1 hin

end

end Sys2Proof.Machine
end

section
/-! A change of one input's configuration within a SETTINGS_WRITE (R198, R199), its consequences by their conditions. -/

namespace Sys2Proof.Machine

section
variable (w : WallInput) (old new : InputConfig)

/-- The actions of the input end. -/
def WallInput.endsUnder : Bool := w.isOn && old.mode == .act && (new.mode != .act || !old.tokens.isEmpty && new.tokens.isEmpty)

/-- The actions of the input begin. -/
def WallInput.beginsUnder : Bool :=
  new.mode == .act && (old.mode != .act && w.state == .active || old.mode == .act && w.isOn && old.tokens.isEmpty && !new.tokens.isEmpty)

/-- The Wall Composer is told. -/
def WallInput.tellsUnder : Bool := w.isOn && (old.mode == .act || new.mode == .act) && old != new

/-- The input is switched off while it is on. -/
def WallInput.offUnder : Bool := new.mode == .off && old.mode != .off && w.isOn

end

/-- The effect of the change on the Cue Scheduler. -/
def Part.inputEffect (p : Part) (i : Nat) (ends begins : Bool) : Part :=
  if ends then p.inputEnd i else if begins then p.inputStart i else p

/-- What comes before that: INPUT_CHANGED, and the Wall Composer told. -/
def Part.inputTold (p : Part) (i : Nat) (off tells : Bool) : Part :=
  let p := if off then p.latchNat .inputChanged (i + 1) else p
  if tells then p.tellWall else p

theorem WallInput.isOn_of_active {w : WallInput} (h : w.state = .active) : w.isOn = true := by
  unfold WallInput.isOn
  rw [h]
  rfl

section
variable {w : WallInput} {old new : InputConfig} (p : Part) (i : Nat)

theorem Part.configConsequences_idle (h : w.isOn = false) : p.configConsequences i w old new = p := by
  unfold Part.configConsequences
  rw [h, Bool.and_false]
  rfl

/-- The consequences of a change of configuration by their conditions. -/
theorem Part.configConsequences_eq : p.configConsequences i w old new =
    (p.inputTold i (w.offUnder old new) (w.tellsUnder old new)).inputEffect i (w.endsUnder old new) (w.beginsUnder old new) := by
  cases hon : w.isOn with
  | false =>
    have hstate : (w.state == InputState.active) = false := Bool.eq_false_iff.mpr fun h => by
      rw [WallInput.isOn_of_active (beq_iff_eq.mp h)] at hon
      cases hon
    rw [Part.configConsequences_idle p i hon]
    unfold WallInput.offUnder WallInput.tellsUnder WallInput.endsUnder WallInput.beginsUnder
    rw [hon, hstate]
    simp [Part.inputTold, Part.inputEffect]
  | true =>
    have hmoved : (old.mode == .act) ≠ (new.mode == .act) → (old != new) = true := fun h =>
      bne_iff_ne.mpr fun heq => h (by rw [heq])
    unfold Part.configConsequences Part.inputTold WallInput.tellsUnder WallInput.endsUnder WallInput.beginsUnder WallInput.offUnder
      Part.inputEffect Part.actionsEnd Part.actionsBegin
    simp only [bne, hon] at hmoved ⊢
    generalize (if (new.mode == InputMode.off && !(old.mode == InputMode.off) && true) = true then p.latchNat .inputChanged (i + 1) else p) = q
    generalize (old.mode == InputMode.act) = wasAct at *
    generalize (new.mode == InputMode.act) = isAct at *
    cases wasAct with
    | false =>
      cases isAct with
      | false => simp
      | true => simp [hmoved (by decide)]
    | true =>
      cases isAct with
      | false => simp [hmoved (by decide)]
      | true => simp

end

end Sys2Proof.Machine
end

section
/-! The end of an input's actions in the Cue Scheduler (R166, R199). -/

namespace Sys2Proof.Machine

/-- A record whose playing has been stopped. -/
def Cue.isStopping (c : Cue) : Prop := ∃ why t, c.flight = .stopping why t

/-- No record is new but one of the input that `j` names, and a record in flight is left so or stopped. -/
def CueSched.Stays (j : Option Nat) (q r : CueSched) : Prop :=
  ∀ c ∈ r.pool, (j ≠ none ∧ c.input = j) ∨ ∃ d ∈ q.pool, d.id = c.id ∧ d.input = c.input ∧ (c.flight = d.flight ∨ c.isStopping)

theorem CueSched.Stays.refl (j : Option Nat) (q : CueSched) : q.Stays j q := fun c hc => .inr ⟨c, hc, rfl, rfl, .inl rfl⟩

theorem CueSched.Stays.trans {j : Option Nat} {q r t : CueSched} (h : q.Stays j r) (h' : r.Stays j t) : q.Stays j t := by
  intro c hc
  rcases h' c hc with hj | ⟨d, hd, hdid, hdin, hdf⟩
  · exact .inl hj
  · rcases h d hd with hj | ⟨e, he, heid, hein, hef⟩
    · exact .inl ⟨hj.1, hdin ▸ hj.2⟩
    · refine .inr ⟨e, he, heid.trans hdid, hein.trans hdin, ?_⟩
      rcases hdf with hdf | hdf
      · unfold Cue.isStopping at *
        rw [hdf]
        exact hef
      · exact .inr hdf

theorem CueSched.Stays.weaken {q r : CueSched} (h : q.Stays none r) (j : Option Nat) : q.Stays j r :=
  fun c hc => (h c hc).imp_left fun hj => absurd rfl hj.1

/-- Stopped records stay stopped. -/
theorem CueSched.Stays.stopping {j : Option Nat} {q r : CueSched} (h : q.Stays j r) {i : Nat} (hij : some (i + 1) ≠ j)
    (hq : ∀ c ∈ q.pool, c.input = some (i + 1) → c.isStopping) : ∀ c ∈ r.pool, c.input = some (i + 1) → c.isStopping := by
  intro c hc hin
  rcases h c hc with hj | ⟨d, hd, _, hdin, hdf⟩
  · exact absurd (hin.symm.trans hj.2) hij
  · rcases hdf with hdf | hdf
    · obtain ⟨why, t, hstop⟩ := hq d hd (hdin.trans hin)
      exact ⟨why, t, hdf.trans hstop⟩
    · exact hdf

theorem CueSched.stays_of_subset {j : Option Nat} {q r : CueSched} (h : ∀ c ∈ r.pool, c ∈ q.pool) : q.Stays j r :=
  fun c hc => .inr ⟨c, h c hc, rfl, rfl, .inl rfl⟩

theorem CueSched.stays_modCue {j : Option Nat} (q : CueSched) (id : Nat) {f : Cue → Cue} (hf : ∀ c, (f c).id = c.id ∧ (f c).input = c.input ∧
    ((f c).flight = c.flight ∨ (f c).isStopping)) : q.Stays j (q.modCue id f) := by
  intro c hc
  obtain ⟨d, hd, rfl⟩ := List.mem_map.mp hc
  refine .inr ⟨d, hd, ?_⟩
  split
  · obtain ⟨hid, hin, hfl⟩ := hf d
    exact ⟨hid.symm, hin.symm, hfl⟩
  · exact ⟨rfl, rfl, .inl rfl⟩

/-! ## One record in flight cancelled -/

theorem Part.stays_stopCue (p : Part) (j : Option Nat) (id : Nat) (why : StopReason) : p.cues.Stays j (p.stopCue id why).cues :=
  CueSched.stays_modCue p.cues id fun _ => ⟨rfl, rfl, .inr ⟨why, p.elapsed + 5000, rfl⟩⟩

theorem Part.stays_cancelFlight (p : Part) (j : Option Nat) (c : Cue) : p.cues.Stays j (p.cancelFlight c).cues := by
  unfold Part.cancelFlight
  split
  · exact .refl _ _
  · exact p.stays_stopCue j c.id .cancellation
  · exact p.stays_stopCue j c.id .cancellation
  · next t _ => exact CueSched.stays_modCue p.cues c.id fun _ => ⟨rfl, rfl, .inr ⟨.cancellation, t, rfl⟩⟩
  · exact .refl _ _
  · exact .refl _ _

/-- The records of the id cancelled, none of which is queued, are stopped. -/
theorem Part.cancelFlight_stops {p : Part} {c : Cue} (hq : c.flight ≠ .queued)
    (h : ∀ x ∈ p.cues.pool, x.id = c.id → x.flight = c.flight ∨ x.isStopping) :
    ∀ x ∈ (p.cancelFlight c).cues.pool, x.id = c.id → x.isStopping := by
  have hmod (f : Cue → Cue) (hid : ∀ x, (f x).id = x.id) (hf : ∀ x, (f x).isStopping) :
      ∀ x ∈ (p.cues.modCue c.id f).pool, x.id = c.id → x.isStopping := by
    intro x hx hxid
    obtain ⟨d, _, rfl⟩ := List.mem_map.mp hx
    split
    · exact hf d
    · next hne =>
      rw [if_neg hne] at hxid
      exact absurd (beq_iff_eq.mpr hxid) hne
  have hstays (why : StopReason) (t : Nat) (hc : c.flight = .stopping why t) : ∀ x ∈ p.cues.pool, x.id = c.id → x.isStopping :=
    fun x hx hxid => (h x hx hxid).elim (fun hfl => ⟨why, t, hfl.trans hc⟩) id
  unfold Part.cancelFlight
  split
  · next hc => exact absurd hc hq
  · exact hmod _ (fun _ => rfl) fun _ => ⟨.cancellation, p.elapsed + 5000, rfl⟩
  · exact hmod _ (fun _ => rfl) fun _ => ⟨.cancellation, p.elapsed + 5000, rfl⟩
  · next t _ => exact hmod _ (fun _ => rfl) fun _ => ⟨.cancellation, t, rfl⟩
  · next t hc => exact hstays .timeout t hc
  · next t hc => exact hstays .cancellation t hc

theorem Part.sameOwn_cancelFlight (p : Part) {c : Cue} {id : Nat} (h : c.id ≠ id) : p.cues.SameOwn id (p.cancelFlight c).cues := by
  have hmod (f : Cue → Cue) (hid : ∀ x, (f x).id = x.id) : p.cues.SameOwn id (p.cues.modCue c.id f) := CueSched.sameOwn_modCue p.cues h hid
  unfold Part.cancelFlight
  split
  · rfl
  · exact hmod _ fun _ => rfl
  · exact hmod _ fun _ => rfl
  · exact hmod _ fun _ => rfl
  · rfl
  · rfl

theorem CueSched.SameOwn.trans {id : Nat} {q r t : CueSched} (h : q.SameOwn id r) (h' : r.SameOwn id t) : q.SameOwn id t :=
  Eq.trans h' h

/-- What a cancellation leaves besides the records. -/
theorem Part.cancelFlight_frame (p : Part) (c : Cue) : p.cancelFlight c = { p with cues := (p.cancelFlight c).cues } ∧
    (p.cancelFlight c).cues.beyondExamined = p.cues.beyondExamined := by
  unfold Part.cancelFlight
  split <;> exact ⟨rfl, rfl⟩

/-! ## All the records of an input cancelled -/

theorem Part.foldl_cancelFlight_frame (l : List Cue) (p : Part) : l.foldl Part.cancelFlight p =
    { p with cues := (l.foldl Part.cancelFlight p).cues } ∧ (l.foldl Part.cancelFlight p).cues.beyondExamined = p.cues.beyondExamined := by
  induction l generalizing p with
  | nil => exact ⟨rfl, rfl⟩
  | cons c l ih =>
    obtain ⟨hone, hones⟩ := p.cancelFlight_frame c
    obtain ⟨hrest, hrests⟩ := ih (p.cancelFlight c)
    exact ⟨hrest.trans (congrArg (fun x : Part => ({ x with cues := (l.foldl Part.cancelFlight (p.cancelFlight c)).cues } : Part)) hone :),
      hrests.trans hones⟩

theorem Part.stays_foldl_cancelFlight (j : Option Nat) (l : List Cue) (p : Part) : p.cues.Stays j (l.foldl Part.cancelFlight p).cues :=
  foldl_invariant (fun r : Part => p.cues.Stays j r.cues) Part.cancelFlight
    (fun r c hr => hr.trans (r.stays_cancelFlight j c)) l p (.refl j _)

theorem Part.sameOwn_foldl_cancelFlight {id : Nat} {l : List Cue} (h : ∀ c ∈ l, c.id ≠ id) (p : Part) :
    p.cues.SameOwn id (l.foldl Part.cancelFlight p).cues := by
  induction l generalizing p with
  | nil => rfl
  | cons c l ih =>
    exact (p.sameOwn_cancelFlight (h c List.mem_cons_self)).trans (ih (fun d hd => h d (List.mem_cons_of_mem c hd)) _)

/-- The records that are cancelled are stopped. -/
theorem Part.foldl_cancelFlight_stops {p : Part} (hd : (p.cues.pool.map (·.id)).Nodup) {l : List Cue} (hl : ∀ c ∈ l, c ∈ p.cues.pool)
    (hq : ∀ c ∈ l, c.flight ≠ .queued) {r : Part} (hr : p.cues.Stays none r.cues) :
    ∀ c ∈ l, ∀ x ∈ (l.foldl Part.cancelFlight r).cues.pool, x.id = c.id → x.isStopping := by
  induction l generalizing r with
  | nil => exact fun c hc => absurd hc List.not_mem_nil
  | cons c l ih =>
    have hone := hr.trans (r.stays_cancelFlight none c)
    intro d hdl x hx hid
    rcases List.mem_cons.mp hdl with rfl | hdl
    · have hstops := Part.cancelFlight_stops (p := r) (hq d List.mem_cons_self) fun x hx hid => by
        rcases hr x hx with hj | ⟨e, he, heid, _, hef⟩
        · exact absurd rfl hj.1
        · have hed : e = d := List.inj_on_of_nodup_map hd he (hl d List.mem_cons_self) (heid.trans hid)
          exact hed ▸ hef
      rcases Part.stays_foldl_cancelFlight none l (r.cancelFlight d) x hx with hj | ⟨e, he, heid, _, hef⟩
      · exact absurd rfl hj.1
      · obtain ⟨why, t, hstop⟩ := hstops e he (heid.trans hid)
        exact hef.elim (fun hf => ⟨why, t, hf.trans hstop⟩) fun hs => hs
    · exact ih (fun c hc => hl c (List.mem_cons_of_mem _ hc)) (fun c hc => hq c (List.mem_cons_of_mem _ hc)) hone d hdl x hx hid

/-! ## The input end -/

/-- The input's repeat timer is stopped, and its queued records are freed. -/
def Part.inputFreed (p : Part) (i : Nat) : Part := (p.setRepeat i none).removeInputQueued i

theorem Part.inputEnd_eq (p : Part) (i : Nat) : p.inputEnd i =
    ((p.inputFreed i).cues.pool.filter fun c => c.input == some (i + 1)).foldl Part.cancelFlight (p.inputFreed i) := rfl

theorem CueSched.foldl_free_frame (ids : List Nat) (q : CueSched) : (ids.foldl CueSched.free q).beyondExamined = q.beyondExamined := by
  induction ids generalizing q with
  | nil => rfl
  | cons id ids ih => exact ih (q.free id)

theorem Part.inputFreed_frame (p : Part) (i : Nat) : p.inputFreed i = { p with cues := (p.inputFreed i).cues } ∧
    (p.inputFreed i).cues.beyondExamined = ({ p.cues with repeats := updateAt p.cues.repeats i fun _ => none } : CueSched).beyondExamined :=
  ⟨rfl, CueSched.foldl_free_frame _ _⟩

theorem Part.mem_inputFreed {p : Part} {i : Nat} {c : Cue} (h : c ∈ (p.inputFreed i).cues.pool) :
    c ∈ p.cues.pool ∧ (c.input = some (i + 1) → c.flight ≠ .queued) := by
  obtain ⟨hmem, hsel⟩ := Part.removeQueued_mem (p := p.setRepeat i none) h
  refine ⟨hmem, fun hin hfl => ?_⟩
  rw [Cue.isQueued, hfl, hin] at hsel
  simp at hsel

/-- What an input end leaves of the scheduler. -/
theorem Part.inputEnd_frame (p : Part) (i : Nat) : p.inputEnd i = { p with cues := (p.inputEnd i).cues } ∧
    (p.inputEnd i).cues.beyondExamined = ({ p.cues with repeats := updateAt p.cues.repeats i fun _ => none } : CueSched).beyondExamined := by
  obtain ⟨hfreed, hfreeds⟩ := p.inputFreed_frame i
  obtain ⟨hfold, hfolds⟩ := Part.foldl_cancelFlight_frame ((p.inputFreed i).cues.pool.filter fun c => c.input == some (i + 1)) (p.inputFreed i)
  rw [Part.inputEnd_eq]
  refine ⟨?_, hfolds.trans hfreeds⟩
  generalize ((p.inputFreed i).cues.pool.filter fun c => c.input == some (i + 1)).foldl Part.cancelFlight (p.inputFreed i) = r at hfold
  exact hfold.trans (congrArg (fun x : Part => ({ x with cues := r.cues } : Part)) hfreed :)

theorem Part.stays_inputEnd (p : Part) (j : Option Nat) (i : Nat) : p.cues.Stays j (p.inputEnd i).cues :=
  (CueSched.stays_of_subset fun _ hc => (Part.mem_inputFreed hc).1).trans (Part.stays_foldl_cancelFlight j _ _)

/-- After an input end every record of the input is stopping. -/
theorem Part.inputEnd_stops {p : Part} (hd : (p.cues.pool.map (·.id)).Nodup) (i : Nat) :
    ∀ x ∈ (p.inputEnd i).cues.pool, x.input = some (i + 1) → x.isStopping := by
  have hd' : ((p.inputFreed i).cues.pool.map (·.id)).Nodup := by
    have hwithout := (p.setRepeat i none).removeQueued_eq_without (fun c => c.input == some (i + 1)) hd
    have hdef : p.inputFreed i = (p.setRepeat i none).removeQueued fun c => c.input == some (i + 1) := rfl
    rw [hdef, hwithout]
    exact hd.sublist (List.filter_sublist.map _)
  intro x hx hin
  rcases Part.stays_foldl_cancelFlight none _ (p.inputFreed i) x hx with hj | ⟨d, hdm, hid, hdin, _⟩
  · exact absurd rfl hj.1
  · have hmem : d ∈ (p.inputFreed i).cues.pool.filter fun c => c.input == some (i + 1) :=
      List.mem_filter.mpr ⟨hdm, beq_iff_eq.mpr (hdin.trans hin)⟩
    refine Part.foldl_cancelFlight_stops hd' (fun c hc => (List.mem_filter.mp hc).1) (fun c hc => ?_) (.refl none _) d hmem x hx hid.symm
    obtain ⟨hc, hcin⟩ := List.mem_filter.mp hc
    exact (Part.mem_inputFreed hc).2 (beq_iff_eq.mp hcin)

theorem CueSched.sameOwn_foldl_free {ids : List Nat} {id : Nat} (h : id ∉ ids) (q : CueSched) : q.SameOwn id (ids.foldl CueSched.free q) := by
  induction ids generalizing q with
  | nil => rfl
  | cons v ids ih =>
    obtain ⟨hv, hids⟩ := not_or.mp (mt List.mem_cons.mpr h)
    exact (CueSched.sameOwn_free q (Ne.symm hv)).trans (ih hids _)

/-- An input end leaves the records whose id none of the input has. -/
theorem Part.sameOwn_inputEnd {p : Part} {i id : Nat} (h : ∀ c ∈ p.cues.pool, c.id = id → c.input ≠ some (i + 1)) :
    p.cues.SameOwn id (p.inputEnd i).cues := by
  have hfreed : p.cues.SameOwn id (p.inputFreed i).cues := by
    refine CueSched.sameOwn_foldl_free (fun hin => ?_) (p.setRepeat i none).cues
    obtain ⟨c, hc, hid⟩ := List.mem_map.mp hin
    obtain ⟨hc, hsel⟩ := List.mem_filter.mp hc
    exact h c hc hid (beq_iff_eq.mp ((Bool.and_eq_true _ _).mp hsel).2)
  refine hfreed.trans (Part.sameOwn_foldl_cancelFlight (fun c hc hid => ?_) _)
  obtain ⟨hc, hin⟩ := List.mem_filter.mp hc
  exact h c (Part.mem_inputFreed hc).1 hid (beq_iff_eq.mp hin)

end Sys2Proof.Machine
end

section
/-! The start of an input's actions in the Cue Scheduler (R156, R199): an emergency record of its own. -/

namespace Sys2Proof.Machine

/-- A record of the pool that is an emergency, and the only one of its id. -/
structure CueSched.Own (q : CueSched) (x : Cue) : Prop where
  mem : x ∈ q.pool
  only : ∀ c ∈ q.pool, c.id = x.id → c = x
  cls : x.cls = .emergency

theorem CueSched.Own.ownClass {q : CueSched} {x : Cue} (h : q.Own x) : q.OwnClass x.id .emergency := fun c hc => by
  obtain ⟨hmem, hid⟩ := CueSched.cue?_mem hc
  rw [h.only c hmem hid]
  exact h.cls

theorem CueSched.Own.sameOwn {q r : CueSched} {x : Cue} (h : q.Own x) (hs : q.SameOwn x.id r) : r.Own x := by
  refine ⟨hs.mem h.mem rfl, fun c hc hid => ?_, h.cls⟩
  have hmem : c ∈ r.pool.filter (·.id == x.id) := List.mem_filter.mpr ⟨hc, beq_iff_eq.mpr hid⟩
  rw [hs] at hmem
  exact h.only c (List.mem_filter.mp hmem).1 hid

/-! ## References of an emergency -/

theorem Part.insertCue_emergency (p : Part) (id : Nat) (zones : List Nat) : p.insertCue id .emergency zones =
    zones.foldl (fun p z => p.preemptZone z) (zones.foldl (fun p z => p.insertReference id .emergency z) p) := rfl

theorem Part.insertReference_frame (p : Part) (id : Nat) (cls : CueClass) (z : Nat) :
    (p.insertReference id cls z).cues.beyondExamined = p.cues.beyondExamined := by
  have hroom : (p.roomMade cls z).cues.beyondExamined = p.cues.beyondExamined := by
    unfold Part.roomMade
    split
    · rfl
    · split
      · rw [Part.dropReference_cues]
        dsimp only
        split <;> rfl
      · rfl
  rw [Part.insertReference_eq]
  split
  · exact hroom
  · exact hroom

theorem Part.insertCue_frame (p : Part) (id : Nat) (zones : List Nat) :
    (p.insertCue id .emergency zones).cues.beyondExamined = p.cues.beyondExamined := by
  have hpreempt (q : Part) (z : Nat) : (q.preemptZone z).cues.beyondExamined = q.cues.beyondExamined := by
    unfold Part.preemptZone
    split
    · split
      · split <;> rfl
      · rfl
    · rfl
  rw [Part.insertCue_emergency, foldl_keeps (fun r : Part => r.cues.beyondExamined) _ hpreempt,
    foldl_keeps (fun r : Part => r.cues.beyondExamined) _ fun q z => q.insertReference_frame id .emergency z]

/-- A record of the class of an emergency keeps its place while another one is given its references. -/
theorem Part.inserted_insertReference_of_class {p : Part} {id : Nat} (hcls : p.cues.OwnClass id .emergency) (new z : Nat) :
    p.cues.Inserted id (p.insertReference new .emergency z).cues := by
  have hroom : p.cues.Inserted id (p.roomMade .emergency z).cues := by
    unfold Part.roomMade
    split
    · exact .refl id _
    · split
      · next v hv => exact p.inserted_dropReference (CueSched.zoneVictim_ne hv hcls) z
      · exact .refl id _
  rw [Part.insertReference_eq]
  split
  · exact hroom.trans ⟨rfl, rfl, fun h => h⟩
  · exact hroom

theorem Part.inserted_insertCue_of_class {p : Part} {id : Nat} (hcls : p.cues.OwnClass id .emergency) (new : Nat) (zones : List Nat) :
    p.cues.Inserted id (p.insertCue new .emergency zones).cues := by
  have hrefs := Part.inserted_foldl (f := fun p z => p.insertReference new .emergency z)
    (fun p z h => p.inserted_insertReference_of_class h new z) zones hcls
  rw [Part.insertCue_emergency]
  exact hrefs.trans (Part.inserted_foldl (f := fun p z => p.preemptZone z) (fun p z h => p.inserted_preemptZone h z) zones
    (hrefs.ownClass hcls))

theorem Part.stays_insertCue (p : Part) (id : Nat) (zones : List Nat) : p.cues.Stays none (p.insertCue id .emergency zones).cues := by
  have hrefs : p.cues.Stays none (zones.foldl (fun p z => p.insertReference id .emergency z) p).cues := fun c hc => by
    obtain ⟨d, hd, hcd⟩ := (p.displaced_insertReferences id .emergency zones).kin c hc
    exact .inr ⟨d, hd, (congrArg Cue.id hcd :).symm, (congrArg Cue.input hcd :).symm, .inl (congrArg Cue.flight hcd :)⟩
  have hpreempt (q : Part) (z : Nat) : q.cues.Stays none (q.preemptZone z).cues := by
    unfold Part.preemptZone
    split
    · next c _ =>
      split
      · split
        · exact .refl _ _
        · exact q.stays_stopCue none c .preemption
      · exact .refl _ _
    · exact .refl _ _
  rw [Part.insertCue_emergency]
  generalize zones.foldl (fun p z => p.insertReference id .emergency z) p = q at hrefs
  exact foldl_invariant (fun r : Part => p.cues.Stays none r.cues) (fun r z => r.preemptZone z) (fun r z hr => hr.trans (hpreempt r z)) zones q hrefs

/-! ## Ports -/

theorem Port.latches_latch_port (p : Part) {sel : EventKind → Prop} {k : EventKind} (hk : sel k) (n : Nat) (l : Link) :
    (p.port l).Latches sel ((p.latchNat k n).port l) := by
  rw [Part.latchNat, Part.latch_port]
  exact Port.latches_latch _ hk _

theorem Part.insertReference_port (p : Part) (id : Nat) (cls : CueClass) (z : Nat) (l : Link) :
    (p.port l).Latches (· = .cueDropped) ((p.insertReference id cls z).port l) := by
  have hroom : (p.port l).Latches (· = .cueDropped) ((p.roomMade cls z).port l) := by
    unfold Part.roomMade
    split
    · exact .refl _ _
    · split
      · next v _ =>
        have hdrop := Port.latches_latch_port (p.modCues fun q =>
          let q := { q with queues := updateAt q.queues (z - 1) fun (l : List Nat) => l.filter (· != v) }
          let q := q.modCue v (·.setOutcome (· == z) .dropped)
          if q.queues.any (·.contains v) then q else q.free v) (sel := (· = .cueDropped)) rfl v l
        cases l <;> exact hdrop
      · exact .refl _ _
  rw [Part.insertReference_eq]
  split
  · cases l <;> exact hroom
  · exact hroom

theorem Part.insertCue_port (p : Part) (id : Nat) (cls : CueClass) (zones : List Nat) (l : Link) :
    (p.port l).Latches (· = .cueDropped) ((p.insertCue id cls zones).port l) := by
  have hrefs : (p.port l).Latches (· = .cueDropped) ((zones.foldl (fun p z => p.insertReference id cls z) p).port l) :=
    foldl_invariant (fun r : Part => (p.port l).Latches (· = .cueDropped) (r.port l)) (fun r z => r.insertReference id cls z)
      (fun r z hr => hr.trans (r.insertReference_port id cls z l)) zones p (.refl _ _)
  have hpreempt (q : Part) (z : Nat) : (q.preemptZone z).port l = q.port l := by
    unfold Part.preemptZone
    split
    · split
      · split
        · rfl
        · cases l <;> rfl
      · rfl
    · rfl
  unfold Part.insertCue
  dsimp only
  split
  · generalize zones.foldl (fun p z => p.insertReference id cls z) p = q at hrefs
    exact foldl_invariant (fun r : Part => (p.port l).Latches (· = .cueDropped) (r.port l)) (fun r z => r.preemptZone z)
      (fun r z hr => (hpreempt r z).symm ▸ hr) zones q hrefs
  · exact hrefs

/-! ## The record of an input -/

/-- What an input start asks for. -/
def InputConfig.newCue (cfg : InputConfig) (i : Nat) : NewCue :=
  { cls := .emergency, origin := .input, service := none, template := none, input := some (i + 1), zones := cfg.zones, tokens := cfg.tokens }

/-- The fields of the record that an input start makes. -/
def Cue.ofInput (x : Cue) (i : Nat) (tokens : List Nat) (now : Nat) : Prop :=
  x.input = some (i + 1) ∧ x.cls = .emergency ∧ x.origin = .input ∧ x.tokens = tokens ∧ x.created = now

theorem Part.placeOrDrop_input (p : Part) (cfg : InputConfig) (i : Nat) :
    p.placeOrDrop (cfg.newCue i) = p.latchNat .cueDropped 0 ∨
      ∃ zones, p.placeOrDrop (cfg.newCue i) = (p.withNewCue (cfg.newCue i) zones).insertCue p.cues.newId .emergency zones := by
  unfold Part.placeOrDrop
  by_cases hz : ((cfg.newCue i).zones.filter fun z => p.cues.hasRoom z (cfg.newCue i).cls) = []
  · rw [Part.place_queueFull rfl hz]
    exact .inl rfl
  · cases hfull : p.cues.quotaFull (cfg.newCue i).origin with
    | true =>
      rw [Part.place_poolFull rfl hz (Part.poolRoom_of_full _ hfull (nomatch ·))]
      exact .inl rfl
    | false =>
      rw [Part.place_created rfl hz (Part.poolRoom_of_room _ hfull)]
      exact .inr ⟨_, rfl⟩

/-- What the record of an input leaves of the part. -/
structure Part.InputPlaced (p q : Part) (i : Nat) : Prop where
  repeats : q.cues.repeats = p.cues.repeats
  reserved : q.cues.reserved = p.cues.reserved
  stays : p.cues.Stays (some (i + 1)) q.cues
  port : ∀ l, (p.port l).Latches (· = .cueDropped) (q.port l)
  own : p.cues.idTaken p.cues.newId = false → ∀ x, p.cues.Own x → q.cues.Own x

theorem Part.placed_withNewCue (p : Part) {n : NewCue} {i : Nat} (hn : n.input = some (i + 1)) (zones : List Nat) :
    p.InputPlaced (p.withNewCue n zones) i where
  repeats := rfl
  reserved := rfl
  stays c hc := by
    rcases List.mem_append.mp hc with hc | hc
    · exact .inr ⟨c, hc, rfl, rfl, .inl rfl⟩
    · rw [List.mem_singleton.mp hc]
      exact .inl ⟨Option.some_ne_none _, hn⟩
  port l := by cases l <;> exact .refl _ _
  own hfree x hx := by
    refine ⟨List.mem_append_left _ hx.mem, fun c hc hid => ?_, hx.cls⟩
    rcases List.mem_append.mp hc with hc | hc
    · exact hx.only c hc hid
    · rw [List.mem_singleton.mp hc] at hid
      have htaken : p.cues.pool.any (·.id == p.cues.newId) = true := List.any_eq_true.mpr ⟨x, hx.mem, beq_iff_eq.mpr hid.symm⟩
      rw [CueSched.idTaken, htaken, Bool.true_or] at hfree
      cases hfree

theorem Part.inputPlaced_placeOrDrop (p : Part) (cfg : InputConfig) (i : Nat) :
    p.InputPlaced (p.placeOrDrop (cfg.newCue i)) i ∧
      (p.cues.idTaken p.cues.newId = false → (∃ x, (p.placeOrDrop (cfg.newCue i)).cues.Own x ∧ x.ofInput i cfg.tokens p.elapsed) ∨
        ∀ l, ((p.placeOrDrop (cfg.newCue i)).port l).isLatched .cueDropped = true) := by
  rcases p.placeOrDrop_input cfg i with hdrop | ⟨zones, hplace⟩
  · rw [hdrop]
    refine ⟨⟨rfl, rfl, .refl _ _, fun l => Port.latches_latch_port p (sel := (· = .cueDropped)) rfl 0 l, fun _ _ hx => hx⟩, fun _ => .inr fun l => ?_⟩
    exact Part.latched_latchNat _ _ _ l
  · rw [hplace]
    have hnew := p.placed_withNewCue (n := cfg.newCue i) (i := i) rfl zones
    have hstays := (p.withNewCue (cfg.newCue i) zones).stays_insertCue p.cues.newId zones
    have hport := (p.withNewCue (cfg.newCue i) zones).insertCue_port p.cues.newId .emergency zones
    have hown {x : Cue} (hx : (p.withNewCue (cfg.newCue i) zones).cues.Own x) :
        ((p.withNewCue (cfg.newCue i) zones).insertCue p.cues.newId .emergency zones).cues.Own x :=
      hx.sameOwn (Part.inserted_insertCue_of_class hx.ownClass p.cues.newId zones).own
    generalize hq : (p.withNewCue (cfg.newCue i) zones).insertCue p.cues.newId .emergency zones = q at *
    have hframe : q.cues.beyondExamined = (p.withNewCue (cfg.newCue i) zones).cues.beyondExamined := hq ▸ Part.insertCue_frame _ _ _
    refine ⟨⟨(congrArg CueSched.repeats hframe :), (congrArg CueSched.reserved hframe :), hnew.stays.trans (hstays.weaken _), fun l => (hnew.port l).trans (hport l), fun hfree x hx => hown (hnew.own hfree x hx)⟩,
      fun hfree => .inl ⟨p.newCue (cfg.newCue i) zones, hown ?_, rfl, rfl, rfl, rfl, rfl⟩⟩
    refine ⟨List.mem_append_right _ List.mem_cons_self, fun c hc hid => ?_, rfl⟩
    rcases List.mem_append.mp hc with hc | hc
    · have htaken : p.cues.pool.any (·.id == p.cues.newId) = true := List.any_eq_true.mpr ⟨c, hc, beq_iff_eq.mpr hid⟩
      rw [CueSched.idTaken, htaken, Bool.true_or] at hfree
      cases hfree
    · exact List.mem_singleton.mp hc

/-! ## The input start -/

theorem Part.inputStart_silent {p : Part} {i : Nat} (h : (p.inputConfig i).tokens = []) : p.inputStart i = p :=
  if_pos (by rw [h]; rfl)

theorem Part.inputStart_sounds {p : Part} {i : Nat} (h : (p.inputConfig i).tokens ≠ []) : p.inputStart i =
    (p.placeOrDrop ((p.inputConfig i).newCue i)).startRepeat i := if_neg (by simpa using h)

/-- What an input start with tokens leaves. -/
theorem Part.inputStart_law {p : Part} {i : Nat} (h : (p.inputConfig i).tokens ≠ []) :
    (p.inputStart i).cues.repeats = updateAt p.cues.repeats i (fun _ =>
      if (p.inputConfig i).interval = 0 then none else some (p.elapsed + (p.inputConfig i).interval)) ∧
    (p.inputStart i).cues.reserved = p.cues.reserved ∧ p.cues.Stays (some (i + 1)) (p.inputStart i).cues ∧
    (∀ l, (p.port l).Latches (· = .cueDropped) ((p.inputStart i).port l)) ∧
    (p.cues.idTaken p.cues.newId = false → (∀ x, p.cues.Own x → (p.inputStart i).cues.Own x) ∧
      ((∃ x, (p.inputStart i).cues.Own x ∧ x.ofInput i (p.inputConfig i).tokens p.elapsed) ∨
        ∀ l, ((p.inputStart i).port l).isLatched .cueDropped = true)) := by
  obtain ⟨hplaced, hnew⟩ := p.inputPlaced_placeOrDrop (p.inputConfig i) i
  have hframe : (p.placeOrDrop ((p.inputConfig i).newCue i)).beyondCues = p.beyondCues := Part.placeOrDrop_beyondCues _ _
  have hstore := Part.store_of_cues hframe
  have helapsed := Part.elapsed_of_cues hframe
  rw [Part.inputStart_sounds h]
  generalize p.placeOrDrop ((p.inputConfig i).newCue i) = q at *
  have hcfg : q.inputConfig i = p.inputConfig i := by
    unfold Part.inputConfig
    rw [hstore]
  have hrepeat : (q.startRepeat i).cues = { q.cues with repeats := updateAt q.cues.repeats i fun _ =>
      if (p.inputConfig i).interval = 0 then none else some (p.elapsed + (p.inputConfig i).interval) } := by
    unfold Part.startRepeat
    rw [hcfg, helapsed]
    simp only [beq_iff_eq]
    rfl
  have hport (l : Link) : (q.startRepeat i).port l = q.port l := by cases l <;> rfl
  rw [hrepeat]
  refine ⟨congrArg (updateAt · i _) hplaced.repeats, hplaced.reserved, hplaced.stays, fun l => (hport l).symm ▸ hplaced.port l, fun hfree =>
    ⟨fun x hx => ?_, ?_⟩⟩
  · obtain ⟨hmem, honly, hcls⟩ := hplaced.own hfree x hx
    exact ⟨hmem, honly, hcls⟩
  · refine (hnew hfree).imp (fun ⟨x, ⟨hmem, honly, hcls⟩, hx⟩ => ⟨x, ⟨hmem, honly, hcls⟩, hx⟩) fun hall l => ?_
    rw [hport]
    exact hall l

end Sys2Proof.Machine
end

section
/-! One input's change of configuration: what it leaves (R198, R199). -/

namespace Sys2Proof.Machine

/-! ## The effect on the Cue Scheduler -/

/-- The repeat timer that an input's configuration starts (R199). -/
def InputConfig.repeatAt (cfg : InputConfig) (now : Nat) : Option Nat := if cfg.interval = 0 then none else some (now + cfg.interval)

/-- The repeat timers after the effect. -/
def Part.repeatsAfter (p : Part) (i : Nat) (ends begins : Bool) : List (Option Nat) :=
  if ends then updateAt p.cues.repeats i fun _ => none
  else if begins = true ∧ (p.inputConfig i).tokens ≠ [] then updateAt p.cues.repeats i fun _ => (p.inputConfig i).repeatAt p.elapsed
  else p.cues.repeats

/-- What the end or the beginning of an input's actions leaves. -/
structure Part.Effected (p r : Part) (i : Nat) (ends begins : Bool) : Prop where
  frame : r.beyondCues = p.beyondCues
  repeats : r.cues.repeats = p.repeatsAfter i ends begins
  reserved : r.cues.reserved = p.cues.reserved
  port : ∀ l, (p.port l).Latches (· = .cueDropped) (r.port l)
  stays : p.cues.Stays (some (i + 1)) r.cues
  own : p.cues.idTaken p.cues.newId = false → ∀ x, p.cues.Own x → x.input ≠ some (i + 1) → r.cues.Own x
  stopped : ends = true → (p.cues.pool.map (·.id)).Nodup → ∀ x ∈ r.cues.pool, x.input = some (i + 1) → x.isStopping
  begun : ends = false → begins = true → (p.inputConfig i).tokens ≠ [] → p.cues.idTaken p.cues.newId = false →
    (∃ x, r.cues.Own x ∧ x.ofInput i (p.inputConfig i).tokens p.elapsed) ∨ ∀ l, (r.port l).isLatched .cueDropped = true

theorem Part.effected_none (p : Part) (i : Nat) {begins : Bool} (h : begins = false ∨ (p.inputConfig i).tokens = []) :
    p.Effected p i false begins where
  frame := rfl
  repeats := by
    unfold Part.repeatsAfter
    rw [if_neg Bool.false_ne_true, if_neg fun hb => h.elim (fun h => Bool.false_ne_true (h ▸ hb.1)) hb.2]
  reserved := rfl
  port l := .refl _ _
  stays := .refl _ _
  own _ _ hx _ := hx
  stopped he := by cases he
  begun _ hb ht := h.elim (fun h => absurd (h ▸ hb) Bool.false_ne_true) fun h => absurd h ht

theorem Part.effected_ends (p : Part) (i : Nat) (begins : Bool) : p.Effected (p.inputEnd i) i true begins where
  frame := p.inputEnd_beyondCues i
  repeats := (congrArg CueSched.repeats (p.inputEnd_frame i).2 :)
  reserved := (congrArg CueSched.reserved (p.inputEnd_frame i).2 :)
  port l := by
    have hport : (p.inputEnd i).port l = p.port l := by
      rw [(p.inputEnd_frame i).1]
      cases l <;> rfl
    rw [hport]
    exact .refl _ _
  stays := p.stays_inputEnd _ i
  own _ x hx hin := hx.sameOwn (Part.sameOwn_inputEnd fun c hc hid => (hx.only c hc hid).symm ▸ hin)
  stopped _ hd := Part.inputEnd_stops hd i
  begun he := by cases he

theorem Part.effected_begins {p : Part} {i : Nat} (h : (p.inputConfig i).tokens ≠ []) : p.Effected (p.inputStart i) i false true := by
  obtain ⟨hrepeats, hreserved, hstays, hport, hown⟩ := Part.inputStart_law h
  refine ⟨p.inputStart_beyondCues i, ?_, hreserved, hport, hstays, fun hfree x hx _ => (hown hfree).1 x hx, (nomatch ·),
    fun _ _ _ hfree => (hown hfree).2⟩
  have hafter : p.repeatsAfter i false true = updateAt p.cues.repeats i fun _ => (p.inputConfig i).repeatAt p.elapsed :=
    (if_neg Bool.false_ne_true).trans (if_pos ⟨rfl, h⟩)
  rw [hafter, hrepeats]
  rfl

theorem Part.effected_inputEffect (p : Part) (i : Nat) (ends begins : Bool) : p.Effected (p.inputEffect i ends begins) i ends begins := by
  unfold Part.inputEffect
  cases ends with
  | true => exact p.effected_ends i begins
  | false =>
    cases begins with
    | false => exact p.effected_none i (.inl rfl)
    | true =>
      rw [if_neg Bool.false_ne_true, if_pos rfl]
      by_cases h : (p.inputConfig i).tokens = []
      · rw [Part.inputStart_silent h]
        exact p.effected_none i (.inr h)
      · exact Part.effected_begins h

/-! ## What comes before it -/

theorem Part.inputTold_eq (p : Part) (i : Nat) (off tells : Bool) : p.inputTold i off tells = { p with
    info := (p.inputTold i off tells).info, ctl := (p.inputTold i off tells).ctl
    ev := { p.ev with wallTold := p.ev.wallTold || tells } } := by
  unfold Part.inputTold
  cases off <;> cases tells <;> simp [Part.tellWall, Part.latchNat, Part.latch]

theorem Part.inputTold_port (p : Part) (i : Nat) (off tells : Bool) (l : Link) :
    (p.port l).Latches (· = .inputChanged) ((p.inputTold i off tells).port l) ∧
      (((p.inputTold i off tells).port l).isLatched .inputChanged = true ↔ (p.port l).isLatched .inputChanged = true ∨ off = true) := by
  have htell (q : Part) (c : Bool) : (if c then q.tellWall else q).port l = q.port l := by
    cases c <;> cases l <;> rfl
  unfold Part.inputTold
  dsimp only
  rw [htell]
  cases off with
  | false => exact ⟨.refl _ _, by simp⟩
  | true =>
    refine ⟨Port.latches_latch_port p (sel := (· = .inputChanged)) rfl (i + 1) l, ?_⟩
    have hlatched := Part.latched_latchNat p .inputChanged (i + 1) l
    exact ⟨fun _ => .inr rfl, fun _ => hlatched⟩

/-! ## One input -/

/-- What a change of the configuration of the input `i` from `old` leaves. -/
structure Part.InputMoved (p r : Part) (i : Nat) (old : InputConfig) : Prop where
  frame : r = { p with
    inputs := updateAt p.inputs i fun w => w.configMove old (p.inputConfig i) p.elapsed
    cues := r.cues, info := r.info, ctl := r.ctl
    ev := { p.ev with wallTold := p.ev.wallTold || (p.input i).tellsUnder old (p.inputConfig i) } }
  repeats : r.cues.repeats = p.repeatsAfter i ((p.input i).endsUnder old (p.inputConfig i)) ((p.input i).beginsUnder old (p.inputConfig i))
  reserved : r.cues.reserved = p.cues.reserved
  port : ∀ l, (p.port l).Latches (fun k => k = .inputChanged ∨ k = .cueDropped) (r.port l)
  changed : ∀ l, (r.port l).isLatched .inputChanged = true ↔
    (p.port l).isLatched .inputChanged = true ∨ (p.input i).offUnder old (p.inputConfig i) = true
  stays : p.cues.Stays (some (i + 1)) r.cues
  own : p.cues.idTaken p.cues.newId = false → ∀ x, p.cues.Own x → x.input ≠ some (i + 1) → r.cues.Own x
  stopped : (p.input i).endsUnder old (p.inputConfig i) = true → (p.cues.pool.map (·.id)).Nodup →
    ∀ x ∈ r.cues.pool, x.input = some (i + 1) → x.isStopping
  begun : (p.input i).endsUnder old (p.inputConfig i) = false → (p.input i).beginsUnder old (p.inputConfig i) = true →
    (p.inputConfig i).tokens ≠ [] → p.cues.idTaken p.cues.newId = false →
    (∃ x, r.cues.Own x ∧ x.ofInput i (p.inputConfig i).tokens p.elapsed) ∨ ∀ l, (r.port l).isLatched .cueDropped = true

theorem Part.inputMoved_inputConfigured (p : Part) (old : InputConfig) (i : Nat) : p.InputMoved (p.inputConfigured old i) i old := by
  let q := p.modInput i fun w => w.configMove old (p.inputConfig i) p.elapsed
  let off := (p.input i).offUnder old (p.inputConfig i)
  let tells := (p.input i).tellsUnder old (p.inputConfig i)
  have hdef : p.inputConfigured old i = (q.inputTold i off tells).inputEffect i ((p.input i).endsUnder old (p.inputConfig i))
      ((p.input i).beginsUnder old (p.inputConfig i)) := Part.configConsequences_eq q i
  have htold := q.inputTold_eq i off tells
  have hport (l : Link) := q.inputTold_port i off tells l
  rw [hdef]
  generalize q.inputTold i off tells = t at htold hport
  have heffect := t.effected_inputEffect i ((p.input i).endsUnder old (p.inputConfig i)) ((p.input i).beginsUnder old (p.inputConfig i))
  generalize t.inputEffect i ((p.input i).endsUnder old (p.inputConfig i)) ((p.input i).beginsUnder old (p.inputConfig i)) = r at heffect
  have hcues : t.cues = p.cues := (congrArg Part.cues htold :)
  have hcfg : t.inputConfig i = p.inputConfig i := (congrArg (fun x : Part => inputConfigIn x.store.working i) htold :)
  have helapsed : t.elapsed = p.elapsed := (congrArg Part.elapsed htold :)
  have hqport (l : Link) : q.port l = p.port l := by cases l <;> rfl
  obtain ⟨hframe, hrepeats, hreserved, hports, hstays, hown, hstopped, hbegun⟩ := heffect
  rw [hcues] at hreserved hstays hown hstopped
  rw [hcues, hcfg, helapsed] at hbegun
  have hlatched (l : Link) : (r.port l).isLatched .inputChanged = (t.port l).isLatched .inputChanged :=
    ((hports l).other .inputChanged (nomatch ·)).1
  refine ⟨?_, ?_, hreserved, fun l => ?_, fun l => ?_, hstays, hown, hstopped, hbegun⟩
  · have heq := (congrArg (fun x : Part => ({ x with cues := r.cues, info := r.info, ctl := r.ctl } : Part)) hframe :)
    exact heq.trans (congrArg (fun x : Part => ({ x with cues := r.cues, info := r.info, ctl := r.ctl } : Part)) htold :)
  · rw [hrepeats]
    unfold Part.repeatsAfter
    rw [hcues, hcfg, helapsed]
  · exact (hqport l ▸ (hport l).1.mono fun _ => Or.inl).trans ((hports l).mono fun _ => Or.inr)
  · rw [hlatched, (hport l).2, hqport]

end Sys2Proof.Machine
end

section
/-! The configuration of all four inputs changed (R198, R199), taken in ascending order. -/

namespace Sys2Proof.Machine

section
variable (p : Part) (rows : List (List Byte)) (i : Nat)

/-- The actions of the input `i` end with the change from `rows`. -/
def Part.inputEnds : Bool := (p.input i).endsUnder (inputConfigIn rows i) (p.inputConfig i)

/-- The actions of the input `i` begin with the change from `rows`. -/
def Part.inputBegins : Bool := (p.input i).beginsUnder (inputConfigIn rows i) (p.inputConfig i)

/-- The Wall Composer is told of the change of the input `i` from `rows`. -/
def Part.inputTells : Bool := (p.input i).tellsUnder (inputConfigIn rows i) (p.inputConfig i)

/-- The input `i` is switched off while it is on. -/
def Part.inputOff : Bool := (p.input i).offUnder (inputConfigIn rows i) (p.inputConfig i)

/-- The repeat timer of the input `i` after the change. -/
def Part.repeatAfter : Option (Option Nat) :=
  if p.inputEnds rows i then some none
  else if p.inputBegins rows i = true ∧ (p.inputConfig i).tokens ≠ [] then some ((p.inputConfig i).repeatAt p.elapsed)
  else p.cues.repeats[i]?

/-- The first `k` inputs configured. -/
def Part.configuredTo (k : Nat) : Part := (List.range k).foldl (fun p i => p.inputConfigured (inputConfigIn rows i) i) p

end

/-- What the change of the configuration of the first `k` inputs leaves. -/
structure Part.Configured (p q : Part) (rows : List (List Byte)) (k : Nat) : Prop where
  frame : q = { p with inputs := q.inputs, cues := q.cues, info := q.info, ctl := q.ctl, ev := q.ev }
  length : q.inputs.length = p.inputs.length
  input : ∀ i, q.input i = if i < k then (p.input i).configMove (inputConfigIn rows i) (p.inputConfig i) p.elapsed else p.input i
  told : q.ev.wallTold = true ↔ p.ev.wallTold = true ∨ ∃ i, i < k ∧ p.inputTells rows i = true
  repeats : ∀ i, i < 4 → q.cues.repeats[i]? = if i < k then p.repeatAfter rows i else p.cues.repeats[i]?
  timers : q.cues.repeats.length = p.cues.repeats.length
  reserved : q.cues.reserved = p.cues.reserved
  port : ∀ l, (p.port l).Latches (fun k => k = .inputChanged ∨ k = .cueDropped) (q.port l)
  changed : ∀ l, (q.port l).isLatched .inputChanged = true ↔
    (p.port l).isLatched .inputChanged = true ∨ ∃ i, i < k ∧ p.inputOff rows i = true
  keeps : p.Keeps q
  stopped : p.cues.ok → p.cues.reserved.length ≤ 1000 → (p.cues.pool.map (·.id)).Nodup → ∀ i, i < k → p.inputEnds rows i = true →
    ∀ x ∈ q.cues.pool, x.input = some (i + 1) → x.isStopping
  begun : p.cues.ok → p.cues.reserved.length ≤ 1000 → ∀ i, i < k → p.inputEnds rows i = false → p.inputBegins rows i = true →
    (p.inputConfig i).tokens ≠ [] →
    (∃ x, q.cues.Own x ∧ x.ofInput i (p.inputConfig i).tokens p.elapsed) ∨ ∀ l, (q.port l).isLatched .cueDropped = true

theorem Part.configured_zero (p : Part) (rows : List (List Byte)) : p.Configured p rows 0 where
  frame := rfl
  length := rfl
  input _ := rfl
  told := by simp
  repeats _ _ := rfl
  timers := rfl
  reserved := rfl
  port l := .refl _ _
  changed l := by simp
  keeps := .refl p
  stopped _ _ _ i hi := absurd hi (Nat.not_lt_zero i)
  begun _ _ i hi := absurd hi (Nat.not_lt_zero i)

theorem Part.repeatsAfter_other (p : Part) {i j : Nat} (hij : i ≠ j) (ends begins : Bool) :
    (p.repeatsAfter i ends begins)[j]? = p.cues.repeats[j]? := by
  have hset (t : Option Nat) : (updateAt p.cues.repeats i fun _ => t)[j]? = p.cues.repeats[j]? := by
    rw [updateAt_getElem?, if_neg hij]
  unfold Part.repeatsAfter
  split
  · exact hset none
  · split
    · exact hset _
    · rfl

theorem Part.repeatsAfter_length (p : Part) (i : Nat) (ends begins : Bool) :
    (p.repeatsAfter i ends begins).length = p.cues.repeats.length := by
  unfold Part.repeatsAfter
  split
  · exact updateAt_length _ _ _
  · split
    · exact updateAt_length _ _ _
    · rfl

theorem exists_lt_succ {k : Nat} {P : Nat → Prop} : (∃ i, i < k + 1 ∧ P i) ↔ (∃ i, i < k ∧ P i) ∨ P k := by
  constructor
  · rintro ⟨i, hi, h⟩
    rcases Nat.lt_succ_iff_lt_or_eq.mp hi with hi | rfl
    · exact .inl ⟨i, hi, h⟩
    · exact .inr h
  · rintro (⟨i, hi, h⟩ | h)
    · exact ⟨i, Nat.lt_succ_of_lt hi, h⟩
    · exact ⟨k, Nat.lt_succ_self k, h⟩

section
variable {p q : Part} {rows : List (List Byte)} {k : Nat} (h : p.Configured q rows k)
include h

theorem Part.Configured.inputConfig (i : Nat) : q.inputConfig i = p.inputConfig i :=
  (congrArg (fun x : Part => inputConfigIn x.store.working i) h.frame :)

theorem Part.Configured.elapsed : q.elapsed = p.elapsed := (congrArg Part.elapsed h.frame :)

theorem Part.Configured.inputSame : q.input k = p.input k := (h.input k).trans (if_neg (Nat.lt_irrefl k))

theorem Part.Configured.ends : (q.input k).endsUnder (inputConfigIn rows k) (q.inputConfig k) = p.inputEnds rows k := by
  rw [h.inputSame, h.inputConfig]
  rfl

theorem Part.Configured.begins : (q.input k).beginsUnder (inputConfigIn rows k) (q.inputConfig k) = p.inputBegins rows k := by
  rw [h.inputSame, h.inputConfig]
  rfl

theorem Part.Configured.repeatsAfter_same (hi : k < 4) (hrep : p.cues.repeats.length = 4) :
    (q.repeatsAfter k (p.inputEnds rows k) (p.inputBegins rows k))[k]? = p.repeatAfter rows k := by
  have hlt : k < q.cues.repeats.length := by rw [h.timers, hrep]; exact hi
  have hset (t : Option Nat) : (updateAt q.cues.repeats k fun _ => t)[k]? = some t := by
    rw [updateAt_getElem?, if_pos rfl, List.getElem?_eq_getElem hlt]
    rfl
  unfold Part.repeatsAfter Part.repeatAfter
  rw [h.inputConfig, h.elapsed]
  split
  · exact hset none
  · split
    · exact hset _
    · exact (h.repeats k hi).trans (if_neg (Nat.lt_irrefl k))

theorem Part.Configured.step (hk : k < 4) (hlen : p.inputs.length = 4) (hrep : p.cues.repeats.length = 4) :
    p.Configured (q.inputConfigured (inputConfigIn rows k) k) rows (k + 1) := by
  have hmoved := q.inputMoved_inputConfigured (inputConfigIn rows k) k
  have hkeeps : q.Keeps (q.inputConfigured (inputConfigIn rows k) k) := (q.keeps_modInput k _).trans (Part.keeps_configConsequences _ k _ _ _)
  generalize q.inputConfigured (inputConfigIn rows k) k = r at hmoved hkeeps
  have hends := h.ends
  have hbegins := h.begins
  have htells : (q.input k).tellsUnder (inputConfigIn rows k) (q.inputConfig k) = p.inputTells rows k := by
    rw [h.inputSame, h.inputConfig]
    rfl
  have hoff : (q.input k).offUnder (inputConfigIn rows k) (q.inputConfig k) = p.inputOff rows k := by
    rw [h.inputSame, h.inputConfig]
    rfl
  obtain ⟨hframe, hrepeats, hreserved, hport, hchanged, hstays, hown, hstopped, hbegun⟩ := hmoved
  rw [hends, hbegins] at hrepeats
  rw [hends, hbegins, h.inputConfig, h.elapsed] at hbegun
  rw [hends] at hstopped
  rw [hoff] at hchanged
  rw [htells] at hframe
  have hinputs : r.inputs = updateAt q.inputs k fun w => w.configMove (inputConfigIn rows k) (q.inputConfig k) q.elapsed :=
    (congrArg Part.inputs hframe :)
  refine ⟨?frame, ?length, fun i => ?input, ?told, fun i hi => ?repeats, ?timers, hreserved.trans h.reserved,
    fun l => (h.port l).trans (hport l), fun l => ?changed, h.keeps.trans hkeeps, fun hok hres hd i hi he x hx hin => ?stopped,
    fun hok hres i hi he hb ht => ?begun⟩
  case frame =>
    have hq := (congrArg (fun x : Part => ({ x with inputs := r.inputs, cues := r.cues, info := r.info, ctl := r.ctl, ev := r.ev } : Part)) hframe :)
    exact hq.trans (congrArg (fun x : Part => ({ x with inputs := r.inputs, cues := r.cues, info := r.info, ctl := r.ctl, ev := r.ev } : Part)) h.frame :)
  case length => rw [hinputs, updateAt_length, h.length]
  case input =>
    unfold Part.input
    rw [hinputs]
    by_cases hik : i = k
    · subst hik
      rw [updateAt_getD_same _ _ _ _ (by rw [h.length, hlen]; exact hk), if_pos (Nat.lt_succ_self i), h.inputConfig, h.elapsed]
      exact congrArg (fun w : WallInput => w.configMove (inputConfigIn rows i) (p.inputConfig i) p.elapsed) h.inputSame
    · have hlt : i < k + 1 ↔ i < k := by omega
      rw [updateAt_getD_other _ _ _ _ _ (Ne.symm hik)]
      simp only [hlt]
      exact h.input i
  case told =>
    have htold : r.ev.wallTold = (q.ev.wallTold || p.inputTells rows k) := (congrArg (fun x : Part => x.ev.wallTold) hframe :)
    rw [htold, Bool.or_eq_true, h.told, exists_lt_succ, or_assoc]
  case repeats =>
    rw [hrepeats]
    by_cases hik : i = k
    · subst hik
      rw [if_pos (Nat.lt_succ_self i)]
      exact h.repeatsAfter_same hi hrep
    · have hlt : i < k + 1 ↔ i < k := by omega
      rw [Part.repeatsAfter_other q (Ne.symm hik)]
      simp only [hlt]
      exact h.repeats i hi
  case timers => rw [hrepeats, Part.repeatsAfter_length, h.timers]
  case changed => rw [hchanged, h.changed, exists_lt_succ, or_assoc]
  case stopped =>
    rcases Nat.lt_succ_iff_lt_or_eq.mp hi with hi | rfl
    · have hne : some (i + 1) ≠ some (k + 1) := fun heq => by
        have := Option.some.inj heq
        omega
      exact hstays.stopping hne (h.stopped hok hres hd i hi he) x hx hin
    · exact hstopped he (h.keeps.cues.ids 1000 (by decide) hok hres hd).2 x hx hin
  case begun =>
    have hfree : q.cues.idTaken q.cues.newId = false :=
      CueSched.newId_free (n := 1000) (by decide) (h.keeps.cues.ok hok) (h.reserved ▸ hres) _
    rcases Nat.lt_succ_iff_lt_or_eq.mp hi with hi | rfl
    · refine (h.begun hok hres i hi he hb ht).imp (fun ⟨x, hx, hfields⟩ => ⟨x, hown hfree x hx fun hin => ?_, hfields⟩) fun hall l =>
        (hport l).kept _ (hall l)
      have := Option.some.inj (hfields.1.symm.trans hin)
      omega
    · exact hbegun he hb ht hfree

end

theorem Part.configured_to (p : Part) (rows : List (List Byte)) (hlen : p.inputs.length = 4) (hrep : p.cues.repeats.length = 4) {k : Nat}
    (hk : k ≤ 4) : p.Configured (p.configuredTo rows k) rows k := by
  induction k with
  | zero => exact p.configured_zero rows
  | succ k ih =>
    have hstep := (ih (Nat.le_of_succ_le hk)).step hk hlen hrep
    unfold Part.configuredTo
    rw [List.range_succ, List.foldl_append]
    exact hstep

theorem Part.configured_inputsConfigured (p : Part) (rows : List (List Byte)) (hlen : p.inputs.length = 4)
    (hrep : p.cues.repeats.length = 4) : p.Configured (p.inputsConfigured rows) rows 4 :=
  p.configured_to rows hlen hrep (Nat.le_refl 4)

end Sys2Proof.Machine
end

section
/-! What the recomputation of the records leaves: the repeat timers of the Wall Inputs, INPUT_CHANGED and the image (R56). -/

namespace Sys2Proof.Machine

/-- The repeat timers, INPUT_CHANGED and the image are left. -/
structure Part.Apart (p q : Part) : Prop where
  repeats : q.cues.repeats = p.cues.repeats
  changed : ∀ l, (q.port l).isLatched .inputChanged = (p.port l).isLatched .inputChanged
  image : q.image = p.image

theorem Part.Apart.refl (p : Part) : p.Apart p := ⟨rfl, fun _ => rfl, rfl⟩

theorem Part.Apart.trans {p q r : Part} (h : p.Apart q) (h' : q.Apart r) : p.Apart r :=
  ⟨h'.repeats.trans h.repeats, fun l => (h'.changed l).trans (h.changed l), h'.image.trans h.image⟩

theorem Part.apart_ite {p q r : Part} (c : Prop) [Decidable c] (ht : p.Apart q) (hf : p.Apart r) : p.Apart (if c then q else r) := by
  split
  · exact ht
  · exact hf

theorem Part.apart_of_bare {p q : Part} (hc : q.cues.repeats = p.cues.repeats) (hi : q.info = p.info) (hl : q.ctl = p.ctl)
    (hg : q.image = p.image := by rfl) : p.Apart q :=
  ⟨hc, fun l => by
    cases l
    · exact congrArg (Port.isLatched · .inputChanged) hi
    · exact congrArg (Port.isLatched · .inputChanged) hl, hg⟩

theorem Part.apart_notices {p q : Part} (h : q.beyondNotices = p.beyondNotices) : p.Apart q :=
  Part.apart_of_bare (congrArg (fun x : Part => x.cues.repeats) h :) (congrArg Part.info h :) (congrArg Part.ctl h :) (congrArg Part.image h :)

theorem Part.apart_foldl {α : Type} {f : Part → α → Part} (h : ∀ p a, Part.Apart p (f p a)) (l : List α) (p : Part) : p.Apart (l.foldl f p) :=
  foldl_invariant (fun r : Part => p.Apart r) f (fun r a hr => hr.trans (h r a)) l p (.refl p)

theorem Part.apart_latchNat (p : Part) {k : EventKind} (hk : k ≠ .inputChanged) (n : Nat) : p.Apart (p.latchNat k n) :=
  ⟨rfl, fun l => ((Port.latches_latch_port p (sel := (· = k)) rfl n l).other .inputChanged fun h => hk h.symm).1, p.latchNat_image k n⟩

theorem Part.apart_modCues (p : Part) {f : CueSched → CueSched} (h : (f p.cues).repeats = p.cues.repeats) : p.Apart (p.modCues f) :=
  Part.apart_of_bare h rfl rfl

theorem Part.apart_removeQueued (p : Part) (sel : Cue → Bool) : p.Apart (p.removeQueued sel) :=
  p.apart_modCues (congrArg CueSched.repeats (CueSched.foldl_free_frame _ p.cues) :)

theorem Part.apart_dropReference (p : Part) (v z : Nat) : p.Apart (p.dropReference v z) := by
  have hmod : p.Apart (p.modCues fun q =>
      let q := { q with queues := updateAt q.queues (z - 1) fun (l : List Nat) => l.filter (· != v) }
      let q := q.modCue v (·.setOutcome (· == z) .dropped)
      if q.queues.any (·.contains v) then q else q.free v) := by
    refine p.apart_modCues ?_
    dsimp only
    split <;> rfl
  exact hmod.trans (Part.apart_latchNat _ (k := .cueDropped) (nomatch ·) v)

theorem Part.apart_insertReference (p : Part) (id : Nat) (cls : CueClass) (z : Nat) : p.Apart (p.insertReference id cls z) := by
  have hroom : p.Apart (p.roomMade cls z) := by
    unfold Part.roomMade
    split
    · exact .refl p
    · split
      · exact p.apart_dropReference _ z
      · exact .refl p
  rw [Part.insertReference_eq]
  exact Part.apart_ite _ (hroom.trans (Part.apart_modCues _ rfl)) hroom

theorem Part.apart_insertCue (p : Part) (id : Nat) (cls : CueClass) (zones : List Nat) : p.Apart (p.insertCue id cls zones) := by
  have hpreempt (q : Part) (z : Nat) : q.Apart (q.preemptZone z) := by
    unfold Part.preemptZone
    split
    · split
      · exact Part.apart_ite _ (.refl q) (Part.apart_modCues q rfl)
      · exact .refl q
    · exact .refl q
  have hrefs := Part.apart_foldl (f := fun p z => p.insertReference id cls z) (fun q z => q.apart_insertReference id cls z) zones p
  unfold Part.insertCue
  dsimp only
  exact Part.apart_ite _ (hrefs.trans (Part.apart_foldl hpreempt zones _)) hrefs

theorem Part.apart_dropCue (p : Part) (id : Nat) : p.Apart (p.dropCue id) :=
  (p.apart_modCues (f := (·.free id)) rfl).trans (Part.apart_latchNat _ (k := .cueDropped) (nomatch ·) id)

theorem Part.apart_place (p : Part) (n : NewCue) : p.Apart (p.place n).1 := by
  have hroom {q : Part} (h : p.poolRoom n.origin n.cls = some q) : p.Apart q := by
    unfold Part.poolRoom at h
    split at h
    · exact Option.some.inj h ▸ .refl p
    · split at h
      · obtain ⟨v, _, rfl⟩ := Option.map_eq_some_iff.mp h
        exact p.apart_dropCue v.id
      · cases h
  unfold Part.place
  dsimp only
  split
  · exact .refl p
  · cases hq : p.poolRoom n.origin n.cls with
    | none => exact .refl p
    | some q =>
      dsimp only
      have hcreated (zones : List Nat) : q.Apart (q.createCue n zones).1 := Part.apart_of_bare rfl rfl rfl
      exact ((hroom hq).trans (hcreated _)).trans (Part.apart_insertCue _ _ _ _)

theorem Part.apart_placeOrDrop (p : Part) (n : NewCue) : p.Apart (p.placeOrDrop n) := by
  have hplace := p.apart_place n
  unfold Part.placeOrDrop
  split
  · next q _ _ heq =>
    rw [heq] at hplace
    exact hplace
  · next q heq =>
    rw [heq] at hplace
    exact hplace.trans (Part.apart_latchNat _ (k := .cueDropped) (nomatch ·) 0)
  · next q heq =>
    rw [heq] at hplace
    exact hplace.trans (Part.apart_latchNat _ (k := .cueDropped) (nomatch ·) 0)

theorem Part.apart_askCue (p : Part) (t : Template) (id pl : Nat) (zs : List Nat) : p.Apart (p.askCue t id pl zs) := by
  unfold Part.askCue
  split
  · exact .refl p
  · dsimp only
    split
    · exact .refl p
    · refine Part.Apart.trans ?_ (Part.apart_placeOrDrop _ _)
      cases t with
      | change => exact p.apart_removeQueued _
      | delay => exact p.apart_removeQueued _
      | cancel => exact .refl p
      | boarding => exact .refl p

theorem Part.apart_askRecordCue (p : Part) (t : Template) (id : Nat) : p.Apart (p.askRecordCue t id) := by
  unfold Part.askRecordCue
  split
  · exact .refl p
  · exact p.apart_askCue _ _ _ _

/-! ## The triggers and the retirement -/

theorem Part.apart_askNotice (p : Part) (k : NoticeKind) (s : Option Nat) : p.Apart (p.askNotice k s) :=
  Part.apart_notices (p.askNotice_beyondNotices k s)

theorem Part.apart_withdrawNotice (p : Part) (k : NoticeKind) (s : Option Nat) : p.Apart (p.withdrawNotice k s) :=
  Part.apart_notices (p.withdrawNotice_beyondNotices k s)

theorem Part.apart_modRecord (p : Part) (id : Nat) (f : Record → Record) : p.Apart (p.modRecord id f) := Part.apart_of_bare rfl rfl rfl

theorem Part.apart_askBoth (p : Part) (k : NoticeKind) (t : Template) (r : Record) : p.Apart (p.askBoth k t r) :=
  Part.apart_ite _ ((p.apart_askNotice _ _).trans (Part.apart_askRecordCue _ _ _)) (p.apart_askNotice _ _)

theorem Part.apart_triggerWithdrawals (p : Part) (before : Running) (r : Record) : p.Apart (p.triggerWithdrawals before r) := by
  have hdelay (q : Part) (e : Bool) : q.Apart (q.withdrawDelay r e) :=
    Part.apart_ite _ ((q.apart_modRecord _ _).trans (Part.apart_withdrawNotice _ _ _)) (.refl q)
  have hended (q : Part) (e : Bool) : q.Apart (q.withdrawEnded r e) :=
    Part.apart_ite _ ((q.apart_withdrawNotice _ _).trans (Part.apart_removeQueued _ _)) (.refl q)
  have hreinstated (q : Part) : q.Apart (q.withdrawReinstated before r) := Part.apart_ite _ (q.apart_withdrawNotice _ _) (.refl q)
  have hunknown (q : Part) : q.Apart (q.withdrawUnknown before r) := Part.apart_ite _ (q.apart_withdrawNotice _ _) (.refl q)
  rw [Part.triggerWithdrawals_eq]
  exact (((hdelay p _).trans (hended _ _)).trans (hreinstated _)).trans (hunknown _)

theorem Part.apart_triggerRequests (p : Part) (before : Running) (r : Record) : p.Apart (p.triggerRequests before r) := by
  have hcancel (q : Part) : q.Apart (q.requestCancel before r) := Part.apart_ite _ (q.apart_askBoth _ _ _) (.refl q)
  have hunknown (q : Part) : q.Apart (q.requestUnknown before r) := Part.apart_ite _ (q.apart_askNotice _ _) (.refl q)
  have hdelay (q : Part) (f : Bool) : q.Apart (q.requestDelay r f) :=
    Part.apart_ite _ ((q.apart_askBoth _ _ _).trans (Part.apart_modRecord _ _ _)) (.refl q)
  have hboarding (q : Part) : q.Apart (q.requestBoarding before r) := Part.apart_ite _ (q.apart_askRecordCue _ _) (.refl q)
  have hlatch (q : Part) (f : Bool) : q.Apart (q.latchDelay r f) :=
    Part.apart_ite _ (q.apart_latchNat (k := .delayNotice) (nomatch ·) _) (.refl q)
  rw [Part.triggerRequests_eq]
  exact ((hcancel p).trans (hunknown _)).trans (((hdelay _ _).trans (hboarding _)).trans (hlatch _ _))

theorem Part.apart_triggers (p : Part) (before : Running) (id : Nat) : p.Apart (p.triggers before id) := by
  unfold Part.triggers
  split
  · exact .refl p
  · next r _ =>
    have h := p.apart_triggerWithdrawals before r
    generalize p.triggerWithdrawals before r = q at h ⊢
    dsimp only
    split
    · exact h
    · exact h.trans (Part.apart_triggerRequests _ _ _)

theorem Part.apart_retire (p : Part) (id : Nat) : p.Apart (p.retire id) := by
  have hfiltered : p.Apart (p.mapRecords (·.filter (·.id != id))) := Part.apart_of_bare rfl rfl rfl
  have hwithdrawn (q : Part) : q.Apart (q.withdrawAll id) :=
    (((q.apart_withdrawNotice _ _).trans (Part.apart_withdrawNotice _ _ _)).trans (Part.apart_withdrawNotice _ _ _)).trans
      (Part.apart_withdrawNotice _ _ _)
  have htold (q : Part) : q.Apart q.tellWall := Part.apart_of_bare rfl rfl rfl
  exact (((hfiltered.trans (hwithdrawn _)).trans (Part.apart_removeQueued _ _)).trans (htold _)).trans
    (Part.apart_latchNat _ (k := .serviceRetired) (nomatch ·) id)

theorem Part.apart_recomputeAll (p : Part) : p.Apart p.recomputeAll := by
  have hfold := Part.apart_foldl (f := Part.recomputeOne) (fun q r => (q.apart_modRecord _ _).trans (Part.apart_triggers _ _ _)) p.table.records p
  have hsorted (q : Part) : q.Apart ((q.mapRecords sortRecords).tellWall) := Part.apart_of_bare rfl rfl rfl
  have hcheck (q : Part) (sel : Record → Bool) : q.Apart (q.retireCheck sel) := Part.apart_foldl Part.apart_retire _ q
  exact (hfold.trans (hsorted _)).trans (hcheck _ _)

/-- The recomputation tells the Wall Composer. -/
theorem Part.recomputeAll_told (p : Part) : p.recomputeAll.ev.wallTold = true := by
  have hretire (q : Part) (id : Nat) : (q.retire id).ev.wallTold = true := rfl
  exact foldl_invariant (fun r : Part => r.ev.wallTold = true) Part.retire (fun r id _ => hretire r id) _ _ rfl

end Sys2Proof.Machine
end

section
/-! The Wall Composer does not read whether a mark has been announced: the end of an event composes what it shows (R114). -/

namespace Sys2Proof.Machine

/-- The part without what no line of the wall shows. -/
def Part.shown (p : Part) : Part :=
  { p with table := { p.table with records := p.table.records.map Record.beyondAnnounced } }

theorem Part.shown_record? (p : Part) (id : Nat) : p.shown.record? id = (p.record? id).map Record.beyondAnnounced :=
  find_beyondAnnounced p.table.records id

theorem Part.shown_noticeText (p : Part) (n : Notice) : p.shown.noticeText n = p.noticeText n := by
  have hrecord (s : Option Nat) : s.bind p.shown.record? = (s.bind p.record?).map Record.beyondAnnounced := by
    cases s with
    | none => rfl
    | some id => exact p.shown_record? id
  unfold Part.noticeText
  rw [hrecord]
  cases n.service.bind p.record? with
  | none => rfl
  | some r => rfl

theorem Part.shown_rotationText (p : Part) : p.shown.rotationText = p.rotationText := by
  unfold Part.rotationText
  have hnotices : p.shown.notices = p.notices := rfl
  rw [hnotices]
  split
  · rfl
  · split
    · rfl
    · rw [Part.shown_noticeText]

theorem Part.shown_bannerText (p : Part) : p.shown.bannerText = p.bannerText := by
  have hrotation := p.shown_rotationText
  unfold Part.bannerText
  have hsource : p.shown.bannerSource = p.bannerSource := rfl
  rw [hsource, hrotation]
  rfl

theorem Part.shown_departureRow (p : Part) (role : Role) (r : Record) : p.shown.departureRow role r.beyondAnnounced = p.departureRow role r := by
  have hmark : r.beyondAnnounced.mark.isSome = r.mark.isSome := Option.isSome_map
  unfold Part.departureRow
  rw [hmark]
  rfl

theorem Part.shown_visible (p : Part) : p.shown.visible = p.visible.map Record.beyondAnnounced := by
  unfold Part.visible
  have hstate : p.shown.feed = p.feed := rfl
  rw [hstate]
  split
  · exact List.filter_map
  · rfl

theorem Part.shown_composeLine (p : Part) (role : Role) : p.shown.composeLine role = p.composeLine role := by
  have hblanked : p.shown.blanked = p.blanked := rfl
  have hat (k : Nat) : p.shown.visible[k]? = (p.visible[k]?).map Record.beyondAnnounced := by
    rw [Part.shown_visible, List.getElem?_map]
  cases role with
  | banner =>
    unfold Part.composeLine
    dsimp only
    rw [Part.shown_bannerText]
  | clock => rfl
  | blank => rfl
  | departure k =>
    unfold Part.composeLine
    dsimp only
    rw [hblanked, hat]
    cases p.visible[k - 1]? with
    | none => rfl
    | some r => exact congrArg (ite _ _) (p.shown_departureRow _ r)
  | detail k =>
    unfold Part.composeLine
    dsimp only
    rw [hblanked, hat]
    cases p.visible[k - 1]? with
    | none => rfl
    | some r => rfl

theorem Part.shown_composeAll (p : Part) : p.shown.composeAll = p.composeAll := by
  have hroles : p.shown.roles = p.roles := rfl
  unfold Part.composeAll
  rw [hroles]
  exact List.map_congr_left fun role _ => p.shown_composeLine role

/-- Nothing composed changes with the image, the cues, the ports and the marks of the event. -/
theorem Part.composeAll_beyond (p : Part) (image : Image) (cues : CueSched) (info ctl : Port) (ev : Event) :
    ({ p with image := image, cues := cues, info := info, ctl := ctl, ev := ev } : Part).composeAll = p.composeAll := rfl

/-- What the end of the event composes is what the part shows afterwards. -/
theorem Part.finish_composeAll (p : Part) : p.finish.composeAll = p.composeAll := by
  have hrecords := p.finish_records
  have hnames := p.finish_names
  have hframe : p.finish = { p with
      image := p.finish.image, table := p.finish.table, cues := p.finish.cues, info := p.finish.info, ctl := p.finish.ctl
      ev := p.finish.ev } := by
    have h := p.ended_eq p.ev.wallTold
    rw [← Part.finish_eq_ended] at h
    exact h.trans (congrArg (fun e : Event => ({ p with
      image := p.finish.image, table := p.finish.table, cues := p.finish.cues, info := p.finish.info, ctl := p.finish.ctl
      ev := e } : Part)) (congrArg Part.ev h).symm)
  rw [← Part.shown_composeAll p.finish, ← Part.shown_composeAll p]
  generalize p.finish = q at *
  have htable : q.shown.table = p.shown.table := by
    unfold Part.shown
    dsimp only
    rw [hrecords, hnames]
  have hshown : q.shown = { p.shown with image := q.image, cues := q.cues, info := q.info, ctl := q.ctl, ev := q.ev } := by
    have h := (congrArg (fun x : Part => ({ x with table := q.shown.table } : Part)) hframe :)
    rw [htable] at h
    exact (congrArg (fun t : Table => ({ q with table := t } : Part)) htable).trans h
  rw [hshown]
  exact p.shown.composeAll_beyond _ _ _ _ _

end Sys2Proof.Machine
end

section
/-! SETTINGS_WRITE of a row (R202): the settings, the records and the Composer before the inputs are looked at. -/

namespace Sys2Proof.Machine

/-! ## The conditions of the inputs, as propositions -/

section
variable (w : WallInput) (old new : InputConfig)

theorem WallInput.isOn_iff : w.isOn = true ↔ w.state = .active ∨ w.state = .releasing := by
  rw [WallInput.isOn, Bool.or_eq_true, beq_iff_eq, beq_iff_eq]

theorem WallInput.endsUnder_iff : w.endsUnder old new = true ↔ (w.state = .active ∨ w.state = .releasing) ∧ old.mode = .act ∧
    (new.mode ≠ .act ∨ old.tokens ≠ [] ∧ new.tokens = []) := by
  simp only [WallInput.endsUnder, Bool.and_eq_true, Bool.or_eq_true, WallInput.isOn_iff, beq_iff_eq, bne_iff_ne, Bool.not_eq_true',
    List.isEmpty_iff, List.isEmpty_eq_false_iff, and_assoc]

theorem WallInput.beginsUnder_iff : w.beginsUnder old new = true ↔ new.mode = .act ∧
    (old.mode ≠ .act ∧ w.state = .active ∨
      old.mode = .act ∧ (w.state = .active ∨ w.state = .releasing) ∧ old.tokens = [] ∧ new.tokens ≠ []) := by
  simp only [WallInput.beginsUnder, Bool.and_eq_true, Bool.or_eq_true, WallInput.isOn_iff, beq_iff_eq, bne_iff_ne, Bool.not_eq_true',
    List.isEmpty_iff, List.isEmpty_eq_false_iff, and_assoc, ne_eq]

theorem WallInput.tellsUnder_iff : w.tellsUnder old new = true ↔ (w.state = .active ∨ w.state = .releasing) ∧
    (old.mode = .act ∨ new.mode = .act) ∧ old ≠ new := by
  simp only [WallInput.tellsUnder, Bool.and_eq_true, Bool.or_eq_true, WallInput.isOn_iff, beq_iff_eq, bne_iff_ne, and_assoc]

theorem WallInput.offUnder_iff : w.offUnder old new = true ↔ (w.state = .active ∨ w.state = .releasing) ∧ old.mode ≠ .off ∧
    new.mode = .off := by
  simp only [WallInput.offUnder, Bool.and_eq_true, WallInput.isOn_iff, beq_iff_eq, bne_iff_ne]
  tauto

theorem WallInput.not_begins_of_ends (h : w.endsUnder old new = true) : w.beginsUnder old new = false := by
  rw [WallInput.endsUnder_iff] at h
  refine Bool.eq_false_iff.mpr fun hb => ?_
  rw [WallInput.beginsUnder_iff] at hb
  obtain ⟨_, hold, hnew⟩ := h
  obtain ⟨hact, ⟨hother, _⟩ | ⟨_, _, hnone, _⟩⟩ := hb
  · exact hother hold
  · exact hnew.elim (fun hn => hn hact) fun hn => hn.1 hnone

end

/-! ## The row written -/

/-- The part with a row of the working copy replaced, in the event that writes it. -/
def Part.rowWrittenTo (p : Part) (r : Nat) (row : List Byte) : Part :=
  p.begin.modStore fun st => { st with working := updateAt st.working r fun _ => row }

/-- The records and the Composer have been looked after, the inputs not yet (R56, R115). -/
def Part.rowTaken (p : Part) (r : Nat) (row : List Byte) : Part :=
  (if (p.rowWrittenTo r row).thresholds == p.thresholds then p.rowWrittenTo r row else (p.rowWrittenTo r row).recomputeAll).tellOfRow r

theorem Part.afterWrite_eq (p : Part) (r : Nat) (row : List Byte) :
    (p.rowWrittenTo r row).afterWrite p r = (p.rowTaken r row).inputsConfigured p.store.working := rfl

section
variable {p : Part} {r off : Nat} {bytes : List Byte}

theorem settingsWrite_frozen (h : p.store.frozen = true) : settingsWrite (r, off, bytes) p = .reply p .frozen [] := if_pos h

variable (h : p.store.frozen = false)
include h

theorem settingsWrite_invalid (hbad : 10 < r ∨ 64 < off + bytes.length) : settingsWrite (r, off, bytes) p = .reply p .invalidField [] := by
  unfold settingsWrite
  rw [if_neg (by rw [h]; exact Bool.false_ne_true), if_pos (by simpa using hbad)]
  rfl

theorem settingsWrite_park (hr : r = 10) (hfit : off + bytes.length ≤ 64) : settingsWrite (r, off, bytes) p = .reply p .notPermitted [] := by
  subst hr
  unfold settingsWrite
  rw [if_neg (by rw [h]; exact Bool.false_ne_true), if_neg (by simp; omega)]
  rfl

theorem settingsWrite_taken (hr : r < 10) (hfit : off + bytes.length ≤ 64) (hrow : rowInRange r (p.row r)) {placed row : List Byte}
    (hplaced : placed = overwriteFrom off bytes (p.row r)) (hclamp : row = clampRow r placed) : settingsWrite (r, off, bytes) p =
      .reply ((p.rowTaken r row).inputsConfigured p.store.working).finish (if placed = row then .ok else .okClamped) row := by
  have hw : p.rowWritten r off bytes = (placed, row) := by
    have hclamped := (clampWritten_eq hrow hfit).1
    rw [hclamp, hplaced, ← hclamped]
    rfl
  unfold settingsWrite
  rw [if_neg (by rw [h]; exact Bool.false_ne_true), if_neg (by simp; omega), if_neg (by simp; omega)]
  dsimp only
  rw [hw]
  simp only [beq_iff_eq]
  rfl

end

section
variable (p : Part) (r : Nat) (row : List Byte)

theorem Part.tellOfRow_eq (q : Part) : q.tellOfRow r = { q with ev := { q.ev with wallTold := q.ev.wallTold || [0, 2, 3, 6, 7, 8, 9].contains r } } := by
  unfold Part.tellOfRow
  cases [0, 2, 3, 6, 7, 8, 9].contains r with
  | false => simp
  | true => simp [Part.tellWall]

theorem Part.rowTaken_beyondTable : (p.rowTaken r row).beyondTable =
    ({ p with store := { p.store with working := updateAt p.store.working r fun _ => row } } : Part).beyondTable := by
  have htell (q : Part) : (q.tellOfRow r).beyondTable = q.beyondTable := by
    rw [Part.tellOfRow_eq]
    rfl
  unfold Part.rowTaken
  rw [htell]
  split
  · rfl
  · exact Part.recomputeAll_beyondTable _

variable {p r row}

/-- With the thresholds kept the records, the notices and the cues stay as they are. -/
theorem Part.rowTaken_kept (h : (p.rowWrittenTo r row).thresholds = p.thresholds) : p.rowTaken r row = { p with
    store := { p.store with working := updateAt p.store.working r fun _ => row }
    ev := { noEvent with arrivalMark := p.cues.nextArrival, wallTold := [0, 2, 3, 6, 7, 8, 9].contains r } } := by
  unfold Part.rowTaken
  rw [if_pos (beq_iff_eq.mpr h), Part.tellOfRow_eq]
  rfl

/-- With a threshold changed every record is computed anew. -/
theorem Part.rowTaken_recomputed (h : (p.rowWrittenTo r row).thresholds ≠ p.thresholds) :
    (p.rowTaken r row).table = (p.rowWrittenTo r row).recomputeAll.table ∧ p.Apart (p.rowTaken r row) ∧
      (p.rowTaken r row).ev.wallTold = true := by
  unfold Part.rowTaken
  rw [if_neg (mt beq_iff_eq.mp h), Part.tellOfRow_eq]
  have hwritten : p.Apart (p.rowWrittenTo r row) := Part.apart_of_bare rfl rfl rfl
  have hcomputed := hwritten.trans (Part.apart_recomputeAll (p.rowWrittenTo r row))
  have htold := Part.recomputeAll_told (p.rowWrittenTo r row)
  generalize (p.rowWrittenTo r row).recomputeAll = q at *
  refine ⟨rfl, hcomputed.trans (Part.apart_of_bare rfl rfl rfl), ?_⟩
  show (q.ev.wallTold || _) = true
  rw [htold, Bool.true_or]

/-- Only row 1 holds thresholds, and no input's configuration is in it. -/
theorem Part.inputConfig_of_thresholds (h : (p.rowWrittenTo r row).thresholds ≠ p.thresholds) (i : Nat) :
    inputConfigIn (updateAt p.store.working r fun _ => row) i = inputConfigIn p.store.working i := by
  have hr : r = 1 := by
    by_contra hne
    have hrow : (p.rowWrittenTo r row).row 1 = p.row 1 := updateAt_getD_other _ _ _ _ _ hne
    refine h ?_
    unfold Part.thresholds Part.lateL Part.hystH Part.noticeN Part.stepP Part.reseqQ Part.cfg
    rw [hrow]
  subst hr
  unfold inputConfigIn
  rw [updateAt_getD_other _ _ _ _ _ (by decide), updateAt_getD_other _ _ _ _ _ (by decide)]

end

end Sys2Proof.Machine
end

section
/-! The end of the event of a SETTINGS_WRITE: the cues of the inputs, the records, the image (R115, R157, R199). -/

namespace Sys2Proof.Machine

/-! ## The end of an event and the records of an input -/

theorem Part.finish_repeats (p : Part) : p.finish.cues.repeats = p.cues.repeats := (congrArg CueSched.repeats (Part.finish_law p).2.sched :)

/-- Records of an input that are all stopping are so at the end of the event. -/
theorem Part.finish_stopping {p : Part} {n : Nat} (hd : (p.cues.pool.map (·.id)).Nodup)
    (h : ∀ c ∈ p.cues.pool, c.input = some n → c.isStopping) : ∀ x ∈ p.finish.cues.pool, x.input = some n → x.isStopping := by
  intro x hx hin
  have hmem : x.beyondRelease ∈ p.cues.pool.map Cue.beyondRelease := (Part.finish_law p).2.pool ▸ List.mem_map_of_mem hx
  obtain ⟨y, hy, heq⟩ := List.mem_map.mp hmem
  have hid : y.id = x.id := (congrArg Cue.id heq :)
  obtain ⟨why, t, hstop⟩ := h y hy ((congrArg Cue.input heq :).trans hin)
  have hsettled : p.cues.Settled x.id 0 := fun c hc hcid => by
    rw [List.inj_on_of_nodup_map hd hc hy (hcid.trans hid.symm)]
    exact ⟨why, t, hstop, Nat.zero_le t⟩
  have hended := Part.settled_ended hsettled p.ev.wallTold
  rw [← Part.finish_eq_ended] at hended
  obtain ⟨why, t, hstop, _⟩ := hended x hx rfl
  exact ⟨why, t, hstop⟩

theorem Part.finish_placed {p : Part} {x : Cue} {i now : Nat} {tokens : List Nat} (hx : x ∈ p.cues.pool) (hfields : x.ofInput i tokens now) :
    ∃ y ∈ p.finish.cues.pool, y.ofInput i tokens now := by
  have hmem : x.beyondRelease ∈ p.finish.cues.pool.map Cue.beyondRelease := (Part.finish_law p).2.pool.symm ▸ List.mem_map_of_mem hx
  obtain ⟨y, hy, heq⟩ := List.mem_map.mp hmem
  obtain ⟨_, hcls, horigin, _, _, hinput, htokens, _, _, hcreated, _⟩ := Cue.fields_of_beyondRelease heq
  obtain ⟨h1, h2, h3, h4, h5⟩ := hfields
  exact ⟨y, hy, hinput.trans h1, hcls.trans h2, horigin.trans h3, htokens.trans h4, hcreated.trans h5⟩

theorem Part.finish_latched (p : Part) (l : Link) {k : EventKind} (hk : k ≠ .cueFailed) :
    (p.finish.port l).isLatched k = (p.port l).isLatched k := ((p.finish_port l).other k hk).1

theorem Part.finish_notices (p : Part) : p.finish.notices = p.notices := by
  rw [Part.finish_eq_ended, Part.ended_notices]

theorem Part.finish_image (p : Part) : p.finish.image = if p.ev.wallTold then p.image.take p.finish.composeAll else p.image := by
  rw [Part.finish_composeAll]
  exact (Part.finish_law p).1

/-! ## The part in which the inputs are looked at -/

section
variable {p : Part} {r : Nat} {row : List Byte}

theorem Part.rowTaken_store : (p.rowTaken r row).store = { p.store with working := updateAt p.store.working r fun _ => row } :=
  Part.store_of_table (p.rowTaken_beyondTable r row)

theorem Part.rowTaken_apart : p.Apart (p.rowTaken r row) := by
  by_cases h : (p.rowWrittenTo r row).thresholds = p.thresholds
  · rw [Part.rowTaken_kept h]
    exact Part.apart_of_bare rfl rfl rfl
  · exact (Part.rowTaken_recomputed h).2.1

theorem Part.rowTaken_ok (hok : p.table.ok) : (p.rowTaken r row).table.ok ∧ (p.rowTaken r row).table.names = p.table.names := by
  by_cases h : (p.rowWrittenTo r row).thresholds = p.thresholds
  · rw [Part.rowTaken_kept h]
    exact ⟨hok, rfl⟩
  · have hok' : (p.rowWrittenTo r row).table.ok := hok
    rw [(Part.rowTaken_recomputed h).1]
    exact ⟨Part.recomputeAll_ok hok', (congrArg Table.names (Part.recomputeAll_table hok') :)⟩

theorem Part.rowTaken_told : (p.rowTaken r row).ev.wallTold = true ↔
    (p.rowWrittenTo r row).thresholds ≠ p.thresholds ∨ r ∈ [0, 2, 3, 6, 7, 8, 9] := by
  by_cases h : (p.rowWrittenTo r row).thresholds = p.thresholds
  · rw [Part.rowTaken_kept h]
    exact List.contains_iff_mem.trans (or_iff_right (not_not.mpr h)).symm
  · exact ⟨fun _ => .inl h, fun _ => (Part.rowTaken_recomputed h).2.2⟩

/-- The records that the recomputation leaves, as the event's end leaves them. -/
theorem Part.finish_recomputed (hok : p.table.ok) {q : Part} (ht : q.table = p.recomputeAll.table) :
    (∀ x ∈ q.finish.table.records, ∃ x₀ ∈ p.table.records, x₀.id = x.id) ∧
    ∀ x₀ ∈ p.table.records, ((q.finish.record? x₀.id).isSome = true ↔ p.retireDue (p.computed x₀) = false) ∧
      ∀ x, q.finish.record? x₀.id = some x → p.handsOn x₀.running x₀ x := by
  have hrecords := q.finish_records
  rw [ht] at hrecords
  refine ⟨fun x hx => ?_, fun x₀ hx₀ => ?_⟩
  · have hmem : x.beyondAnnounced ∈ p.recomputeAll.table.records.map Record.beyondAnnounced := hrecords ▸ List.mem_map_of_mem hx
    obtain ⟨y, hy, heq⟩ := List.mem_map.mp hmem
    obtain ⟨x₀, hx₀, rfl, _⟩ := (Part.mem_recomputeAll hok).mp hy
    exact ⟨x₀, hx₀, (congrArg Record.id heq :)⟩
  · have hfind := find_beyondAnnounced q.finish.table.records x₀.id
    rw [hrecords, find_beyondAnnounced] at hfind
    have hrecord : (q.finish.record? x₀.id).map Record.beyondAnnounced =
        (if p.retireDue (p.computed x₀) then none else some (p.recomputed x₀)).map Record.beyondAnnounced :=
      hfind.symm.trans (congrArg (Option.map Record.beyondAnnounced) (Part.recomputeAll_record? hok hx₀))
    refine ⟨?_, fun x hx => ?_⟩
    · rw [← Option.isSome_map, hrecord, Option.isSome_map]
      cases p.retireDue (p.computed x₀) <;> simp
    · rw [hx] at hrecord
      cases hdue : p.retireDue (p.computed x₀) with
      | true =>
        rw [hdue] at hrecord
        cases hrecord
      | false =>
        rw [hdue] at hrecord
        exact Part.handsOn_announced (Option.some.inj hrecord) (p.handsOn_recomputed x₀)

end

end Sys2Proof.Machine
end

section
/-! Settling O55: the settings commands and the store writes. -/

namespace Sys2Proof.Machine

/-! ## SETTINGS_WRITE -/

section
variable {p : Part} {r : Nat} {row : List Byte}

/-- The five thresholds, one by one. -/
theorem thresholds_iff (p q : Part) : q.thresholds = p.thresholds ↔ q.lateL = p.lateL ∧ q.hystH = p.hystH ∧ q.noticeN = p.noticeN ∧
    q.stepP = p.stepP ∧ q.reseqQ = p.reseqQ := by
  simp [Part.thresholds]

theorem Part.thresholds_congr {p q : Part} (h : q.store.working = p.store.working) : q.thresholds = p.thresholds := by
  unfold Part.thresholds Part.lateL Part.hystH Part.noticeN Part.stepP Part.reseqQ
  simp only [Part.cfg_congr h]

/-- The part in which the inputs have been looked at. -/
def Part.rowDone (p : Part) (r : Nat) (row : List Byte) : Part := (p.rowTaken r row).inputsConfigured p.store.working

theorem Part.rowTaken_inputs : (p.rowTaken r row).inputs = p.inputs :=
  (congrArg Part.inputs (p.rowTaken_beyondTable r row) :)

theorem Part.rowTaken_elapsed : (p.rowTaken r row).elapsed = p.elapsed :=
  (congrArg Part.elapsed (p.rowTaken_beyondTable r row) :)

theorem Part.rowTaken_input (i : Nat) : (p.rowTaken r row).input i = p.input i := by
  unfold Part.input
  rw [Part.rowTaken_inputs]

theorem Part.configured_rowDone (hin : p.inputs.length = 4) (hrep : p.cues.repeats.length = 4) :
    (p.rowTaken r row).Configured (p.rowDone r row) p.store.working 4 :=
  Part.configured_inputsConfigured _ _ (by rw [Part.rowTaken_inputs, hin]) (by rw [Part.rowTaken_apart.repeats, hrep])

/-- A threshold that changes leaves every input's actions as they are. -/
theorem Part.inputs_idle (h : (p.rowWrittenTo r row).thresholds ≠ p.thresholds) (i : Nat) :
    (p.rowTaken r row).inputEnds p.store.working i = false ∧ (p.rowTaken r row).inputBegins p.store.working i = false := by
  have hsame : (p.rowTaken r row).inputConfig i = inputConfigIn p.store.working i := by
    unfold Part.inputConfig
    rw [Part.rowTaken_store]
    exact Part.inputConfig_of_thresholds h i
  unfold Part.inputEnds Part.inputBegins
  rw [hsame]
  constructor
  · refine Bool.eq_false_iff.mpr fun he => ?_
    obtain ⟨_, hact, hnot | ⟨hsome, hnone⟩⟩ := (WallInput.endsUnder_iff _ _ _).mp he
    · exact hnot hact
    · exact hsome hnone
  · refine Bool.eq_false_iff.mpr fun hb => ?_
    obtain ⟨hact, ⟨hnot, _⟩ | ⟨_, _, hnone, hsome⟩⟩ := (WallInput.beginsUnder_iff _ _ _).mp hb
    · exact hnot hact
    · exact hsome hnone

end

/-- What a SETTINGS_WRITE that is taken leaves of one input, `old` and `new` being its configurations (R198, R199). -/
structure Part.InputWritten (p q : Part) (i : Nat) (old new : InputConfig) : Prop where
  asserted : (q.input i).asserted = (p.input i).asserted
  off : new.mode = .off → (q.input i).state = .idle ∧ (q.input i).timer = none
  qualifies : new.mode ≠ .off → old.mode = .off → (p.input i).asserted = true →
    (q.input i).state = .qualifying ∧ (q.input i).timer = some (p.elapsed + new.qualify)
  stays : new.mode ≠ .off → (old.mode ≠ .off ∨ (p.input i).asserted = false) →
    (q.input i).state = (p.input i).state ∧ (q.input i).timer = (p.input i).timer
  ends : (p.input i).endsUnder old new = true → q.cues.repeats[i]? = some none ∧
    (p.cues.ok → p.cues.reserved.length ≤ 1000 → (p.cues.pool.map (·.id)).Nodup →
      ∀ x ∈ q.cues.pool, x.input = some (i + 1) → x.isStopping)
  begins : (p.input i).beginsUnder old new = true → new.tokens ≠ [] → p.cues.ok → p.cues.reserved.length ≤ 1000 →
    q.cues.repeats[i]? = some (new.repeatAt p.elapsed) ∧
    ((∃ x ∈ q.cues.pool, x.ofInput i new.tokens p.elapsed) ∨ ∀ l, (q.port l).isLatched .cueDropped = true)
  quiet : ¬(p.input i).beginsUnder old new = true → ¬(p.input i).endsUnder old new = true → q.cues.repeats[i]? = p.cues.repeats[i]?

section
variable {p : Part} {r : Nat} {row : List Byte} (hin : p.inputs.length = 4) (hrep : p.cues.repeats.length = 4)
include hin hrep

theorem Part.rowDone_inputConfig (i : Nat) : (p.rowDone r row).finish.inputConfig i = (p.rowTaken r row).inputConfig i := by
  have hstore := (p.rowDone r row).finish_store
  have hsame := (Part.configured_rowDone (r := r) (row := row) hin hrep).inputConfig i
  rw [← hsame]
  unfold Part.inputConfig
  rw [hstore]

theorem Part.rowDone_input {i : Nat} (hi : i < 4) : p.InputWritten (p.rowDone r row).finish i (p.inputConfig i)
    ((p.rowTaken r row).inputConfig i) := by
  have hdone := Part.configured_rowDone (r := r) (row := row) hin hrep
  have hinput : (p.rowDone r row).finish.input i =
      (p.input i).configMove (p.inputConfig i) ((p.rowTaken r row).inputConfig i) p.elapsed := by
    have h := hdone.input i
    rw [if_pos hi, Part.rowTaken_input, Part.rowTaken_elapsed] at h
    unfold Part.input at h ⊢
    rw [Part.finish_inputs]
    exact h
  obtain ⟨hasserted, hoff, hqualifies, hstays, _⟩ :=
    (p.input i).configMove_law (p.inputConfig i) ((p.rowTaken r row).inputConfig i) p.elapsed
  rw [← hinput] at hasserted hoff hqualifies hstays
  have hrepeats : (p.rowDone r row).finish.cues.repeats[i]? = (p.rowTaken r row).repeatAfter p.store.working i := by
    rw [Part.finish_repeats, hdone.repeats i hi, if_pos hi]
  have hends : (p.rowTaken r row).inputEnds p.store.working i = (p.input i).endsUnder (p.inputConfig i) ((p.rowTaken r row).inputConfig i) := by
    unfold Part.inputEnds
    rw [Part.rowTaken_input]
    rfl
  have hbegins : (p.rowTaken r row).inputBegins p.store.working i =
      (p.input i).beginsUnder (p.inputConfig i) ((p.rowTaken r row).inputConfig i) := by
    unfold Part.inputBegins
    rw [Part.rowTaken_input]
    rfl
  have hcues : (p.rowTaken r row).inputEnds p.store.working i = true ∨ (p.rowTaken r row).inputBegins p.store.working i = true →
      (p.rowTaken r row).cues = p.cues := fun h => by
    by_cases hkept : (p.rowWrittenTo r row).thresholds = p.thresholds
    · rw [Part.rowTaken_kept hkept]
    · obtain ⟨he, hb⟩ := Part.inputs_idle hkept i
      rw [he, hb] at h
      exact absurd h (by decide)
  have hstopped := hdone.stopped
  have hbegun := hdone.begun
  unfold Part.repeatAfter at hrepeats
  rw [hends, hbegins, Part.rowTaken_elapsed, Part.rowTaken_apart.repeats] at hrepeats
  rw [hends, hbegins] at hcues
  refine ⟨hasserted, hoff, hqualifies, hstays, fun he => ⟨?_, fun hok hres hd => ?_⟩, fun hb ht hok hres => ⟨?_, ?_⟩, fun hb he => ?_⟩
  · rw [hrepeats, if_pos he]
  · have hsame := hcues (.inl he)
    rw [hsame] at hstopped
    have hkept := hdone.keeps.cues.ids 1000 (by decide)
    rw [hsame] at hkept
    exact Part.finish_stopping (hkept hok hres hd).2 (hstopped hok hres hd i hi (hends.trans he))
  · have he : ¬(p.input i).endsUnder (p.inputConfig i) ((p.rowTaken r row).inputConfig i) = true := fun he => by
      rw [WallInput.not_begins_of_ends _ _ _ he] at hb
      cases hb
    rw [hrepeats, if_neg he, if_pos ⟨hb, ht⟩]
  · have he : (p.input i).endsUnder (p.inputConfig i) ((p.rowTaken r row).inputConfig i) = false := Bool.eq_false_iff.mpr fun he => by
      rw [WallInput.not_begins_of_ends _ _ _ he] at hb
      cases hb
    rw [hcues (.inr hb), Part.rowTaken_elapsed] at hbegun
    exact (hbegun hok hres i hi (hends.trans he) (hbegins.trans hb) ht).imp (fun ⟨x, hx, hfields⟩ => Part.finish_placed hx.mem hfields)
      fun hall l => (Part.finish_latched _ l (k := .cueDropped) (nomatch ·)).trans (hall l)
  · rw [hrepeats, if_neg he, if_neg fun h => hb h.1]

end

end Sys2Proof.Machine
end

section
/-! What a SETTINGS_WRITE that is taken leaves, from the settings to the image (R56, R115, R198, R202). -/

namespace Sys2Proof.Machine

section
variable {p q : Part} {rows : List (List Byte)} {k : Nat} (h : p.Configured q rows k)
include h

theorem Part.Configured.store : q.store = p.store := (congrArg Part.store h.frame :)

theorem Part.Configured.own : q.own = p.own := (congrArg Part.own h.frame :)

theorem Part.Configured.time : q.time = p.time := (congrArg Part.time h.frame :)

theorem Part.Configured.chain : q.chain = p.chain := (congrArg Part.chain h.frame :)

theorem Part.Configured.clocks : q.clocks = p.clocks := (congrArg Part.clocks h.frame :)

theorem Part.Configured.feed : q.feed = p.feed := (congrArg Part.feed h.frame :)

theorem Part.Configured.table : q.table = p.table := (congrArg Part.table h.frame :)

theorem Part.Configured.notices : q.notices = p.notices := (congrArg Part.notices h.frame :)

theorem Part.Configured.image : q.image = p.image := (congrArg Part.image h.frame :)

end

/-- The part that a SETTINGS_WRITE that is taken leaves. -/
def Part.written (p : Part) (r : Nat) (row : List Byte) : Part := (p.rowDone r row).finish

section
variable {p : Part} {r : Nat} {row : List Byte} (hin : p.inputs.length = 4) (hrep : p.cues.repeats.length = 4)
include hin hrep

theorem Part.written_store : (p.written r row).store = { p.store with working := updateAt p.store.working r fun _ => row } := by
  have hdone := Part.configured_rowDone (r := r) (row := row) hin hrep
  exact ((p.rowDone r row).finish_store.trans hdone.store).trans Part.rowTaken_store

theorem Part.written_others : (p.written r row).own = p.own ∧ (p.written r row).time = p.time ∧ (p.written r row).chain = p.chain ∧
    (p.written r row).clocks = p.clocks ∧ (p.written r row).feed = p.feed ∧ (p.written r row).elapsed = p.elapsed := by
  have hdone := Part.configured_rowDone (r := r) (row := row) hin hrep
  have htaken := p.rowTaken_beyondTable r row
  exact ⟨((p.rowDone r row).finish_own.trans hdone.own).trans (congrArg Part.own htaken :),
    ((p.rowDone r row).finish_time.trans hdone.time).trans (congrArg Part.time htaken :),
    ((p.rowDone r row).finish_chain.trans hdone.chain).trans (congrArg Part.chain htaken :),
    ((p.rowDone r row).finish_clocks.trans hdone.clocks).trans (congrArg Part.clocks htaken :),
    ((p.rowDone r row).finish_feed.trans hdone.feed).trans (congrArg Part.feed htaken :),
    ((p.rowDone r row).finish_elapsed.trans hdone.elapsed).trans (congrArg Part.elapsed htaken :)⟩

theorem Part.rowDone_table : (p.rowDone r row).table = (p.rowTaken r row).table :=
  (Part.configured_rowDone hin hrep).table

theorem Part.written_ok (hok : p.table.ok) : (p.written r row).table.names = p.table.names ∧ (p.written r row).table.ok := by
  obtain ⟨htaken, hnames⟩ := Part.rowTaken_ok (r := r) (row := row) hok
  rw [← Part.rowDone_table hin hrep] at htaken hnames
  exact ⟨(p.rowDone r row).finish_names.trans hnames, (p.rowDone r row).finish_same.ok htaken⟩

/-- The thresholds are those of the row written. -/
theorem Part.written_thresholds : (p.written r row).thresholds = p.thresholds ↔ (p.rowWrittenTo r row).thresholds = p.thresholds := by
  rw [Part.thresholds_congr (p := p.rowWrittenTo r row) (q := p.written r row) (by rw [Part.written_store hin hrep]; rfl)]

theorem Part.written_kept (h : (p.rowWrittenTo r row).thresholds = p.thresholds) : (p.written r row).notices = p.notices ∧
    (p.written r row).table.records.map Record.beyondAnnounced = p.table.records.map Record.beyondAnnounced := by
  have hdone := Part.configured_rowDone (r := r) (row := row) hin hrep
  have htaken := Part.rowTaken_kept h
  refine ⟨((p.rowDone r row).finish_notices.trans hdone.notices).trans (congrArg Part.notices htaken :), ?_⟩
  have htable : (p.rowDone r row).table = p.table := (Part.rowDone_table hin hrep).trans (congrArg Part.table htaken :)
  rw [Part.written, Part.finish_records, htable]

theorem Part.written_recomputed (h : (p.rowWrittenTo r row).thresholds ≠ p.thresholds) (hok : p.table.ok) :
    (∀ x ∈ (p.written r row).table.records, ∃ x₀ ∈ p.table.records, x₀.id = x.id) ∧
    ∀ x₀ ∈ p.table.records,
      (((p.written r row).record? x₀.id).isSome = true ↔ (p.written r row).retireDue ((p.written r row).computed x₀) = false) ∧
      ∀ x, (p.written r row).record? x₀.id = some x → (p.written r row).handsOn x₀.running x₀ x := by
  have hstore := Part.written_store (r := r) (row := row) hin hrep
  obtain ⟨_, htime, _, _, _, helapsed⟩ := Part.written_others (r := r) (row := row) hin hrep
  have hlaw := Part.finish_recomputed (p := p.rowWrittenTo r row) hok
    ((Part.rowDone_table hin hrep).trans (Part.rowTaken_recomputed h).1)
  obtain ⟨hids, hlaw⟩ := hlaw
  refine ⟨hids, fun x₀ hx₀ => ?_⟩
  obtain ⟨hheld, hhands⟩ := hlaw x₀ hx₀
  have hheld : ((p.written r row).record? x₀.id).isSome = true ↔
    (p.rowWrittenTo r row).retireDue ((p.rowWrittenTo r row).computed x₀) = false := hheld
  have hhands : ∀ x, (p.written r row).record? x₀.id = some x → (p.rowWrittenTo r row).handsOn x₀.running x₀ x := hhands
  generalize p.written r row = q at *
  have hcomputed (x : Record) : q.computed x = (p.rowWrittenTo r row).computed x := Part.computed_congr (by rw [hstore]; rfl) x
  refine ⟨?_, fun x hx => ?_⟩
  · rw [hcomputed, Part.retireDue_congr (p := p.rowWrittenTo r row) htime hstore]
    exact hheld
  · obtain ⟨hsame, hdelay, hmark⟩ := hhands x hx
    unfold Part.handsOn
    rw [hcomputed]
    exact ⟨hsame, Part.announcedLaw_congr (q := p.rowWrittenTo r row) hstore.symm hdelay,
      Part.markLaw_congr (q := p.rowWrittenTo r row) helapsed.symm hstore.symm rfl rfl hmark⟩

/-! ## The Wall Composer and INPUT_CHANGED -/

theorem Part.written_inputConfig (i : Nat) : (p.written r row).inputConfig i = (p.rowTaken r row).inputConfig i :=
  Part.rowDone_inputConfig hin hrep i

theorem Part.written_input {i : Nat} (hi : i < 4) :
    p.InputWritten (p.written r row) i (p.inputConfig i) ((p.written r row).inputConfig i) := by
  rw [Part.written_inputConfig hin hrep]
  exact Part.rowDone_input hin hrep hi

theorem Part.written_image : (p.written r row).image =
    if (p.rowDone r row).ev.wallTold then p.image.take (p.written r row).composeAll else p.image := by
  have himage : (p.rowDone r row).image = p.image :=
    (Part.configured_rowDone hin hrep).image.trans Part.rowTaken_apart.image
  rw [← himage]
  exact Part.finish_image _

theorem Part.rowDone_told : (p.rowDone r row).ev.wallTold = true ↔
    (p.rowWrittenTo r row).thresholds ≠ p.thresholds ∨ r ∈ [0, 2, 3, 6, 7, 8, 9] ∨
      ∃ i, i < 4 ∧ (p.input i).tellsUnder (p.inputConfig i) ((p.written r row).inputConfig i) = true := by
  rw [(Part.configured_rowDone hin hrep).told, Part.rowTaken_told, or_assoc]
  unfold Part.inputTells
  simp only [Part.rowTaken_input, Part.written_inputConfig hin hrep]
  rfl

theorem Part.written_changed (l : Link) : ((p.written r row).port l).isLatched .inputChanged = true ↔
    (p.port l).isLatched .inputChanged = true ∨
      ∃ i, i < 4 ∧ (p.input i).offUnder (p.inputConfig i) ((p.written r row).inputConfig i) = true := by
  rw [Part.written, Part.finish_latched _ l (k := .inputChanged) (nomatch ·), (Part.configured_rowDone hin hrep).changed,
    Part.rowTaken_apart.changed]
  unfold Part.inputOff
  simp only [Part.rowTaken_input]
  rw [show (p.rowDone r row).finish = p.written r row from rfl]
  simp only [Part.written_inputConfig hin hrep]
  rfl

end

end Sys2Proof.Machine
end

section
/-! O55: the settings commands and the end of a store write (R202 to R205). -/

namespace Sys2Proof.Machine

/-! ## The end of a store write -/

section
variable {p : Part} {w : StoreWrite} {rest : List StoreWrite} (hw : p.store.writes = w :: rest)
include hw

theorem Part.writeComplete_saved {r : Nat} {tag : Byte} (he : w = .save r)
    (h : p.info.waiting = some (.save tag r)) : p.writeComplete.info.waiting = none ∧ ∃ summary, p.writeComplete.info.tx.getLast? =
      some (.reply 0xC2 tag summary 0 (be 2 (p.writeComplete.store.storedRow r).saves)) := by
  subst he
  have hperformed : (p.performWrite (.save r)).info.waiting = some (.save tag r) := h
  have hreport := Part.reportWrite_save hperformed
  obtain ⟨hnone, hanswer⟩ := Part.answerWaiting_info (p.performWrite (.save r)) 0xC2 tag .ok
    (be 2 ((p.performWrite (.save r)).store.storedRow r).saves)
  rw [← hreport] at hnone hanswer
  have hsame : p.writeComplete = (p.performWrite (.save r)).reportWrite (.save r) :=
    (Part.writeComplete_eq hw).trans (Part.waitingCheck_eq fun t => by rw [hnone]; exact nofun)
  rw [hsame, Part.reportWrite_store]
  exact ⟨hnone, hanswer⟩

theorem Part.writeComplete_parked (hlen : p.store.stored.length = 11) {e : List Byte} {k : Park} (he : w = .park e)
    (h : p.clocks.park = some k) : p.writeComplete.clocks = { p.clocks with park := none, recordValid := true } ∧
      ∀ l, (p.writeComplete.port l).isLatched .clocksParked = true := by
  subst he
  have hreport : (p.performWrite (.park e)).reportWrite (.park e) =
      ((p.performWrite (.park e)).modClocks fun c => { c with park := none, recordValid := true }).latchNat .clocksParked k.lines.length := by
    show (p.performWrite (.park e)).parkDone = _
    unfold Part.parkDone
    rw [show (p.performWrite (.park e)).clocks.park = some k from h]
  have hlength : ((p.performWrite (.park e)).reportWrite (.park e)).store.stored.length = 11 := by
    rw [Part.writtenStore hw]
    exact (updateAt_length _ _ _).trans hlen
  obtain ⟨hclocks, hkept⟩ := Part.waitingCheck_frame hlength
  rw [← Part.writeComplete_eq hw] at hclocks hkept
  refine ⟨hclocks.trans ?_, fun l => hkept _ l ?_⟩
  · rw [hreport, Part.latchNat_clocks]
    rfl
  · rw [hreport, Part.latchNat, Part.latch_port]
    exact Port.latch_isLatched_same _ _ _

theorem Part.writeComplete_checked {tag : Byte} (he : rest = []) (h : p.info.waiting = some (.check tag)) :
    p.writeComplete.info.waiting = none ∧ ∃ summary body, p.writeComplete.info.tx.getLast? = some (.reply 0xC3 tag summary 0 body) := by
  have hwaiting := Part.reportWrite_waiting (p := p.performWrite w) h w
  have hwrites : ((p.performWrite w).reportWrite w).store.writes = [] := by
    rw [Part.writtenStore hw]
    exact he
  rw [Part.writeComplete_eq hw, Part.waitingCheck_answers hwaiting hwrites]
  obtain ⟨hnone, summary, hlast⟩ := Part.answerWaiting_info ((p.performWrite w).reportWrite w).checkRows 0xC3 tag .ok
    ((p.performWrite w).reportWrite w).checkRows.store.checkBody
  exact ⟨hnone, summary, _, hlast⟩

end

theorem Port.await_eq (q : Port) (frame : RequestFrame) (w : Waiting) : q.await frame w = { q with
    waiting := some w
    buffer := if q.buffer = [] then [frame] else q.buffer
    inFrame := q.inFrame && !q.buffer.isEmpty } := by
  unfold Port.await
  simp only [List.isEmpty_iff]

theorem leaves_of_wait {α : Type} {c : Instr} {kind : Nat} {read : List Byte → Option α} {handler : Link → α → Part → Answer}
    {rq : Req} {s : State} {a : α} {p : Part} {w : Waiting} (hc : exec c s = act (runRequest kind read handler rq) s)
    (he : Executes s kind rq) (hr : read rq.body = some a) (hh : handler rq.link a s.part = .wait p w) :
    Leaves c s (p.modPort rq.link fun q => { q with
      waiting := some w
      buffer := if q.buffer = [] then [requestFrame rq kind] else q.buffer
      inFrame := q.inFrame && !q.buffer.isEmpty }) := by
  simp only [← Port.await_eq]
  exact hc.trans (runRequest_wait he hr hh)

/-- Settles O55: the settings commands and the end of a store write. -/
theorem settingsCommands : Obligations.SettingsCommands := by
  unfold Obligations.SettingsCommands
  refine ⟨?write, ?save, ?check, ?freeze, ?complete⟩
  case write =>
    intro s rq r off bytes he hread
    refine ⟨fun hf => answers_of_reply rfl he hread (settingsWrite_frozen hf), fun hf =>
      ⟨fun h => answers_of_reply rfl he hread (settingsWrite_invalid hf h), fun hr hfit =>
        answers_of_reply rfl he hread (settingsWrite_park hf hr hfit), fun hr hfit hs hok hin hrep => ?_⟩⟩
    intro placed
    have hrow : rowInRange r (s.part.row r) := hs.2.1 r (Nat.lt_succ_of_lt hr)
    have hlength : placed.length = 64 := (overwriteFrom_length (hfit.trans_eq hrow.1.symm)).trans hrow.1
    have hanswer : Answers (.settingsWrite rq) s 0x41 rq (s.part.written r (clampRow r placed))
        (if placed = clampRow r placed then .ok else .okClamped) (clampRow r placed) :=
      answers_of_reply rfl he hread (settingsWrite_taken hf hr hfit hrow rfl rfl)
    generalize hclamp : clampRow r placed = row at hanswer
    have hrange : rowInRange r row := hclamp ▸ rowInRange_clampRow r hlength
    have hthresholds := Part.written_thresholds (r := r) (row := row) hin hrep
    have htold := Part.rowDone_told (r := r) (row := row) hin hrep
    have himage := Part.written_image (r := r) (row := row) hin hrep
    have hinput := fun i => Part.written_input (r := r) (row := row) (i := i) hin hrep
    have hchanged := Part.written_changed (r := r) (row := row) hin hrep
    have hkept := Part.written_kept (r := r) (row := row) hin hrep
    have hcomputed := Part.written_recomputed (r := r) (row := row) hin hrep
    obtain ⟨howner, htime, hchain, hclocks, hfeed, _⟩ := Part.written_others (r := r) (row := row) hin hrep
    obtain ⟨hnames, hok'⟩ := Part.written_ok (r := r) (row := row) hin hrep hok
    have hstore := Part.written_store (r := r) (row := row) hin hrep
    generalize s.part.written r row = q at *
    refine ⟨q, row, hanswer, rfl, hrange, hstore, howner, htime, hchain, hclocks, hfeed, hnames, hok', ?_⟩
    intro old new on begins ends thresholdsKept told
    have hsame : thresholdsKept ↔ (s.part.rowWrittenTo r row).thresholds = s.part.thresholds := (thresholds_iff _ _).symm.trans hthresholds
    have htells : told ↔ (s.part.rowDone r row).ev.wallTold = true := by
      rw [htold]
      simp only [WallInput.tellsUnder_iff]
      exact or_congr_left (not_congr hsame)
    refine ⟨fun h => hkept (hsame.mp h), fun h => hcomputed (mt hsame.mpr h) hok, fun h => himage.trans (if_pos (htells.mp h)),
      fun h => himage.trans (if_neg (mt htells.mpr h)), fun i hi => ?_, fun l => ?_⟩
    · obtain ⟨hasserted, hoff, hqualifies, hstays, hends, hbegins, hquiet⟩ := hinput i hi
      rw [WallInput.endsUnder_iff] at hends hquiet
      rw [WallInput.beginsUnder_iff] at hbegins hquiet
      exact ⟨hasserted, hoff, hqualifies, hstays, hends, hbegins, hquiet⟩
    · rw [hchanged]
      simp only [WallInput.offUnder_iff]
      rfl
  case save =>
    intro s rq r he hb
    have hread : readOne 1 rq.body = some r.toNat := hb ▸ readOne_byte r
    refine ⟨fun hf => answers_of_reply rfl he hread (settingsSave_frozen hf), fun hf =>
      ⟨fun hr => answers_of_reply rfl he hread (settingsSave_invalid hf hr), fun hr =>
        answers_of_reply rfl he hread (settingsSave_park hf (by rw [hr]; rfl)), fun hr hs =>
        answers_of_reply rfl he hread (settingsSave_worn hf hr hs), fun hr hs =>
        leaves_of_wait rfl he hread (settingsSave_waits hf hr hs)⟩⟩
  case check =>
    intro s rq he hb
    have hread : readEmpty rq.body = some () := congrArg readEmpty hb
    refine ⟨fun hw => leaves_of_wait rfl he hread (settingsCheck_waits hw), fun hw hlen => ?_⟩
    have hchecked := Part.checkRows_law hlen
    exact ⟨s.part.checkRows, answers_of_reply rfl he hread (settingsCheck_now hw hlen), hchecked.store, hchecked.fault, hchecked.frame⟩
  case freeze =>
    intro s rq he hb
    exact answers_of_reply rfl he (congrArg readEmpty hb) rfl
  case complete =>
    intro s w rest hpow hw hlen hrow
    have hwritten := Part.writeComplete_row hw hlen hrow
    refine ⟨s.part.writeComplete, leaves_act _ rfl hpow rfl, Part.writeComplete_writes hw hlen, Part.writeComplete_working hw hlen,
      ?_, fun r hr => ?_, fun r tag => Part.writeComplete_saved hw, fun e k => Part.writeComplete_parked hw hlen,
      fun tag => Part.writeComplete_checked hw⟩
    · intro old new
      rw [show new = _ from hwritten]
      exact ⟨StoreWrite.writtenBytes_eq _ _, rfl, rfl, rfl⟩
    · have hsame := Part.writeComplete_others hw hlen hr
      unfold StoredRow.content at hsame
      obtain ⟨hbytes, hrest⟩ := Prod.mk.inj hsame
      obtain ⟨hcheck, hsaves⟩ := Prod.mk.inj hrest
      exact ⟨hbytes, hcheck, hsaves⟩

end Sys2Proof.Machine
end
